-- ==== Sys2Proof/Word.lean ====
section
/-!
DEFINITION. The word types of the Ziton-2 and the sorted table used wherever the state holds a sparse collection.
R3 and R8 fix the notation: bit 0 is the least significant bit, and a value written to n bits keeps its low n bits.
-/

set_option Elab.async false

namespace Sys2Proof

/-- One byte. -/
abbrev Byte := BitVec 8
/-- A 32-bit word. -/
abbrev W32 := BitVec 32
/-- A 64-bit word. -/
abbrev W64 := BitVec 64
/-- One 128-byte line, byte k in bits [8k+7:8k]. -/
abbrev LineData := BitVec 1024
/-- One 128-lane vector of 32-bit lanes, lane 0 first (R199). -/
abbrev Vec := List (BitVec 32)

/-- Number of a grain context on this chip: DIE in [15], CLUSTER in [14:7], CORE in [6:4], CTX in [3:0] (R147). -/
abbrev CtxId := Nat
/-- Number of a core on this chip: a context number divided by 16. -/
abbrev CoreId := Nat
/-- Number of a cluster on this chip: 256 × DIE + logical CLUSTER. -/
abbrev ClusterId := Nat
/-- Number of a level-2 slice on this chip: 64 × DIE + slice index. -/
abbrev SliceId := Nat

/-- A sparse table: pairs of key and value with keys strictly rising. -/
abbrev Tab (α : Type) := List (Nat × α)

/-- The value a table holds at a key, or the default `d`. -/
def Tab.get {α : Type} (d : α) : Tab α → Nat → α
  | [], _ => d
  | (k, v) :: t, i => if i = k then v else Tab.get d t i

/-- The value a table holds at a key, when it lists one. -/
def Tab.find {α : Type} : Tab α → Nat → Option α
  | [], _ => none
  | (k, v) :: t, i => if i = k then some v else Tab.find t i

/-- Write one key, keeping the keys rising. -/
def Tab.set {α : Type} : Tab α → Nat → α → Tab α
  | [], i, x => [(i, x)]
  | (k, v) :: t, i, x =>
    if i < k then (i, x) :: (k, v) :: t
    else if i = k then (i, x) :: t
    else (k, v) :: Tab.set t i x

/-- Remove one key. -/
def Tab.erase {α : Type} : Tab α → Nat → Tab α
  | [], _ => []
  | (k, v) :: t, i => if i = k then t else (k, v) :: Tab.erase t i

/-- Change every listed value of a table. -/
def Tab.mapVal {α : Type} (f : α → α) : Tab α → Tab α
  | [] => []
  | (k, v) :: t => (k, f v) :: Tab.mapVal f t

/-- The bit field [h:l] of a natural number (R3). -/
def bitsOf (x h l : Nat) : Nat := (x / 2 ^ l) % 2 ^ (h + 1 - l)

/-- The vector whose 128 lanes are zero. -/
def Vec.zero : Vec := List.replicate 128 0#32

/-- Lane l of a vector; a lane the list does not hold is zero. -/
def Vec.lane (v : Vec) (l : Nat) : W32 := v.getD l 0#32

end Sys2Proof
end

