-- ==== Sys2Proof/Config.lean ====
section
/-!
DEFINITION. What an implementation fixes and the spec leaves open: free values, as constants without a body, and the
cryptographic functions that the spec names by their standards.
-/

namespace Sys2Proof

/-- A free value: which line an L1 miss evicts is not architectural (R293; log entry 8). -/
opaque Config.freeVictim : Nat → Nat

/-- A free value: the bytes of a saved Loom and of the other parts of a save region whose layout is not architectural (R414,
R416; log entry 27). -/
opaque Config.freeSave : Nat → Byte

/-- Ed25519 verification in pure mode, RFC 8032: key, message, signature (R463; log entry 7). -/
opaque Config.ed25519Ok : List Byte → List Byte → List Byte → Bool

/-- ML-DSA-65 verification in pure mode with an empty context string, FIPS 204 (R463; log entry 7). -/
opaque Config.mldsaOk : List Byte → List Byte → List Byte → Bool

/-- The Ed25519 signature under the device identity key (R469; log entry 7). -/
opaque Config.ed25519Sign : List Byte → List Byte

/-- The ML-DSA-65 signature under the device identity key (R469; log entry 7). -/
opaque Config.mldsaSign : List Byte → List Byte

/-- SHA-384, 48 bytes (R469; log entry 7). -/
opaque Config.sha384 : List Byte → List Byte

/-- The two identity public keys and Phoven's certificates over them, at offset 0x1100 of a report (R469; log entry 7). -/
opaque Config.identity : List Byte

/-- Phoven's two public keys of slot 0xF, fused into the part: Ed25519 and ML-DSA-65 (R463; log entry 7). -/
opaque Config.phovenEd : List Byte
opaque Config.phovenMl : List Byte

/-- Whether a flash write and its read-back succeed; the spec gives no rule for it (R468; log entry 7). -/
opaque Config.flashOk : Nat → Bool

/-- Free values: the contents of a flash copy whose writing failed (R468; log entry 7). -/
opaque Config.freeFlash : Nat → List Byte

/-- A free value: where start-up puts the tables of its identity map (R459; log entry 28). -/
opaque Config.freeMap : Nat → Nat

/-- A free value: a byte that a load or an atomic takes from a peer window while no route leads to the peer (R430, R445; log
entry 63). -/
opaque Config.freeByte : Nat → Byte

/-- Free values: the two dwords of a lend-table entry as the host reads them, for a state, a kind of borrower, a peer and a
violation count, whose layout the spec does not give (R449; log entry 29). -/
opaque Config.lendDword : Nat → Bool → Nat → Nat → Nat → W64

end Sys2Proof
end

