-- ==== Sys2Proof/Payload.lean ====
section
/-!
DEFINITION. The plain data that the part's units send one another: requests, replies, messages and records.
An event of the opcode table carries its contents in these types, so that the state's agenda can hold it.
-/

namespace Sys2Proof

/-- The predicate bits of a slot word: PE, PN and PI of R85. -/
structure Pred where
  pe : Bool := false
  pn : Bool := false
  pi : BitVec 2 := 0
  deriving DecidableEq, Repr

/-- The operations that a home slice, a serving slice or a scratchpad bank performs for a grain (R175, R182, R314). -/
inductive MemOp where
  /-- A load; the function code of major 0x0B gives size and extension (R119). -/
  | load (fn : BitVec 3)
  /-- The read of an LR, which also registers a reservation (R176). -/
  | lr
  /-- An ordinary store (R119). -/
  | store
  /-- A write of a unit or a remote agent, which sets full each whole 8-byte word that it covers (R281, R298, R438). -/
  | put
  /-- A store-conditional (R177). -/
  | sc
  /-- A fetch-and-op; the function code of major 0x16 names it (R179). -/
  | fx (fn : BitVec 4)
  | ldfe | stfe | ldff
  /-- FESET to empty or full (R182). -/
  | feset (full : Bool)
  /-- GADD under an operator tag (R187). -/
  | gadd (tag : BitVec 4)
  /-- The decrement of a join cell (R153). -/
  | join
  /-- The read of a join cell by JWAIT (R171). -/
  | jwait
  /-- The 32-byte top-K record operation (R388). -/
  | topk
  /-- The bounded increment (R387). -/
  | binc
  deriving DecidableEq, Repr

/-- A run of physical bytes that one request touches in one 128-byte line (R31, R316). -/
structure Piece where
  pa  : Nat := 0
  len : Nat := 0
  deriving DecidableEq, Repr

/-- Who takes the answer of a request: the grain whose instruction it is, its core's instruction cache (R474), or a walker with
a walk (R305). -/
inductive Via where
  | grain
  | fetch
  | walk (w no : Nat)
  /-- A peer's atomic through its window, which came by a Camsum port (R445). -/
  | port (p : Nat)
  deriving DecidableEq, Repr

/-- A memory request of a grain, of a fetch or of a walker, as it travels to the point that performs it. -/
structure Req where
  id     : Nat := 0
  who    : CtxId := 0
  op     : MemOp := .store
  /-- The pieces still to be performed, lowest address first; the head is performed next. -/
  pieces : List Piece := []
  /-- Bytes of the access already performed. -/
  done   : Nat := 0
  /-- Bytes read so far, lowest byte lowest. -/
  got    : W64 := 0
  va     : W64 := 0
  val    : W64 := 0
  cmp    : W64 := 0
  rd     : BitVec 4 := 0
  posted : Bool := false
  cls    : BitVec 4 := 0
  aq     : Bool := false
  rl     : Bool := false
  /-- Logical time of the requester's core (R330). -/
  ct     : W64 := 0
  /-- Address of the instruction, for its trap record. -/
  ia     : W64 := 0
  /-- Replay-safe request number (R412). -/
  num    : BitVec 8 := 0
  /-- The request is marked as a resend (R412). -/
  again  : Bool := false
  /-- Failed attempts so far of a full-empty form (R183). -/
  tries  : Nat := 0
  /-- The attempt that is left parked on failing (R183). -/
  last   : Bool := false
  slot   : BitVec 4 := 0
  /-- Cycle in which the instruction issued. -/
  born   : Nat := 0
  /-- Requests that a router merged into this one, in packet order (R389, R390). -/
  merged : List (Nat × CtxId × W64 × BitVec 8) := []
  /-- The later pieces of a store have been written with its first (R121, R284; log entry 58). -/
  early  : Bool := false
  /-- The context on whose behalf a message context sends the operation (R439), as an outbox entry number. -/
  remote : Option Nat := none
  /-- Who takes the answer. -/
  via    : Via := .grain
  deriving DecidableEq, Repr

/-- What the home tells the L1 of its requester about one run of bytes that it has changed: the bytes as the operation left
them, and the line's write timestamp before and after (R333). -/
structure Upd where
  pa    : Nat := 0
  bytes : List Byte := []
  base  : W64 := 0
  wts   : W64 := 0
  deriving DecidableEq, Repr

/-- What a posted request's acknowledgement carries (R123, R333). -/
structure Ack where
  wts  : W64 := 0
  /-- What the L1's copy of the line takes. -/
  upd  : Option Upd := none
  /-- It comes from a scratchpad bank or another point without timestamps (log entry 16). -/
  bank : Bool := false
  /-- It ends the whole request, whatever pieces are left: the request was refused (R475). -/
  all  : Bool := false
  deriving DecidableEq, Repr

/-- What a reply does to the general register of its instruction. -/
structure Reply where
  id   : Nat := 0
  rd   : BitVec 4 := 0
  /-- The register is written with `val`. -/
  wr   : Bool := false
  val  : W64 := 0
  /-- The program counter advances past the waiting instruction. -/
  adv  : Bool := true
  /-- Write timestamp carried by the reply (R332, R333). -/
  wts  : W64 := 0
  /-- The reply only fills the L1: it ends no wait (R124, R31). -/
  side : Bool := false
  /-- It is an acquire from a scratchpad bank or a unit, which keep no timestamps (log entry 16). -/
  bank : Bool := false
  /-- What the L1's copy of the line takes from an operation at the home (R333). -/
  upd  : Option Upd := none
  /-- Cycle in which the lease was granted, which a later drop of leases overtakes (R186, R322). -/
  served : Nat := 0
  /-- Lease granted to the L1: line, data, read timestamp (R332). -/
  fill : Option (Nat × LineData × W64) := none
  /-- Conditions counted in the grain's set, one bit per counter (R66). -/
  conds : BitVec 16 := 0
  /-- Exact trap taken in place of completion: cause, class, TVAL (R404, R475). -/
  trap : Option (BitVec 8 × BitVec 8 × W64) := none
  /-- A full-empty attempt failed and is to be sent again (R183). -/
  again : Bool := false
  /-- What waited for its translation, an access or a fetch, goes on in this cycle (R305, R474). -/
  go    : Option Bool := none
  /-- Bytes that a longer read of an external window has brought (R445). -/
  bytes : List Byte := []
  /-- The caller ends as IDLE ends it (R153). -/
  ends : Bool := false
  /-- Cycle in which an L1-miss load issued, which the monitor samples (R399). -/
  born : Option Nat := none
  /-- The request has changed something, so it can no longer be withdrawn (R475; log entry 14). -/
  did  : Bool := false
  deriving DecidableEq, Repr

/-- A spawn request (R150, R169). -/
structure SpawnReq where
  id    : Nat := 0
  /-- The spawner's 28-bit grain context number. -/
  from_ : Nat := 0
  /-- Its destination register. -/
  rd    : BitVec 4 := 0
  dom   : BitVec 16 := 0
  /-- The spawner's incarnation and the one it expects of the target. -/
  inc   : BitVec 8 := 0
  want  : BitVec 8 := 0
  /-- The target's flat core number, 24 bits (R147). -/
  core  : Nat := 0
  pc    : W64 := 0
  a1    : W64 := 0
  a2    : W64 := 0
  a3    : W64 := 0
  a4    : W64 := 0
  slot  : BitVec 4 := 0
  /-- Replay-safe number, and the mark of a resend (R412, R434). -/
  num   : BitVec 8 := 0
  again : Bool := false
  deriving DecidableEq, Repr

/-- The message of a migrating grain (R160). -/
structure MigMsg where
  lgn   : BitVec 28 := 0
  slot  : BitVec 4 := 0
  live  : BitVec 16 := 0
  pld   : Bool := false
  plr   : BitVec 4 := 0
  inc   : BitVec 8 := 0
  pc    : W64 := 0
  gsr   : BitVec 32 := 0
  tmask : BitVec 16 := 0
  regs  : List W64 := []
  deriving DecidableEq, Repr

/-- What a remote operation asks of its target core (R435 to R442). -/
inductive MsgKind where
  /-- RWR in the memory form: destination, bytes. -/
  | write (va : W64) (bytes : List Byte)
  /-- RWR in the bolt form: handle, row, offset, valid option, bytes. -/
  | bolt (h : BitVec 32) (row : Nat) (off : Nat) (valid : Bool) (bytes : List Byte)
  /-- RAMO: operation, target address, operand, compare value. -/
  | atomic (fn : BitVec 4) (va : W64) (v c : W64)
  /-- RMSG: handler, the four arguments. -/
  | active (pc : W64) (a1 a2 a3 a4 : W64)
  /-- RWAKE: the value. -/
  | wake (v : W64)
  deriving DecidableEq, Repr

/-- A remote operation on its way to its target (R429, R432). -/
structure Msg where
  id   : Nat := 0
  /-- The sender's 28-bit grain context number. -/
  src  : Nat := 0
  /-- The target's 24-bit flat core number. -/
  core : Nat := 0
  slot : BitVec 4 := 0
  cls  : BitVec 4 := 0
  rl   : Bool := false
  dom  : BitVec 16 := 0
  /-- The sender's incarnation and the one it expects of its target. -/
  inc  : BitVec 8 := 0
  want : BitVec 8 := 0
  /-- A reply is wanted in a register. -/
  wait : Bool := false
  num  : BitVec 8 := 0
  again : Bool := false
  /-- Logical time of the sender's core, within one chip (R330). -/
  ct   : W64 := 0
  kind : MsgKind := .write 0 []
  deriving DecidableEq, Repr

/-- A launch descriptor's fields (R173). -/
structure Desc where
  kind   : BitVec 4 := 0
  gpc    : Nat := 0
  wv     : Bool := false
  lnum   : BitVec 32 := 0
  entry  : W64 := 0
  wentry : W64 := 0
  x0 : Nat := 0
  y0 : Nat := 0
  wm1 : Nat := 0
  hm1 : Nat := 0
  d0 : Bool := false
  d1 : Bool := false
  c0 : Nat := 0
  nchm1 : Nat := 0
  nc : Nat := 0
  arg  : W64 := 0
  done : W64 := 0
  deriving DecidableEq, Repr

/-- Partials of one line in the accumulate state: present bits per 4-byte word, and the words (R335). -/
structure Partial where
  present : BitVec 32 := 0
  data    : LineData := 0
  deriving DecidableEq, Repr

/-- Coherence states that DATA may grant (R345). -/
inductive Grant where
  | s | e | m
  deriving DecidableEq, Repr

/-- The requesters of the directory: a slice of one die, or a host or peer port (R346, R477). -/
inductive Agent where
  | slice (die : Nat)
  | port (n : Nat)
  deriving DecidableEq, Repr

/-- The requests that open a transaction at the directory (R345, R477, R309). -/
inductive DirReq where
  | rds (a : Agent) (ct : W64)
  | rdx
  | upg
  | ajn (die : Nat) (tag : BitVec 4)
  | aev (die : Nat)
  | put (die : Nat) (rts : W64)
  | wb (data : LineData) (fe : BitVec 16) (wts rts : W64)
  | portRead (port id off len : Nat)
  | portWrite (port : Nat) (off : Nat) (bytes : List Byte) (relaxed : Bool)
  /-- The line step of a range instruction; the number names its batch (R309). -/
  | lineStep (op : BitVec 2) (covered : Bool) (batch : Nat)
  deriving DecidableEq, Repr

/-- The envelope of a message between chips: its sender's chip, domain and incarnation, the incarnation that it expects of its
target, its number, and the mark of a resend (R412, R429, R432). -/
structure Link where
  chip  : Nat := 0
  no    : Nat := 0
  dom   : BitVec 16 := 0
  inc   : BitVec 8 := 0
  want  : BitVec 8 := 0
  again : Bool := false
  deriving DecidableEq, Repr

/-- What a message to another chip says, beside remote operations and spawns. -/
inductive LinkBody where
  /-- A launch for another chip (R443). -/
  | flood (lnum : BitVec 32) (slot : BitVec 4) (d : Desc)
  /-- The report that a part of a launch has retired, or has ended otherwise; to a chip that does not own the launch, the end
  of its part (R443, R418). -/
  | report (lnum : BitVec 32) (status : BitVec 8) (info : W64)
  /-- READY 0, GO 1 or HOLD 2 of a rick, with its start (R417). -/
  | rick (lnum : BitVec 32) (what : BitVec 2) (t : W64)
  /-- A request to pre-empt the chip's part of a gang (R413). -/
  | preempt (lnum : BitVec 32)
  /-- A forwarded container, with the first loading chip and the address (R467). -/
  | forward (root : Nat) (pa : Nat) (slot : BitVec 4) (bytes : List Byte)
  /-- The lend message naming a frame, and the recall of one of its lines (R449). -/
  | lent (frame : Nat)
  | recall (line : Nat)
  /-- A status or value on its way back to a sender, by its request's number (R437); an acknowledgement of a message. -/
  | status (dst : Nat) (id : Nat) (code : BitVec 8) (val : W64)
  /-- An access through a peer window (R445); an atomic carries its context and replay-safe number (R412). -/
  | load (addr : Nat) (len : Nat) (id : Nat)
  | store (addr : Nat) (bytes : List Byte) (id : Nat)
  | atomic (who : Nat) (num : BitVec 8) (fn : BitVec 4) (addr : Nat) (v c : W64) (id : Nat)
  deriving DecidableEq, Repr

/-- What a message between the device and the outside carries, kept in the state's outboxes. -/
inductive OutMsg where
  /-- A remote operation for another chip, through a Camsum port. -/
  | remote (port : Nat) (m : Msg)
  /-- A spawn for another chip (R151). -/
  | spawn (port : Nat) (r : SpawnReq)
  /-- Any other message to another chip, through a Camsum port. -/
  | link (port chip : Nat) (l : Link) (b : LinkBody)
  /-- A sync flit with domain time, through a Camsum port (R431). -/
  | sync (port : Nat) (t : W64)
  /-- Data of a host or peer port read, which are back at the port in a cycle (R478). -/
  | portData (port id : Nat) (bytes : List Byte) (at_ : Nat)
  /-- Completion of a host or peer port write, which is back at the port in a cycle (R478). -/
  | portDone (port : Nat) (at_ : Nat)
  /-- Completer Abort (R460). -/
  | abort (port : Nat)
  /-- A read or write sent to a host window (R445). -/
  | hostLoad (port : Nat) (addr : Nat) (len : Nat) (id : Nat)
  | hostStore (port : Nat) (addr : Nat) (bytes : List Byte)
  | hostAtomic (port : Nat) (fn : BitVec 4) (addr : Nat) (v c : W64) (id : Nat)
  /-- The MSI-X message to the CXL host that names a lent frame, and the back-invalidate snoop of one of its lines (R449). -/
  | lent (frame : Nat)
  | recall (line : Nat)
  deriving DecidableEq, Repr

end Sys2Proof
end

