-- ==== Sys2Proof/Syntax.lean ====
section
/-!
DEFINITION. The instructions and events of the Ziton-2, one constructor per row of the table of operations and events.
Grain instructions carry the fields of their encoding (R72, R73); Loom slot operations carry the fields of R85 with the
lent byte joined on (R229, R230). An event carries no field of its own: its contents (Ev, in Event.lean) are what the state
hands over in its field ev.
-/

namespace Sys2Proof

/-- Everything that one step of the part can perform. -/
inductive Instr where
  /-- ADD (R99): Writes the 64-bit sum of two registers. -/
  | add (d : BitVec 4) (a : BitVec 4) (b : BitVec 4)
  /-- SUB (R99): Writes the 64-bit difference of two registers. -/
  | sub (d : BitVec 4) (a : BitVec 4) (b : BitVec 4)
  /-- ADDW (R99): Writes the sign-extended 32-bit sum. -/
  | addw (d : BitVec 4) (a : BitVec 4) (b : BitVec 4)
  /-- SUBW (R99): Writes the sign-extended 32-bit difference. -/
  | subw (d : BitVec 4) (a : BitVec 4) (b : BitVec 4)
  /-- AND (R99): Writes the bitwise AND of two registers. -/
  | and_ (d : BitVec 4) (a : BitVec 4) (b : BitVec 4)
  /-- OR (R99): Writes the bitwise OR of two registers. -/
  | or_ (d : BitVec 4) (a : BitVec 4) (b : BitVec 4)
  /-- XOR (R99): Writes the bitwise XOR of two registers. -/
  | xor_ (d : BitVec 4) (a : BitVec 4) (b : BitVec 4)
  /-- ANDN (R99): Writes a AND NOT b. -/
  | andn (d : BitVec 4) (a : BitVec 4) (b : BitVec 4)
  /-- ORN (R99): Writes a OR NOT b. -/
  | orn (d : BitVec 4) (a : BitVec 4) (b : BitVec 4)
  /-- XNOR (R99): Writes NOT (a XOR b). -/
  | xnor (d : BitVec 4) (a : BitVec 4) (b : BitVec 4)
  /-- SLL (R100): Shifts left by b[5:0]. -/
  | sll (d : BitVec 4) (a : BitVec 4) (b : BitVec 4)
  /-- SRL (R100): Shifts right logically by b[5:0]. -/
  | srl (d : BitVec 4) (a : BitVec 4) (b : BitVec 4)
  /-- SRA (R100): Shifts right arithmetically by b[5:0]. -/
  | sra (d : BitVec 4) (a : BitVec 4) (b : BitVec 4)
  /-- ROL (R99): Rotates left by b[5:0]. -/
  | rol (d : BitVec 4) (a : BitVec 4) (b : BitVec 4)
  /-- ROR (R99): Rotates right by b[5:0]. -/
  | ror (d : BitVec 4) (a : BitVec 4) (b : BitVec 4)
  /-- SLLW (R100): Shifts the low word left and sign-extends. -/
  | sllw (d : BitVec 4) (a : BitVec 4) (b : BitVec 4)
  /-- SRLW (R100): Shifts the low word right logically and sign-extends. -/
  | srlw (d : BitVec 4) (a : BitVec 4) (b : BitVec 4)
  /-- SRAW (R100): Shifts the low word right arithmetically and sign-extends. -/
  | sraw (d : BitVec 4) (a : BitVec 4) (b : BitVec 4)
  /-- MUL (R101): Writes the low 64 bits of the product. -/
  | mul (d : BitVec 4) (a : BitVec 4) (b : BitVec 4)
  /-- MULH (R101): Writes the high 64 bits of the signed product. -/
  | mulh (d : BitVec 4) (a : BitVec 4) (b : BitVec 4)
  /-- MULHU (R101): Writes the high 64 bits of the unsigned product. -/
  | mulhu (d : BitVec 4) (a : BitVec 4) (b : BitVec 4)
  /-- MULW (R101): Writes the sign-extended 32-bit product. -/
  | mulw (d : BitVec 4) (a : BitVec 4) (b : BitVec 4)
  /-- DIV (R102): Writes the signed truncated quotient, with fixed results for the boundary cases. -/
  | div (d : BitVec 4) (a : BitVec 4) (b : BitVec 4)
  /-- DIVU (R102): Writes the unsigned quotient. -/
  | divu (d : BitVec 4) (a : BitVec 4) (b : BitVec 4)
  /-- REM (R102): Writes the signed remainder. -/
  | rem (d : BitVec 4) (a : BitVec 4) (b : BitVec 4)
  /-- REMU (R102): Writes the unsigned remainder. -/
  | remu (d : BitVec 4) (a : BitVec 4) (b : BitVec 4)
  /-- ADDI (R103): Adds a sign-extended 14-bit immediate. -/
  | addi (d : BitVec 4) (a : BitVec 4) (imm : BitVec 14)
  /-- ANDI (R103): ANDs with a sign-extended immediate. -/
  | andi (d : BitVec 4) (a : BitVec 4) (imm : BitVec 14)
  /-- ORI (R103): ORs with a sign-extended immediate. -/
  | ori (d : BitVec 4) (a : BitVec 4) (imm : BitVec 14)
  /-- XORI (R103): XORs with a sign-extended immediate. -/
  | xori (d : BitVec 4) (a : BitVec 4) (imm : BitVec 14)
  /-- SLLI (R103): Shifts left by an immediate count. -/
  | slli (d : BitVec 4) (a : BitVec 4) (sh : BitVec 6)
  /-- SRLI (R103): Shifts right logically by an immediate count. -/
  | srli (d : BitVec 4) (a : BitVec 4) (sh : BitVec 6)
  /-- SRAI (R103): Shifts right arithmetically by an immediate count. -/
  | srai (d : BitVec 4) (a : BitVec 4) (sh : BitVec 6)
  /-- CLZ (R105): Counts leading zero bits. -/
  | clz (d : BitVec 4) (a : BitVec 4)
  /-- CTZ (R105): Counts trailing zero bits. -/
  | ctz (d : BitVec 4) (a : BitVec 4)
  /-- POPC (R105): Counts one bits. -/
  | popc (d : BitVec 4) (a : BitVec 4)
  /-- BREV (R105): Reverses the bit order. -/
  | brev (d : BitVec 4) (a : BitVec 4)
  /-- BSWAP (R105): Reverses the byte order. -/
  | bswap (d : BitVec 4) (a : BitVec 4)
  /-- BEXT (R106): Extracts a bit field, optionally sign-extended. -/
  | bext (d : BitVec 4) (a : BitVec 4) (b : BitVec 4)
  /-- BINS (R106): Inserts a bit field into a base value. -/
  | bins (d : BitVec 4) (a : BitVec 4) (b : BitVec 4) (c : BitVec 4)
  /-- HASH (R107): Mixes a key with a seed by a fixed bijection. -/
  | hash (d : BitVec 4) (a : BitVec 4) (b : BitVec 4)
  /-- CRC (R108): Folds 1 to 8 bytes into a CRC-32C value. -/
  | crc (d : BitVec 4) (a : BitVec 4) (b : BitVec 4) (z : BitVec 4)
  /-- SLT (R109): Sets 1 if signed less than. -/
  | slt (d : BitVec 4) (a : BitVec 4) (b : BitVec 4)
  /-- SLTU (R109): Sets 1 if unsigned less than. -/
  | sltu (d : BitVec 4) (a : BitVec 4) (b : BitVec 4)
  /-- SEQ (R109): Sets 1 if equal. -/
  | seq (d : BitVec 4) (a : BitVec 4) (b : BitVec 4)
  /-- SEL (R109): Selects one of two registers by a condition register. -/
  | sel (d : BitVec 4) (a : BitVec 4) (b : BitVec 4) (c : BitVec 4)
  /-- HSET (R110): Sets one 16-bit quarter and clears the others. -/
  | hset (d : BitVec 4) (h : BitVec 2) (imm : BitVec 16)
  /-- HINS (R110): Replaces one 16-bit quarter. -/
  | hins (d : BitVec 4) (h : BitVec 2) (imm : BitVec 16)
  /-- BEQ (R111): Branches if equal. -/
  | beq (a : BitVec 4) (b : BitVec 4) (off : BitVec 15)
  /-- BNE (R111): Branches if not equal. -/
  | bne (a : BitVec 4) (b : BitVec 4) (off : BitVec 15)
  /-- BLT (R111): Branches if signed less than. -/
  | blt (a : BitVec 4) (b : BitVec 4) (off : BitVec 15)
  /-- BGE (R111): Branches if signed greater or equal. -/
  | bge (a : BitVec 4) (b : BitVec 4) (off : BitVec 15)
  /-- BLTU (R111): Branches if unsigned less than. -/
  | bltu (a : BitVec 4) (b : BitVec 4) (off : BitVec 15)
  /-- BGEU (R111): Branches if unsigned greater or equal. -/
  | bgeu (a : BitVec 4) (b : BitVec 4) (off : BitVec 15)
  /-- JAL (R112): Marks temporaries dead, writes the link and jumps PC-relative. -/
  | jal (d : BitVec 4) (off : BitVec 22)
  /-- JALR (R113): Jumps to a register address and writes the link. -/
  | jalr (d : BitVec 4) (a : BitVec 4)
  /-- RET (R114): Marks temporaries dead and jumps to a register address. -/
  | ret (a : BitVec 4)
  /-- LB (R119): Loads a sign-extended byte. -/
  | lb (t : BitVec 4) (b : BitVec 4) (dc : Bool) (cls : BitVec 4) (off : BitVec 10)
  /-- LBU (R119): Loads a zero-extended byte. -/
  | lbu (t : BitVec 4) (b : BitVec 4) (dc : Bool) (cls : BitVec 4) (off : BitVec 10)
  /-- LH (R119): Loads a sign-extended halfword. -/
  | lh (t : BitVec 4) (b : BitVec 4) (dc : Bool) (cls : BitVec 4) (off : BitVec 10)
  /-- LHU (R119): Loads a zero-extended halfword. -/
  | lhu (t : BitVec 4) (b : BitVec 4) (dc : Bool) (cls : BitVec 4) (off : BitVec 10)
  /-- LW (R119): Loads a sign-extended word. -/
  | lw (t : BitVec 4) (b : BitVec 4) (dc : Bool) (cls : BitVec 4) (off : BitVec 10)
  /-- LWU (R119): Loads a zero-extended word. -/
  | lwu (t : BitVec 4) (b : BitVec 4) (dc : Bool) (cls : BitVec 4) (off : BitVec 10)
  /-- LD (R119): Loads a doubleword. -/
  | ld (t : BitVec 4) (b : BitVec 4) (dc : Bool) (cls : BitVec 4) (off : BitVec 10)
  /-- SB (R119): Posts a byte store. -/
  | sb (t : BitVec 4) (b : BitVec 4) (dc : Bool) (cls : BitVec 4) (off : BitVec 10)
  /-- SH (R119): Posts a halfword store. -/
  | sh (t : BitVec 4) (b : BitVec 4) (dc : Bool) (cls : BitVec 4) (off : BitVec 10)
  /-- SW (R119): Posts a word store. -/
  | sw (t : BitVec 4) (b : BitVec 4) (dc : Bool) (cls : BitVec 4) (off : BitVec 10)
  /-- SD (R119): Posts a doubleword store. -/
  | sd (t : BitVec 4) (b : BitVec 4) (dc : Bool) (cls : BitVec 4) (off : BitVec 10)
  /-- PREF (R124): Prefetches a line into the L1 or its home slice without architectural effect. -/
  | pref (l : BitVec 4) (b : BitVec 4) (dc : Bool) (cls : BitVec 4) (off : BitVec 10)
  /-- FADD (R125): FP32 addition with one rounding. -/
  | fadd (d : BitVec 4) (a : BitVec 4) (b : BitVec 4)
  /-- FSUB (R125): FP32 subtraction with one rounding. -/
  | fsub (d : BitVec 4) (a : BitVec 4) (b : BitVec 4)
  /-- FMUL (R125): FP32 multiplication with one rounding. -/
  | fmul (d : BitVec 4) (a : BitVec 4) (b : BitVec 4)
  /-- FDIV (R125): FP32 division with one rounding. -/
  | fdiv (d : BitVec 4) (a : BitVec 4) (b : BitVec 4)
  /-- FSQRT (R125): FP32 square root. -/
  | fsqrt (d : BitVec 4) (a : BitVec 4)
  /-- FMA (R126): Fused multiply-add with one rounding. -/
  | fma (d : BitVec 4) (a : BitVec 4) (b : BitVec 4) (c : BitVec 4)
  /-- FMIN (R51): FP32 minimum. -/
  | fmin (d : BitVec 4) (a : BitVec 4) (b : BitVec 4)
  /-- FMAX (R51): FP32 maximum. -/
  | fmax (d : BitVec 4) (a : BitVec 4) (b : BitVec 4)
  /-- FSGNJ (R127): Replaces the sign bit by a mode-selected sign. -/
  | fsgnj (d : BitVec 4) (a : BitVec 4) (b : BitVec 4) (m : BitVec 4)
  /-- FEQ (R128): FP32 equality compare. -/
  | feq (d : BitVec 4) (a : BitVec 4) (b : BitVec 4)
  /-- FLT (R128): FP32 less-than compare. -/
  | flt (d : BitVec 4) (a : BitVec 4) (b : BitVec 4)
  /-- FLE (R128): FP32 less-or-equal compare. -/
  | fle (d : BitVec 4) (a : BitVec 4) (b : BitVec 4)
  /-- CVTF (R130): Converts a 64-bit integer to a floating-point format. -/
  | cvtf (d : BitVec 4) (a : BitVec 4) (u : BitVec 4)
  /-- CVTI (R130): Converts FP32 to INT32 or INT8 with saturation. -/
  | cvti (d : BitVec 4) (a : BitVec 4)
  /-- NARROW (R129): Narrows FP32 to a narrow format, optionally under a block scale. -/
  | narrow (d : BitVec 4) (a : BitVec 4) (b : BitVec 4)
  /-- WIDEN (R129): Widens a narrow code to FP32. -/
  | widen (d : BitVec 4) (a : BitVec 4) (b : BitVec 4)
  /-- PACK (R131): Replaces one packed element. -/
  | pack (d : BitVec 4) (a : BitVec 4) (b : BitVec 4) (c : BitVec 4)
  /-- UNPACK (R131): Extracts one packed element. -/
  | unpack (d : BitVec 4) (a : BitVec 4) (b : BitVec 4)
  /-- MKSCL (R132): Computes an E3M5 block scale from a block maximum. -/
  | mkscl (d : BitVec 4) (a : BitVec 4)
  /-- ISECT (R133): Intersects two chunks of index lists. -/
  | isect (d : BitVec 4) (a : BitVec 4) (b : BitVec 4) (w : BitVec 4)
  /-- FMT (R80): Sets the pending format prefix. -/
  | fmt (p : BitVec 12)
  /-- NOP (R75): Does nothing but advance PC. -/
  | nop
  /-- SCALL (R135): Takes a system-call trap to the steward. -/
  | scall (a : BitVec 4)
  /-- SRET (R136): Returns from a trap to the saved resume address and privilege. -/
  | sret
  /-- TRAP (R135): Takes a program trap when the condition register is non-zero. -/
  | trap (a : BitVec 4) (b : BitVec 4)
  /-- IDLE (R137): Drains stores then ends the grain, the message, or waits for a steward event. -/
  | idle
  /-- CSRR (R138): Reads a CSR. -/
  | csrr (d : BitVec 4) (n : BitVec 12)
  /-- CSRW (R138): Writes a CSR and returns its old value. -/
  | csrw (d : BitVec 4) (a : BitVec 4) (n : BitVec 12)
  /-- CSTART (R165): Steward starts a stopped context. -/
  | cstart (d : BitVec 4) (a : BitVec 4) (b : BitVec 4) (c : BitVec 4)
  /-- CSTOP (R166): Steward stops a context after its accesses drain. -/
  | cstop (d : BitVec 4) (a : BitVec 4)
  /-- CREAP (R167): Steward reaps an ended or trapped context. -/
  | creap (d : BitVec 4) (a : BitVec 4)
  /-- SPAWN (R169): Sends a start request to a core and waits for its status. -/
  | spawn (d : BitVec 4) (a : BitVec 4) (b : BitVec 4)
  /-- RFORK (R170): Recruits free contexts of the cluster and splits a trip count. -/
  | rfork (d : BitVec 4) (a : BitVec 4) (b : BitVec 4) (c : BitVec 4)
  /-- JOIN (R171): Decrements a join cell; the last caller continues, others end. -/
  | join (a : BitVec 4)
  /-- JWAIT (R171): Waits until a join cell's count reads zero. -/
  | jwait (a : BitVec 4)
  /-- LAUNCH (R172): Reads, checks and queues a launch descriptor. -/
  | launch (d : BitVec 4) (a : BitVec 4)
  /-- LR (R176): Loads a doubleword and registers a reservation. -/
  | lr (d : BitVec 4) (a : BitVec 4) (aq : Bool) (rl : Bool) (dc : Bool) (cls : BitVec 4)
  /-- SC (R177): Stores if the reservation holds and reports success. -/
  | sc (d : BitVec 4) (a : BitVec 4) (b : BitVec 4) (aq : Bool) (rl : Bool) (dc : Bool) (cls : BitVec 4)
  /-- FXSWP (R179): Atomic swap. -/
  | fxswp (d : BitVec 4) (a : BitVec 4) (b : BitVec 4) (aq : Bool) (rl : Bool) (dc : Bool) (cls : BitVec 4)
  /-- FXADD (R179): Atomic add. -/
  | fxadd (d : BitVec 4) (a : BitVec 4) (b : BitVec 4) (aq : Bool) (rl : Bool) (dc : Bool) (cls : BitVec 4)
  /-- FXAND (R179): Atomic AND. -/
  | fxand (d : BitVec 4) (a : BitVec 4) (b : BitVec 4) (aq : Bool) (rl : Bool) (dc : Bool) (cls : BitVec 4)
  /-- FXOR (R179): Atomic OR. -/
  | fxor (d : BitVec 4) (a : BitVec 4) (b : BitVec 4) (aq : Bool) (rl : Bool) (dc : Bool) (cls : BitVec 4)
  /-- FXXOR (R179): Atomic XOR. -/
  | fxxor (d : BitVec 4) (a : BitVec 4) (b : BitVec 4) (aq : Bool) (rl : Bool) (dc : Bool) (cls : BitVec 4)
  /-- FXMIN (R179): Atomic signed minimum. -/
  | fxmin (d : BitVec 4) (a : BitVec 4) (b : BitVec 4) (aq : Bool) (rl : Bool) (dc : Bool) (cls : BitVec 4)
  /-- FXMAX (R179): Atomic signed maximum. -/
  | fxmax (d : BitVec 4) (a : BitVec 4) (b : BitVec 4) (aq : Bool) (rl : Bool) (dc : Bool) (cls : BitVec 4)
  /-- FXMINU (R179): Atomic unsigned minimum. -/
  | fxminu (d : BitVec 4) (a : BitVec 4) (b : BitVec 4) (aq : Bool) (rl : Bool) (dc : Bool) (cls : BitVec 4)
  /-- FXMAXU (R179): Atomic unsigned maximum. -/
  | fxmaxu (d : BitVec 4) (a : BitVec 4) (b : BitVec 4) (aq : Bool) (rl : Bool) (dc : Bool) (cls : BitVec 4)
  /-- FXCAS (R179): Atomic compare-and-swap. -/
  | fxcas (d : BitVec 4) (a : BitVec 4) (b : BitVec 4) (aq : Bool) (rl : Bool) (dc : Bool) (cls : BitVec 4)
  /-- AMOFADD (R179): Atomic FP32 add under RNE. -/
  | amofadd (d : BitVec 4) (a : BitVec 4) (b : BitVec 4) (aq : Bool) (rl : Bool) (dc : Bool) (cls : BitVec 4)
  /-- WRS (R181): Parks the grain until its reservation is lost. -/
  | wrs
  /-- LDFE (R182): Loads a full word and makes it empty, retrying or parking otherwise. -/
  | ldfe (t : BitVec 4) (b : BitVec 4) (dc : Bool) (cls : BitVec 4) (off : BitVec 10)
  /-- STFE (R182): Stores to an empty word and makes it full. -/
  | stfe (t : BitVec 4) (b : BitVec 4) (dc : Bool) (cls : BitVec 4) (off : BitVec 10)
  /-- LDFF (R182): Loads a full word and leaves it full. -/
  | ldff (t : BitVec 4) (b : BitVec 4) (dc : Bool) (cls : BitVec 4) (off : BitVec 10)
  /-- FESET (R182): Sets a word's full-empty bit. -/
  | feset (l : BitVec 4) (b : BitVec 4) (dc : Bool) (cls : BitVec 4) (off : BitVec 10)
  /-- FENCE (R185): Orders accesses of named kinds and classes at a scope. -/
  | fence (scope : BitVec 3) (kind : BitVec 4) (mask : BitVec 16)
  /-- GADD (R188): Combines a value into an L1 partial in the accumulate state. -/
  | gadd (a : BitVec 4) (b : BitVec 4) (t : BitVec 4) (rl : Bool) (dc : Bool) (cls : BitVec 4)
  /-- BARC (R189): Cluster barrier of the sheaf. -/
  | barc (d : BitVec 4) (a : BitVec 4)
  /-- BARW (R189): Wire barrier of the stook. -/
  | barw (d : BitVec 4) (a : BitVec 4)
  /-- MIGR (R193): Moves the grain to the quad of an address's home. -/
  | migr (d : BitVec 4) (a : BitVec 4)
  /-- BOPEN (R287): Opens a bolt in the cluster pool. -/
  | bopen (d : BitVec 4) (a : BitVec 4) (b : BitVec 4) (c : BitVec 4)
  /-- BVALID (R288): Marks rows of an open input bolt valid. -/
  | bvalid (d : BitVec 4) (a : BitVec 4) (b : BitVec 4)
  /-- SEAL (R284): Seals a bolt as a release. -/
  | sealBolt (d : BitVec 4) (a : BitVec 4)
  /-- BQUERY_STATUS (R289): Returns a bolt's state word (selector 0). -/
  | bqueryStatus (d : BitVec 4) (a : BitVec 4)
  /-- BQUERY_MASK_LOW (R289): Returns the row-valid mask of rows 0 to 63 (selector 1). -/
  | bqueryMaskLow (d : BitVec 4) (a : BitVec 4)
  /-- BQUERY_MASK_HIGH (R289): Returns the row-valid mask of rows 64 to 127 (selector 2). -/
  | bqueryMaskHigh (d : BitVec 4) (a : BitVec 4)
  /-- BABORT (R288): Frees an unsealed input bolt or a DONE output bolt. -/
  | babort (d : BitVec 4) (a : BitVec 4)
  /-- BWAIT (R288): Parks until a bolt handle is stale. -/
  | bwait (d : BitVec 4) (a : BitVec 4)
  /-- BTIME (R288): Sets an open bolt's remaining timer count. -/
  | btime (d : BitVec 4) (a : BitVec 4) (b : BitVec 4)
  /-- CFLUSH (R309): Merges and writes back every line of a range. -/
  | cflush (d : BitVec 4) (a : BitVec 4) (b : BitVec 4)
  /-- CINV (R309): Writes back and invalidates every line of a range. -/
  | cinv (d : BitVec 4) (a : BitVec 4) (b : BitVec 4)
  /-- CDISC (R309): Discards covered lines of a range without write-back. -/
  | cdisc (d : BitVec 4) (a : BitVec 4) (b : BitVec 4)
  /-- TLBINV (R311): Removes TLB entries of a slot within a scope. -/
  | tlbinv (d : BitVec 4) (a : BitVec 4) (b : BitVec 4)
  /-- ATRANS (R312): Translates an address and reports the result. -/
  | atrans (d : BitVec 4) (a : BitVec 4) (b : BitVec 4)
  /-- EJOB (R363): Submits a job card to the scheduler. -/
  | ejob (d : BitVec 4) (a : BitVec 4)
  /-- EWAIT_WAIT (R364): Waits until a job retires and returns its code. -/
  | ewaitWait (d : BitVec 4) (a : BitVec 4)
  /-- EWAIT_POLL (R364): Returns a job's code or PENDING without waiting. -/
  | ewaitPoll (d : BitVec 4) (a : BitVec 4)
  /-- ECPY (R367): Issues a short asynchronous copy into scratchpad. -/
  | ecpy (d : BitVec 4) (a : BitVec 4) (b : BitVec 4) (c : BitVec 4)
  /-- GLEAN_OPEN (R375): Binds a batch to the current generation and starts its prefetch. -/
  | gleanOpen (d : BitVec 4) (a : BitVec 4) (b : BitVec 4)
  /-- GLEAN_CLOSE (R375): Closes an open batch. -/
  | gleanClose (d : BitVec 4) (a : BitVec 4) (b : BitVec 4)
  /-- GLEAN_FLIP (R375): Advances the table generation if the other parity has no open batch. -/
  | gleanFlip (d : BitVec 4) (a : BitVec 4) (b : BitVec 4)
  /-- GLEAN_QUERY (R375): Returns descriptor dword 5. -/
  | gleanQuery (d : BitVec 4) (a : BitVec 4) (b : BitVec 4)
  /-- TGSUB (R380): Submits a task node with predecessors and cost. -/
  | tgsub (d : BitVec 4) (a : BitVec 4) (b : BitVec 4) (c : BitVec 4)
  /-- TGNEXT (R381): Takes the ready node with the greatest remaining path. -/
  | tgnext (d : BitVec 4)
  /-- TGDONE (R382): Completes a running node and readies its successors. -/
  | tgdone (d : BitVec 4) (a : BitVec 4) (b : BitVec 4)
  /-- TGDONE_REQUEUE (R382): Returns a running node to READY when REQUEUE is set. -/
  | tgdoneRequeue (d : BitVec 4) (a : BitVec 4) (b : BitVec 4)
  /-- WBIND (R393): Binds a free Winnow unit to the job slot. -/
  | wbind (d : BitVec 4) (a : BitVec 4) (b : BitVec 4)
  /-- WBIND_UNBIND (R393): Frees an empty Winnow unit when gO[0] is 1. -/
  | wbindUnbind (d : BitVec 4) (a : BitVec 4) (b : BitVec 4)
  /-- WPUSH (R394): Appends a constraint record to the window. -/
  | wpush (d : BitVec 4) (a : BitVec 4) (b : BitVec 4) (dc : Bool) (cls : BitVec 4)
  /-- WPULL (R396): Forms a group of body-disjoint constraints. -/
  | wpull (d : BitVec 4) (a : BitVec 4) (b : BitVec 4) (dc : Bool) (cls : BitVec 4)
  /-- WDONE (R397): Retires issued constraints and frees their bodies. -/
  | wdone (d : BitVec 4) (a : BitVec 4) (b : BitVec 4)
  /-- AMOTOPK (R388): Inserts a scored pair into a top-K record. -/
  | amotopk (d : BitVec 4) (a : BitVec 4) (b : BitVec 4) (aq : Bool) (rl : Bool) (dc : Bool) (cls : BitVec 4)
  /-- AMOBINC (R387): Increments a word if below a bound. -/
  | amobinc (d : BitVec 4) (a : BitVec 4) (b : BitVec 4) (aq : Bool) (rl : Bool) (dc : Bool) (cls : BitVec 4)
  /-- MSAMP (R400): Gives one sample to the monitor unit. -/
  | msamp (d : BitVec 4) (a : BitVec 4)
  /-- RWR (R438): Sends a remote write to memory or a bolt. -/
  | rwr (d : BitVec 4) (a : BitVec 4) (b : BitVec 4) (c : BitVec 4)
  /-- RAMO (R439): Sends a remote fetch-and-op. -/
  | ramo (d : BitVec 4) (a : BitVec 4) (b : BitVec 4) (c : BitVec 4)
  /-- RMSG (R440): Sends an active message. -/
  | rmsg (d : BitVec 4) (a : BitVec 4) (c : BitVec 4)
  /-- RWAKE (R442): Delivers a wake value to a steward. -/
  | rwake (d : BitVec 4) (a : BitVec 4) (c : BitVec 4)
  /-- RLEND_LEND (R449): Lends a frame to the host or a peer. -/
  | rlendLend (d : BitVec 4) (a : BitVec 4) (b : BitVec 4)
  /-- RLEND_RECALL (R449): Recalls a lent frame. -/
  | rlendRecall (d : BitVec 4) (a : BitVec 4) (b : BitVec 4)
  /-- RLEND_QUERY (R448): Returns a frame's lend state and borrower. -/
  | rlendQuery (d : BitVec 4) (a : BitVec 4) (b : BitVec 4)
  /-- CKPT_ARM (R419): Arms Loom checkpointing with a rollback point. -/
  | ckptArm (d : BitVec 4) (a : BitVec 4)
  /-- CKPT_DISARM (R419): Commits and disarms Loom checkpointing. -/
  | ckptDisarm (d : BitVec 4) (a : BitVec 4)
  /-- CKPT_QUERY (R419): Returns the checkpoint state and rollback count. -/
  | ckptQuery (d : BitVec 4) (a : BitVec 4)
  /-- TWIL_COUPLE (R422): Couples a context of two cores as a twill pair. -/
  | twilCouple (d : BitVec 4) (a : BitVec 4)
  /-- TWIL_UNCOUPLE (R422): Uncouples a twill pair. -/
  | twilUncouple (d : BitVec 4) (a : BitVec 4)
  /-- FREC_RESUME (R408): Resumes the oldest trapped context at TEPC. -/
  | frecResume (d : BitVec 4) (a : BitVec 4) (b : BitVec 4)
  /-- FREC_SKIP (R408): Resumes the oldest trapped context after the trapping instruction. -/
  | frecSkip (d : BitVec 4) (a : BitVec 4) (b : BitVec 4)
  /-- FREC_GOTO (R408): Resumes the oldest trapped context at a given address. -/
  | frecGoto (d : BitVec 4) (a : BitVec 4) (b : BitVec 4)
  /-- FREC_SAVE (R408): Stops a context and writes its context record. -/
  | frecSave (d : BitVec 4) (a : BitVec 4) (b : BitVec 4)
  /-- FREC_LOAD (R408): Loads a stopped context from a context record. -/
  | frecLoad (d : BitVec 4) (a : BitVec 4) (b : BitVec 4)
  /-- FREC_LRESUME (R411): Resumes the trapped Loom with its replay bundles. -/
  | frecLresume (d : BitVec 4) (a : BitVec 4) (b : BitVec 4)
  /-- FREC_LDROP (R408): Resumes the trapped Loom dropping unperformed replay slots. -/
  | frecLdrop (d : BitVec 4) (a : BitVec 4) (b : BitVec 4)
  /-- FREC_LEND (R408): Ends the trapped Loom's weave as SHALT does. -/
  | frecLend (d : BitVec 4) (a : BitVec 4) (b : BitVec 4)
  /-- FREC_LRING (R410): Returns one bundle ring entry. -/
  | frecLring (d : BitVec 4) (a : BitVec 4) (b : BitVec 4)
  /-- FREC_GPRE (R408): Requests pre-emption of every gang with a member on the cluster. -/
  | frecGpre (d : BitVec 4) (a : BitVec 4) (b : BitVec 4)
  /-- FREC_GREST (R408): Requests restore of the gangs saved by the last GPRE. -/
  | frecGrest (d : BitVec 4) (a : BitVec 4) (b : BitVec 4)
  /-- SADD (R234): Scalar 32-bit add. -/
  | sadd (p : Pred) (d : BitVec 5) (a : BitVec 5) (b : BitVec 5)
  /-- SSUB (R234): Scalar subtract. -/
  | ssub (p : Pred) (d : BitVec 5) (a : BitVec 5) (b : BitVec 5)
  /-- SAND (R234): Scalar AND. -/
  | sand (p : Pred) (d : BitVec 5) (a : BitVec 5) (b : BitVec 5)
  /-- SOR (R234): Scalar OR. -/
  | sor (p : Pred) (d : BitVec 5) (a : BitVec 5) (b : BitVec 5)
  /-- SSLL (R234): Scalar shift left. -/
  | ssll (p : Pred) (d : BitVec 5) (a : BitVec 5) (b : BitVec 5)
  /-- SSRL (R234): Scalar logical shift right. -/
  | ssrl (p : Pred) (d : BitVec 5) (a : BitVec 5) (b : BitVec 5)
  /-- SMUL (R234): Scalar multiply, latency 3. -/
  | smul (p : Pred) (d : BitVec 5) (a : BitVec 5) (b : BitVec 5)
  /-- SCMP (R235): Compares scalars into a predicate. -/
  | scmp (p : Pred) (n : BitVec 2) (cc : BitVec 3) (a : BitVec 5) (b : BitVec 5)
  /-- SADDI (R236): Scalar add immediate. -/
  | saddi (p : Pred) (d : BitVec 5) (a : BitVec 5) (imm : BitVec 13)
  /-- SMOVI (R236): Scalar move immediate. -/
  | smovi (p : Pred) (d : BitVec 5) (imm : BitVec 18)
  /-- SBR (R237): Branch with one delay bundle. -/
  | sbr (p : Pred) (t : BitVec 12)
  /-- SLOOP (R237): Decrements a counter and branches while non-zero. -/
  | sloop (p : Pred) (d : BitVec 5) (t : BitVec 12)
  /-- SNOP (R77): S-slot no operation. -/
  | snop (p : Pred)
  /-- SNEXT (R238): Pops a bolt handle from the bolt queue, waiting if empty. -/
  | snext (p : Pred) (d : BitVec 5)
  /-- SREL (R240): Ends the weave's hold of a bolt. -/
  | srel (p : Pred) (a : BitVec 5)
  /-- SCKPT (R241): Commits the previous checkpoint and records a rollback point. -/
  | sckpt (p : Pred)
  /-- SRSR (R242): Reads LSR into a scalar register. -/
  | srsr (p : Pred) (d : BitVec 5) (b : BitVec 5)
  /-- SHALT (R243): Ends the weave. -/
  | shalt (p : Pred)
  /-- VADD (R245): Lane integer add. -/
  | vadd (p : Pred) (d : BitVec 5) (a : BitVec 5) (b : BitVec 5) (fwd : Bool)
  /-- VSUB (R245): Lane integer subtract. -/
  | vsub (p : Pred) (d : BitVec 5) (a : BitVec 5) (b : BitVec 5) (fwd : Bool)
  /-- VAND (R245): Lane AND. -/
  | vand (p : Pred) (d : BitVec 5) (a : BitVec 5) (b : BitVec 5) (fwd : Bool)
  /-- VOR (R245): Lane OR. -/
  | vor (p : Pred) (d : BitVec 5) (a : BitVec 5) (b : BitVec 5) (fwd : Bool)
  /-- VXOR (R245): Lane XOR. -/
  | vxor (p : Pred) (d : BitVec 5) (a : BitVec 5) (b : BitVec 5) (fwd : Bool)
  /-- VSLL (R245): Lane shift left. -/
  | vsll (p : Pred) (d : BitVec 5) (a : BitVec 5) (b : BitVec 5) (fwd : Bool)
  /-- VSRA (R245): Lane arithmetic shift right. -/
  | vsra (p : Pred) (d : BitVec 5) (a : BitVec 5) (b : BitVec 5) (fwd : Bool)
  /-- VFADD (R246): Lane FP32 add. -/
  | vfadd (p : Pred) (d : BitVec 5) (a : BitVec 5) (b : BitVec 5) (fwd : Bool) (lend : BitVec 8)
  /-- VFMUL (R246): Lane FP32 multiply. -/
  | vfmul (p : Pred) (d : BitVec 5) (a : BitVec 5) (b : BitVec 5) (fwd : Bool) (lend : BitVec 8)
  /-- VFMA (R247): Lane fused multiply-add. -/
  | vfma (p : Pred) (d : BitVec 5) (a : BitVec 5) (b : BitVec 5) (fwd : Bool) (lend : BitVec 8)
  /-- VFMAX (R246): Lane FP32 maximum. -/
  | vfmax (p : Pred) (d : BitVec 5) (a : BitVec 5) (b : BitVec 5) (fwd : Bool) (lend : BitVec 8)
  /-- VFMIN (R246): Lane FP32 minimum. -/
  | vfmin (p : Pred) (d : BitVec 5) (a : BitVec 5) (b : BitVec 5) (fwd : Bool) (lend : BitVec 8)
  /-- VNRW (R248): Lane narrowing conversion. -/
  | vnrw (p : Pred) (d : BitVec 5) (a : BitVec 5) (b : BitVec 5) (lend : BitVec 8)
  /-- VWID (R248): Lane widening conversion. -/
  | vwid (p : Pred) (d : BitVec 5) (a : BitVec 5) (b : BitVec 5) (lend : BitVec 8)
  /-- VRSUM (R249): Cross-lane sum by the fixed tree. -/
  | vrsum (p : Pred) (d : BitVec 5) (a : BitVec 5)
  /-- VRMAX (R249): Cross-lane maximum by the fixed tree. -/
  | vrmax (p : Pred) (d : BitVec 5) (a : BitVec 5)
  /-- VMOV (R250): Copies a vector, pushing sq when named. -/
  | vmov (p : Pred) (d : BitVec 5) (a : BitVec 5) (fwd : Bool)
  /-- VMRD (R251): Reads a drain-rank row. -/
  | vmrd (p : Pred) (d : BitVec 5) (row : BitVec 7)
  /-- VMASK (R252): Compares lanes into a lane mask. -/
  | vmask (p : Pred) (n : BitVec 2) (cc : BitVec 3) (a : BitVec 5) (b : BitVec 5)
  /-- VNOP (R77): V-slot no operation. -/
  | vnop (p : Pred)
  /-- VFMT (R82): Sets the pending V-slot prefix. -/
  | vfmt (payload : BitVec 12)
  /-- MBUB (R77): Injects a bubble wavefront. -/
  | mbub (p : Pred)
  /-- MPUSH (R253): Injects an accumulate wavefront. -/
  | mpush (p : Pred) (step : BitVec 5) (a : BitVec 5) (b : BitVec 5)
  /-- MZPUSH (R253): Injects a zero-then-accumulate wavefront. -/
  | mzpush (p : Pred) (step : BitVec 5) (a : BitVec 5) (b : BitVec 5)
  /-- MDRAIN (R255): Injects a drain wavefront. -/
  | mdrain (p : Pred) (a : BitVec 5) (b : BitVec 5)
  /-- MSET (R256): Sets an M register to an immediate. -/
  | mset (p : Pred) (d : BitVec 5) (imm : BitVec 18)
  /-- MADD (R256): Adds an immediate to an M register. -/
  | madd (p : Pred) (d : BitVec 5) (a : BitVec 5) (imm : BitVec 13)
  /-- MFMT (R82): Sets the pending M-slot prefix. -/
  | mfmt (payload : BitVec 12)
  /-- XRQ (R257): Requests a bolt row for a load-data queue. -/
  | xrq (p : Pred) (flags : BitVec 5) (a : BitVec 5) (b : BitVec 5)
  /-- XWR (R260): Writes a store-data entry to an output bolt row. -/
  | xwr (p : Pred) (flags : BitVec 5) (a : BitVec 5) (b : BitVec 5)
  /-- XBRD (R262): Requests a B-store row for a load-data queue. -/
  | xbrd (p : Pred) (flags : BitVec 5) (b : BitVec 5)
  /-- XBWR (R263): Writes a store-data entry to a B-store row. -/
  | xbwr (p : Pred) (flags : BitVec 5) (b : BitVec 5)
  /-- XBLD (R264): Copies every row of an input bolt into the B-store. -/
  | xbld (p : Pred) (a : BitVec 5) (b : BitVec 5)
  /-- XCPY (R266): Copies a value between register files. -/
  | xcpy (p : Pred) (d : BitVec 5) (a : BitVec 5) (b : BitVec 5) (lend : BitVec 8)
  /-- XNOP (R77): X-slot no operation. -/
  | xnop (p : Pred)
  /-- XSET (R267): Adds an immediate into an X register. -/
  | xset (p : Pred) (d : BitVec 5) (a : BitVec 5) (imm : BitVec 13)
  /-- BUNDLE_DISPATCH (R196): The Loom dispatches one bundle, or waits on the bolt queue, a link or a freeze. -/
  | bundleDispatch
  /-- LOOM_RESULT_LANDS (R206): A slot result lands at the end of its Loom time. -/
  | loomResultLands
  /-- QUEUE_ROW_PLACED (R209): A requested row is placed in its load-data queue. -/
  | queueRowPlaced
  /-- ARRAY_BEAT (R214): Each cell processes the wavefront reaching its column. -/
  | arrayBeat
  /-- DRAIN_COLUMN_WRITE (R220): A drained column is scaled and written to the drain rank. -/
  | drainColumnWrite
  /-- BSTORE_WRITE_LANDS (R224): A B-store entry write lands at the end of a beat. -/
  | bstoreWriteLands
  /-- LATE_FAULT_FREEZE (R411): A late V or M fault freezes the Loom two bundles later with replay entries. -/
  | lateFaultFreeze
  /-- SHALT_STOP (R243): The Loom stops once everything in flight has landed. -/
  | shaltStop
  /-- REPLY_ARRIVAL (R142): A reply reaches the core and its context rejoins the rotation. -/
  | replyArrival
  /-- STORE_ACKNOWLEDGEMENT (R123): A store acknowledgement lowers the context's unacknowledged-store count. -/
  | storeAcknowledgement
  /-- LATE_REFUSAL (R475): A refusal of a posted write reaches the core and the grain takes a late trap. -/
  | lateRefusal
  /-- TRAP_ENTRY (R407): The steward enters its trap entry for an own trap or a pending event. -/
  | trapEntry
  /-- FETCH_MISS_FILL (R474): An instruction-cache line arrives and the context rejoins. -/
  | fetchMissFill
  /-- SPAWN_ARRIVAL (R151): A spawn request reaches its target core and starts a context or is refused. -/
  | spawnArrival
  /-- RFORK_RESUME (R152): The forker resumes 24 cycles after RFORK issued. -/
  | rforkResume
  /-- MIGRATION_GRANT (R160): The home's mesh stop grants a context or refuses. -/
  | migrationGrant
  /-- MIGRATION_ACCEPT (R160): The migration message is accepted at the destination. -/
  | migrationAccept
  /-- MIGRATED_REPLY (R161): A reply for a migrated load reaches the old core and is held, forwarded or dropped. -/
  | migratedReply
  /-- FORWARD_ENTRY_LAPSE (R161): A forwarding entry lapses after 1024 cycles and a reissue notice is sent. -/
  | forwardEntryLapse
  /-- RESERVATION_REGISTER (R178): A waiting LR is registered when an older reservation ages or ends. -/
  | reservationRegister
  /-- HOME_STORE (R333): A store or atomic is performed at the home slice with timestamps. -/
  | homeStore
  /-- SERVING_SLICE_LOAD (R332): An L1 miss is served by the serving slice with a lease. -/
  | servingSliceLoad
  /-- FULL_EMPTY_AT_HOME (R182): A full-empty form is attempted at its home or bank. -/
  | fullEmptyAtHome
  /-- FULL_EMPTY_RESEND (R183): An attempt refused by a full park table is resent every 256 cycles. -/
  | fullEmptyResend
  /-- BANK_ACCESS (R291): A scratchpad bank performs one access per cycle. -/
  | bankAccess
  /-- JWAIT_WAKE (R171): The bank replies to a parked JWAIT after COUNT becomes zero. -/
  | jwaitWake
  /-- BARRIER_ARRIVAL (R189): A participant arrives once its stores have drained. -/
  | barrierArrival
  /-- BARC_DONE (R190): A cluster barrier episode completes and releases its participants. -/
  | barcDone
  /-- BARW_TAP_RISE (R190): A cluster raises its barrier wire tap. -/
  | barwTapRise
  /-- BARW_DONE (R190): A wire barrier signals done to every cluster of the stook. -/
  | barwDone
  /-- BARRIER_TIMEOUT (R191): A participant's BTMO expires and it leaves with TIMEOUT. -/
  | barrierTimeout
  /-- GANG_ADMISSION (R154): A gang's member contexts and Looms are reserved Held. -/
  | gangAdmission
  /-- SHEAF_RELEASE (R154): An admitted sheaf is released at a multiple of 16. -/
  | sheafRelease
  /-- STOOK_RELEASE (R154): A stook is released after every cluster has reported ready. -/
  | stookRelease
  /-- RICK_READY (R417): A chip reports READY once all its rick members are Held. -/
  | rickReady
  /-- RICK_GO (R417): The leader's GO fixes the rick's start time. -/
  | rickGo
  /-- RICK_HOLD (R417): The leader's HOLD keeps members Held and proposes a later start. -/
  | rickHold
  /-- RICK_GUARD_EXPIRY (R417): The leader finds a READY missing at S minus GUARD. -/
  | rickGuardExpiry
  /-- RICK_RELEASE (R417): Every chip releases its rick members at the agreed time. -/
  | rickRelease
  /-- GANG_RETIRE (R155): A unit retires when all its members have ended. -/
  | gangRetire
  /-- COMPLETION_RECORD_WRITE (R174): The queuing die writes a launch's completion record. -/
  | completionRecordWrite
  /-- WAKE_FLOOD_ARRIVAL (R443): A wake message carrying a launch reaches a chip or cluster. -/
  | wakeFloodArrival
  /-- CHIP_PART_REPORT (R443): A chip reports the retirement of its part of a launch. -/
  | chipPartReport
  /-- PREEMPT_REQUEST_ARRIVAL (R413): A pre-emption request reaches a cluster of a gang. -/
  | preemptRequestArrival
  /-- GANG_STOP (R413): A gang is stopped when every member is at a boundary and Looms are snapshotted. -/
  | gangStop
  /-- CLUSTER_SAVE (R416): A cluster is written to its save region after its copies retire. -/
  | clusterSave
  /-- CLUSTER_RESTORE (R416): A saved cluster is written back and its gang resumes. -/
  | clusterRestore
  /-- WATCHDOG_WAIT_EXPIRY (R415): WDOG.WAIT expires and the waiting context takes WATCHDOG. -/
  | watchdogWaitExpiry
  /-- WATCHDOG_PRE_EXPIRY (R415): WDOG.PRE expires and members not at a boundary are killed. -/
  | watchdogPreExpiry
  /-- GANG_END (R418): A job slot or gang is ended and its contexts, weaves and jobs stopped. -/
  | gangEnd
  /-- CORRECTABLE_ERROR_CORE (R421): A correctable core error freezes the core for 64 cycles. -/
  | correctableErrorCore
  /-- CORE_FREEZE_END (R421): A core freeze ends 64 cycles after the last detection. -/
  | coreFreezeEnd
  /-- CORRECTABLE_ERROR_LOOM (R421): A correctable Loom error freezes the Loom for 64 cycles. -/
  | correctableErrorLoom
  /-- LOOM_FREEZE_END (R421): A Loom freeze ends after 64 cycles. -/
  | loomFreezeEnd
  /-- DATA_ERROR (R420): A detected data error faults the Loom or starts a rollback. -/
  | dataError
  /-- ROLLBACK_OUTCOME (R420): After two reruns the Loom commits or is retired. -/
  | rollbackOutcome
  /-- TWILL_COMPARE (R423): The twin requests of a twill pair are compared and sent once or trapped. -/
  | twillCompare
  /-- TWILL_TIMEOUT (R423): A twin request fails to arrive within 16 cycles. -/
  | twillTimeout
  /-- CT_TICK (R331): Every 256 cycles each core's logical time rises by 1. -/
  | ctTick
  /-- BOLT_TIMER_EXPIRY (R278): An open bolt's timer expires and seals it. -/
  | boltTimerExpiry
  /-- PRESSURE_SEAL (R279): Every 64 cycles a waiting BOPEN force-seals the oldest open bolt. -/
  | pressureSeal
  /-- BOPEN_SERVE (R279): A waiting BOPEN is served as entries and pages free. -/
  | bopenServe
  /-- BOLT_POST (R280): An unposted sealed bolt is posted when a queue place frees. -/
  | boltPost
  /-- ACCUM_JOIN (R335): A serving slice takes an L1 join under a tag. -/
  | accumJoin
  /-- ACCUM_GRANT (R335): A join grant puts the L1 line in the accumulate state. -/
  | accumGrant
  /-- PARTIAL_EVICT (R337): An L1 evicts a line in A and sends its partials to SP. -/
  | partialEvict
  /-- CORE_RECALL (R338): A recalled core returns its partials or NONE. -/
  | coreRecall
  /-- SLICE_ATOMIC_OP (R386): The slice atomic unit performs one operation per cycle. -/
  | sliceAtomicOp
  /-- ROUTER_MERGE (R389): A router merges two posted commutative requests. -/
  | routerMerge
  /-- RDS (R347): Read-shared request at the directory. -/
  | rds
  /-- RDX (R347): Read-exclusive request at the directory. -/
  | rdx
  /-- UPG (R349): Upgrade request at the directory. -/
  | upg
  /-- AJN (R347): Accumulate join request at the directory. -/
  | ajn
  /-- AEV (R336): Request to merge a pinned line to free a way. -/
  | aev
  /-- PUT (R347): Clean eviction at the directory. -/
  | putMsg
  /-- WB (R349): Dirty eviction at the directory, absorbed if crossing a forward. -/
  | wb
  /-- DATA (R348): A fill arrives at a slice. -/
  | dataMsg
  /-- GNT (R348): An upgrade grant arrives at h. -/
  | gnt
  /-- AGNT (R335): An accumulate grant arrives at a slice. -/
  | agnt
  /-- FWS (R348): h is told to send the line to p as shared. -/
  | fws
  /-- FWB (R348): h is told to write back and invalidate. -/
  | fwb
  /-- FACK (R347): h's answer to a forward reaches the directory. -/
  | fack
  /-- INV (R348): A slice invalidates an S copy. -/
  | invMsg
  /-- IACK (R350): An invalidation acknowledgement reaches the directory with its RTS. -/
  | iack
  /-- RCL (R338): A slice receives a recall of partials. -/
  | rcl
  /-- PLIST (R338): Recalled partials reach the directory. -/
  | plist
  /-- MRG (R456): The home slice folds the partials and holds M. -/
  | mrg
  /-- WBACK (R348): An eviction-complete message ends MI_W or SI_P. -/
  | wback
  /-- CMP (R346): Transaction complete; the directory starts the next waiting request. -/
  | cmp
  /-- HOST_PORT_READ (R477): A host or peer port read at the directory. -/
  | hostPortRead
  /-- HOST_PORT_WRITE (R477): A host or peer port write at the directory. -/
  | hostPortWrite
  /-- HOST_SCRATCHPAD_ACCESS (R478): A window B access reaches a scratchpad bank. -/
  | hostScratchpadAccess
  /-- WALK_REQUEST (R305): A walk request reaches its walker and joins, starts or queues. -/
  | walkRequest
  /-- WALK_COMPLETE (R305): A walk completes and installs its result in the TLBs. -/
  | walkComplete
  /-- WALK_RESEND (R305): A walk refused by a full queue is resent every 256 cycles. -/
  | walkResend
  /-- JOB_ACCEPT (R360): The scheduler accepts a submitted job. -/
  | jobAccept
  /-- ENGINE_REQUEST (R361): The copy and gather engine issues one request per cycle. -/
  | engineRequest
  /-- JOB_RETIRE (R359): A job retires and writes its status record. -/
  | jobRetire
  /-- ECPY_RETIRE (R367): A short copy retires, freeing its scoreboard entry. -/
  | ecpyRetire
  /-- WALK_BLOCK (R369): The block sequencer reads an entry and loads, opens, gathers and seals a block. -/
  | walkBlock
  /-- WALK_B_TILE_WAIT_END (R369): Step W ends when the walk's earlier bolts are released. -/
  | walkBTileWaitEnd
  /-- WALK_OPEN_SERVED (R369): Step O's opening is served after waiting for pool room. -/
  | walkOpenServed
  /-- GLEAN_PREFETCH_ROW (R376): The Gleaner fetches one row of an open batch per cycle. -/
  | gleanPrefetchRow
  /-- MESSAGE_TAKE (R145): Context 15 takes the oldest message of its queue. -/
  | messageTake
  /-- REMOTE_MESSAGE_ARRIVAL (R432): A Camsum message is checked for domain and incarnation at its target. -/
  | remoteMessageArrival
  /-- RWR_PERFORM (R438): Context 15 performs a memory-form remote write. -/
  | rwrPerform
  /-- RWR_BOLT_WRITE (R438): A bolt-form remote write is checked and performed at the owning bank. -/
  | rwrBoltWrite
  /-- RAMO_PERFORM (R439): Context 15 sends a remote atomic to its home. -/
  | ramoPerform
  /-- RMSG_RUN (R440): Context 15 runs an active message handler. -/
  | rmsgRun
  /-- REMOTE_STATUS_ARRIVAL (R437): A remote operation's status returns to its sender. -/
  | remoteStatusArrival
  /-- WAKE_ARRIVAL (R442): A wake sets WKVAL and raises WKCNT at a steward. -/
  | wakeArrival
  /-- FLIT_CRC_FAIL (R433): A flit that fails its CRC is replayed. -/
  | flitCrcFail
  /-- LANE_TRAINING_FAIL (R433): A failed lane leaves its port on fewer lanes. -/
  | laneTrainingFail
  /-- LINK_DOWN (R434): A downed port is removed and its buffered messages resent. -/
  | linkDown
  /-- SYNC_FLIT (R431): A sync flit aligns a chip's domain time. -/
  | syncFlit
  /-- RECALL_ACK (R449): A borrower acknowledges a recalled line. -/
  | recallAck
  /-- RECALL_LOST (R449): A recall ends LOST when the borrower leaves or its link drops. -/
  | recallLost
  /-- MONITOR_SAMPLE (R399): The monitor takes samples from its chosen source. -/
  | monitorSample
  /-- POWER_ON (R459): Power-on starts Thatch's start-up sequence. -/
  | powerOn
  /-- DEVICE_RESET (R459): Device reset starts Thatch's start-up sequence. -/
  | deviceReset
  /-- BOOT_TREE_SEND (R466): A weave image send between clusters completes. -/
  | bootTreeSend
  /-- CHIP_FORWARD (R467): A forwarded container arrives and queues a LOAD at a chip. -/
  | chipForward
  /-- SECURITY_ALARM (R470): A tamper, voltage or clock alarm stops and clears the device. -/
  | securityAlarm
  /-- THERMAL_WARN (R473): The junction passes 105 C and stewards are woken. -/
  | thermalWarn
  /-- THERMAL_TRIP (R473): The junction passes 115 C and the dies are held in reset. -/
  | thermalTrip
  /-- TFLT_RELEASE (R307): ACT 1 releases the shown parked grain to re-execute. -/
  | tfltRelease
  /-- TFLT_NOMAP_TRAP (R307): ACT 2 makes the shown parked grain take the NOMAP trap. -/
  | tfltNomapTrap
  /-- BPOOL_WRITE (R269): A write to BPOOL, checked against the pool's limits and use. -/
  | bpoolWrite
  /-- ASROOT_WRITE (R301): A write to an address space root for later walks. -/
  | asrootWrite
  /-- STSLOT_WRITE (R302): The steward changes its own job slot. -/
  | stslotWrite
  /-- LSR_WRITE (R227): A steward write to LSR taking effect at the next dispatch. -/
  | lsrWrite
  /-- MONCFG_CLR (R399): CLR resets every monitor statistic and flag. -/
  | moncfgClr
  /-- SLCTL_PRE (R413): Requests pre-emption of every gang of the job slot on the chip. -/
  | slctlPre
  /-- SLCTL_END (R418): Ends the job slot on the chip. -/
  | slctlEnd
  /-- SLCTL_RESTORE (R416): Restores every cluster saved by the last PRE. -/
  | slctlRestore
  /-- CKCTL_FLUSH (R451): Flushes every unlent line of HBM4. -/
  | ckctlFlush
  /-- CKCTL_FLUSH_DONE (R451): The device flush completes and BUSY returns to 0. -/
  | ckctlFlushDone
  /-- TCMD_LOAD (R464): Thatch verifies and loads a Folulo container. -/
  | tcmdLoad
  /-- TCMD_ATTEST (R469): Thatch writes a signed attestation report. -/
  | tcmdAttest
  /-- TCMD_ENROLL (R468): Thatch enrolls an owner key pair in a slot. -/
  | tcmdEnroll
  /-- TCMD_FWUPD (R468): Thatch verifies and writes new firmware to the unused copy. -/
  | tcmdFwupd
  /-- LAUNCH_DOORBELL (R172): A host doorbell write queues a launch descriptor. -/
  | launchDoorbell
  /-- HOST_WAKE_WRITE (R442): A host write to the wake region wakes a steward. -/
  | hostWakeWrite
  /-- ROUTE_TABLE_WRITE (R430): A route entry write takes effect for later messages. -/
  | routeTableWrite
  /-- REGISTER_WRITE (R6): A write to a register with no row of its own, under its access codes. -/
  | registerWrite
  /-- ILLEGAL_INSTRUCTION (R78): A grain executes a word that is not an instruction and takes the exact illegal-instruction trap. -/
  | illegalInstruction
  /-- LINE_STEP (R309): The line step of CFLUSH, CINV, CDISC, a device flush or a lend acts on one line as one indivisible step at its home and directory. -/
  | lineStep
  deriving DecidableEq, Repr

end Sys2Proof
end

