-- ==== Sys2Proof/WellFormed.lean ====
section
/-!
DEFINITION. Which instructions are well formed: no field holds a code that the spec reserves (R73, R78, R79, R202, R228), and
an event names units that the package has (R9, R13, R17).
-/

namespace Sys2Proof

/-- The format payload holds no reserved code (R42, R44). -/
def payloadOk (p : BitVec 12) : Bool :=
  decide (p.extractLsb' 8 4 ≤ 6) && p.extractLsb' 6 2 != 3 && decide (p.extractLsb' 3 3 ≤ 4) && p.extractLsb' 0 2 != 3

/-- PN is zero when PE is zero, and so is PI, which nothing then uses (R85). -/
def predOk (p : Pred) : Bool := p.pe || (!p.pn && p.pi == 0)

/-- A V destination: v0 to v27, or sq (R202). -/
def vDst (d : BitVec 5) : Bool := decide (d ≤ 27) || d == 31
/-- A V source: v0 to v27, q0, q1 or nw (R202). -/
def vSrc (a : BitVec 5) : Bool := a != 31
/-- A lent byte in the register-extension form names v0 to v27 (R198, R230). -/
def vLend (b : BitVec 8) : Bool := decide (b ≤ 27)
/-- m0 to m7 (R228). -/
def mReg (a : BitVec 5) : Bool := decide (a ≤ 7)
/-- x0 to x15 (R228). -/
def xReg (a : BitVec 5) : Bool := decide (a ≤ 15)

/-- A register of the file that a two-bit code names in XCPY (R266). -/
def fileReg (f : BitVec 2) (r : BitVec 5) : Bool :=
  if f == 0 then true else if f == 1 then decide (r ≤ 27) else if f == 2 then decide (r ≤ 7) else decide (r ≤ 15)

/-- The fields of XCPY are within their files, and the lent byte is used only for a V source (R266). -/
def copyOk (d a b : BitVec 5) (lend : BitVec 8) : Bool :=
  b.extractLsb' 4 1 == 0 && fileReg (b.extractLsb' 0 2) a && fileReg (b.extractLsb' 2 2) d
    && (if b.extractLsb' 0 2 == 1 then lend.extractLsb' 7 1 == 0 else lend == 0)

/-- No field holds a code that the spec reserves. -/
def wellFormed : Instr → Bool
  | .add _ _ _ => true
  | .sub _ _ _ => true
  | .addw _ _ _ => true
  | .subw _ _ _ => true
  | .and_ _ _ _ => true
  | .or_ _ _ _ => true
  | .xor_ _ _ _ => true
  | .andn _ _ _ => true
  | .orn _ _ _ => true
  | .xnor _ _ _ => true
  | .sll _ _ _ => true
  | .srl _ _ _ => true
  | .sra _ _ _ => true
  | .rol _ _ _ => true
  | .ror _ _ _ => true
  | .sllw _ _ _ => true
  | .srlw _ _ _ => true
  | .sraw _ _ _ => true
  | .mul _ _ _ => true
  | .mulh _ _ _ => true
  | .mulhu _ _ _ => true
  | .mulw _ _ _ => true
  | .div _ _ _ => true
  | .divu _ _ _ => true
  | .rem _ _ _ => true
  | .remu _ _ _ => true
  | .addi _ _ _ => true
  | .andi _ _ _ => true
  | .ori _ _ _ => true
  | .xori _ _ _ => true
  | .slli _ _ _ => true
  | .srli _ _ _ => true
  | .srai _ _ _ => true
  | .clz _ _ => true
  | .ctz _ _ => true
  | .popc _ _ => true
  | .brev _ _ => true
  | .bswap _ _ => true
  | .bext _ _ _ => true
  | .bins _ _ _ _ => true
  | .hash _ _ _ => true
  | .crc _ _ _ z => decide (z ≤ 3)
  | .slt _ _ _ => true
  | .sltu _ _ _ => true
  | .seq _ _ _ => true
  | .sel _ _ _ _ => true
  | .hset _ _ _ => true
  | .hins _ _ _ => true
  | .beq _ _ _ => true
  | .bne _ _ _ => true
  | .blt _ _ _ => true
  | .bge _ _ _ => true
  | .bltu _ _ _ => true
  | .bgeu _ _ _ => true
  | .jal _ _ => true
  | .jalr _ _ => true
  | .ret _ => true
  | .lb _ _ dc cls _ => (!dc || cls == 0)
  | .lbu _ _ dc cls _ => (!dc || cls == 0)
  | .lh _ _ dc cls _ => (!dc || cls == 0)
  | .lhu _ _ dc cls _ => (!dc || cls == 0)
  | .lw _ _ dc cls _ => (!dc || cls == 0)
  | .lwu _ _ dc cls _ => (!dc || cls == 0)
  | .ld _ _ dc cls _ => (!dc || cls == 0)
  | .sb _ _ dc cls _ => (!dc || cls == 0)
  | .sh _ _ dc cls _ => (!dc || cls == 0)
  | .sw _ _ dc cls _ => (!dc || cls == 0)
  | .sd _ _ dc cls _ => (!dc || cls == 0)
  | .pref l _ dc cls _ => (!dc || cls == 0) && decide (l ≤ 1)
  | .fadd _ _ _ => true
  | .fsub _ _ _ => true
  | .fmul _ _ _ => true
  | .fdiv _ _ _ => true
  | .fsqrt _ _ => true
  | .fma _ _ _ _ => true
  | .fmin _ _ _ => true
  | .fmax _ _ _ => true
  | .fsgnj _ _ _ m => decide (m ≤ 2)
  | .feq _ _ _ => true
  | .flt _ _ _ => true
  | .fle _ _ _ => true
  | .cvtf _ _ u => decide (u ≤ 1)
  | .cvti _ _ => true
  | .narrow _ _ _ => true
  | .widen _ _ _ => true
  | .pack _ _ _ _ => true
  | .unpack _ _ _ => true
  | .mkscl _ _ => true
  | .isect _ _ _ w => decide (w ≤ 1)
  | .fmt p => payloadOk p
  | .nop => true
  | .scall _ => true
  | .sret => true
  | .trap _ _ => true
  | .idle => true
  | .csrr _ _ => true
  | .csrw _ _ _ => true
  | .cstart _ _ _ _ => true
  | .cstop _ _ => true
  | .creap _ _ => true
  | .spawn _ _ _ => true
  | .rfork _ _ _ _ => true
  | .join _ => true
  | .jwait _ => true
  | .launch _ _ => true
  | .lr _ _ _ _ dc cls => (!dc || cls == 0)
  | .sc _ _ _ _ _ dc cls => (!dc || cls == 0)
  | .fxswp _ _ _ _ _ dc cls => (!dc || cls == 0)
  | .fxadd _ _ _ _ _ dc cls => (!dc || cls == 0)
  | .fxand _ _ _ _ _ dc cls => (!dc || cls == 0)
  | .fxor _ _ _ _ _ dc cls => (!dc || cls == 0)
  | .fxxor _ _ _ _ _ dc cls => (!dc || cls == 0)
  | .fxmin _ _ _ _ _ dc cls => (!dc || cls == 0)
  | .fxmax _ _ _ _ _ dc cls => (!dc || cls == 0)
  | .fxminu _ _ _ _ _ dc cls => (!dc || cls == 0)
  | .fxmaxu _ _ _ _ _ dc cls => (!dc || cls == 0)
  | .fxcas _ _ _ _ _ dc cls => (!dc || cls == 0)
  | .amofadd _ _ _ _ _ dc cls => (!dc || cls == 0)
  | .wrs => true
  | .ldfe _ _ dc cls _ => (!dc || cls == 0)
  | .stfe _ _ dc cls _ => (!dc || cls == 0)
  | .ldff _ _ dc cls _ => (!dc || cls == 0)
  | .feset l _ dc cls _ => (!dc || cls == 0) && decide (l ≤ 1)
  | .fence scope kind mask => decide (scope ≤ 5) && kind != 0 && mask != 0
  | .gadd _ _ t _ dc cls => (!dc || cls == 0) && t != 0 && decide (t ≤ 13)
  | .barc _ _ => true
  | .barw _ _ => true
  | .migr _ _ => true
  | .bopen _ _ _ _ => true
  | .bvalid _ _ _ => true
  | .sealBolt _ _ => true
  | .bqueryStatus _ _ => true
  | .bqueryMaskLow _ _ => true
  | .bqueryMaskHigh _ _ => true
  | .babort _ _ => true
  | .bwait _ _ => true
  | .btime _ _ _ => true
  | .cflush _ _ _ => true
  | .cinv _ _ _ => true
  | .cdisc _ _ _ => true
  | .tlbinv _ _ _ => true
  | .atrans _ _ _ => true
  | .ejob _ _ => true
  | .ewaitWait _ _ => true
  | .ewaitPoll _ _ => true
  | .ecpy _ _ _ _ => true
  | .gleanOpen _ _ _ => true
  | .gleanClose _ _ _ => true
  | .gleanFlip _ _ _ => true
  | .gleanQuery _ _ _ => true
  | .tgsub _ _ _ _ => true
  | .tgnext _ => true
  | .tgdone _ _ _ => true
  | .tgdoneRequeue _ _ _ => true
  | .wbind _ _ _ => true
  | .wbindUnbind _ _ _ => true
  | .wpush _ _ _ dc cls => (!dc || cls == 0)
  | .wpull _ _ _ dc cls => (!dc || cls == 0)
  | .wdone _ _ _ => true
  | .amotopk _ _ _ _ _ dc cls => (!dc || cls == 0)
  | .amobinc _ _ _ _ _ dc cls => (!dc || cls == 0)
  | .msamp _ _ => true
  | .rwr _ _ _ _ => true
  | .ramo _ _ _ _ => true
  | .rmsg _ _ _ => true
  | .rwake _ _ _ => true
  | .rlendLend _ _ _ => true
  | .rlendRecall _ _ _ => true
  | .rlendQuery _ _ _ => true
  | .ckptArm _ _ => true
  | .ckptDisarm _ _ => true
  | .ckptQuery _ _ => true
  | .twilCouple _ _ => true
  | .twilUncouple _ _ => true
  | .frecResume _ _ _ => true
  | .frecSkip _ _ _ => true
  | .frecGoto _ _ _ => true
  | .frecSave _ _ _ => true
  | .frecLoad _ _ _ => true
  | .frecLresume _ _ _ => true
  | .frecLdrop _ _ _ => true
  | .frecLend _ _ _ => true
  | .frecLring _ _ _ => true
  | .frecGpre _ _ _ => true
  | .frecGrest _ _ _ => true
  | .sadd p _ _ _ => predOk p
  | .ssub p _ _ _ => predOk p
  | .sand p _ _ _ => predOk p
  | .sor p _ _ _ => predOk p
  | .ssll p _ _ _ => predOk p
  | .ssrl p _ _ _ => predOk p
  | .smul p _ _ _ => predOk p
  | .scmp p _ cc _ _ => predOk p && decide (cc ≤ 5)
  | .saddi p _ _ _ => predOk p
  | .smovi p _ _ => predOk p
  | .sbr p _ => predOk p
  | .sloop p _ _ => predOk p
  | .snop p => predOk p
  | .snext p _ => predOk p
  | .srel p _ => predOk p
  | .sckpt p => predOk p
  | .srsr p _ b => predOk p && decide (b ≤ 1)
  | .shalt p => predOk p
  | .vadd p d a b _ => predOk p && vDst d && vSrc a && vSrc b
  | .vsub p d a b _ => predOk p && vDst d && vSrc a && vSrc b
  | .vand p d a b _ => predOk p && vDst d && vSrc a && vSrc b
  | .vor p d a b _ => predOk p && vDst d && vSrc a && vSrc b
  | .vxor p d a b _ => predOk p && vDst d && vSrc a && vSrc b
  | .vsll p d a b _ => predOk p && vDst d && vSrc a && vSrc b
  | .vsra p d a b _ => predOk p && vDst d && vSrc a && vSrc b
  | .vfadd p d a b _ lend => predOk p && vDst d && vSrc a && vSrc b && vLend lend
  | .vfmul p d a b _ lend => predOk p && vDst d && vSrc a && vSrc b && vLend lend
  | .vfma p d a b _ lend => predOk p && vDst d && vSrc a && vSrc b && vLend lend
  | .vfmax p d a b _ lend => predOk p && vDst d && vSrc a && vSrc b && vLend lend
  | .vfmin p d a b _ lend => predOk p && vDst d && vSrc a && vSrc b && vLend lend
  | .vnrw p d a b lend => predOk p && vDst d && vSrc a && vSrc b && vLend lend
  | .vwid p d a b lend => predOk p && vDst d && vSrc a && vSrc b && vLend lend
  | .vrsum p d a => predOk p && vDst d && vSrc a
  | .vrmax p d a => predOk p && vDst d && vSrc a
  | .vmov p d a _ => predOk p && vDst d && vSrc a
  | .vmrd p d _ => predOk p && vDst d
  | .vmask p _ cc a b => predOk p && decide (cc ≤ 5) && vSrc a && vSrc b
  | .vnop p => predOk p
  | .vfmt payload => payloadOk payload
  | .mbub p => predOk p
  | .mpush p _ a b => predOk p && vSrc a && mReg b
  | .mzpush p _ a b => predOk p && vSrc a && mReg b
  | .mdrain p a b => predOk p && mReg a && mReg b
  | .mset p d _ => predOk p && mReg d
  | .madd p d a _ => predOk p && mReg d && mReg a
  | .mfmt payload => payloadOk payload
  | .xrq p flags a b => predOk p && xReg a && xReg b && decide (flags ≤ 7)
  | .xwr p flags a b => predOk p && xReg a && xReg b && decide (flags ≤ 3)
  | .xbrd p flags b => predOk p && xReg b && flags &&& 0x1A#5 == 0
  | .xbwr p flags b => predOk p && xReg b && flags &&& 0x1D#5 == 0
  | .xbld p a b => predOk p && xReg a && xReg b
  | .xcpy p d a b lend => predOk p && copyOk d a b lend
  | .xnop p => predOk p
  | .xset p d a _ => predOk p && xReg d && xReg a
  | .bundleDispatch => true
  | .loomResultLands => true
  | .queueRowPlaced => true
  | .arrayBeat => true
  | .drainColumnWrite => true
  | .bstoreWriteLands => true
  | .lateFaultFreeze => true
  | .shaltStop => true
  | .replyArrival => true
  | .storeAcknowledgement => true
  | .lateRefusal => true
  | .trapEntry => true
  | .fetchMissFill => true
  | .spawnArrival => true
  | .rforkResume => true
  | .migrationGrant => true
  | .migrationAccept => true
  | .migratedReply => true
  | .forwardEntryLapse => true
  | .reservationRegister => true
  | .homeStore => true
  | .servingSliceLoad => true
  | .fullEmptyAtHome => true
  | .fullEmptyResend => true
  | .bankAccess => true
  | .jwaitWake => true
  | .barrierArrival => true
  | .barcDone => true
  | .barwTapRise => true
  | .barwDone => true
  | .barrierTimeout => true
  | .gangAdmission => true
  | .sheafRelease => true
  | .stookRelease => true
  | .rickReady => true
  | .rickGo => true
  | .rickHold => true
  | .rickGuardExpiry => true
  | .rickRelease => true
  | .gangRetire => true
  | .completionRecordWrite => true
  | .wakeFloodArrival => true
  | .chipPartReport => true
  | .preemptRequestArrival => true
  | .gangStop => true
  | .clusterSave => true
  | .clusterRestore => true
  | .watchdogWaitExpiry => true
  | .watchdogPreExpiry => true
  | .gangEnd => true
  | .correctableErrorCore => true
  | .coreFreezeEnd => true
  | .correctableErrorLoom => true
  | .loomFreezeEnd => true
  | .dataError => true
  | .rollbackOutcome => true
  | .twillCompare => true
  | .twillTimeout => true
  | .ctTick => true
  | .boltTimerExpiry => true
  | .pressureSeal => true
  | .bopenServe => true
  | .boltPost => true
  | .accumJoin => true
  | .accumGrant => true
  | .partialEvict => true
  | .coreRecall => true
  | .sliceAtomicOp => true
  | .routerMerge => true
  | .rds => true
  | .rdx => true
  | .upg => true
  | .ajn => true
  | .aev => true
  | .putMsg => true
  | .wb => true
  | .dataMsg => true
  | .gnt => true
  | .agnt => true
  | .fws => true
  | .fwb => true
  | .fack => true
  | .invMsg => true
  | .iack => true
  | .rcl => true
  | .plist => true
  | .mrg => true
  | .wback => true
  | .cmp => true
  | .hostPortRead => true
  | .hostPortWrite => true
  | .hostScratchpadAccess => true
  | .walkRequest => true
  | .walkComplete => true
  | .walkResend => true
  | .jobAccept => true
  | .engineRequest => true
  | .jobRetire => true
  | .ecpyRetire => true
  | .walkBlock => true
  | .walkBTileWaitEnd => true
  | .walkOpenServed => true
  | .gleanPrefetchRow => true
  | .messageTake => true
  | .remoteMessageArrival => true
  | .rwrPerform => true
  | .rwrBoltWrite => true
  | .ramoPerform => true
  | .rmsgRun => true
  | .remoteStatusArrival => true
  | .wakeArrival => true
  | .flitCrcFail => true
  | .laneTrainingFail => true
  | .linkDown => true
  | .syncFlit => true
  | .recallAck => true
  | .recallLost => true
  | .monitorSample => true
  | .powerOn => true
  | .deviceReset => true
  | .bootTreeSend => true
  | .chipForward => true
  | .securityAlarm => true
  | .thermalWarn => true
  | .thermalTrip => true
  | .tfltRelease => true
  | .tfltNomapTrap => true
  | .bpoolWrite => true
  | .asrootWrite => true
  | .stslotWrite => true
  | .lsrWrite => true
  | .moncfgClr => true
  | .slctlPre => true
  | .slctlEnd => true
  | .slctlRestore => true
  | .ckctlFlush => true
  | .ckctlFlushDone => true
  | .tcmdLoad => true
  | .tcmdAttest => true
  | .tcmdEnroll => true
  | .tcmdFwupd => true
  | .launchDoorbell => true
  | .hostWakeWrite => true
  | .routeTableWrite => true
  | .registerWrite => true
  | .illegalInstruction => true
  | .lineStep => true

end Sys2Proof
end

