-- ==== Sys2Proof/Decode.lean ====
section
/-!
DEFINITION. The decoder of grain words and of Loom slot words, total on every word, and the encoder written from the same
tables (R71 to R79, R82 to R85, R229, R231). A word for which the decoder answers none is not an instruction (R78, R79).
Rows of one word that a register value tells apart decode to the first of them; Step.lean picks the row.
-/

namespace Sys2Proof

/-- The n bits of a word from bit lo up (R3). -/
def fld (w : W32) (lo n : Nat) : BitVec n := w.extractLsb' lo n
/-- One bit of a word. -/
def bit (w : W32) (i : Nat) : Bool := w.getLsbD i
/-- The predicate bits of a slot word (R85). -/
def predOf (w : W32) : Pred := ⟨bit w 25, bit w 24, fld w 22 2⟩

/-- Major opcode 0x01, format R (R74). -/
def decMajor01 (w : W32) : Option Instr :=
  match (fld w 0 10).toNat with
  | 0 => if fld w 10 4 = 0#4 then some (.add (fld w 22 4) (fld w 18 4) (fld w 14 4)) else none
  | 1 => if fld w 10 4 = 0#4 then some (.sub (fld w 22 4) (fld w 18 4) (fld w 14 4)) else none
  | 2 => if fld w 10 4 = 0#4 then some (.addw (fld w 22 4) (fld w 18 4) (fld w 14 4)) else none
  | 3 => if fld w 10 4 = 0#4 then some (.subw (fld w 22 4) (fld w 18 4) (fld w 14 4)) else none
  | 4 => if fld w 10 4 = 0#4 then some (.and_ (fld w 22 4) (fld w 18 4) (fld w 14 4)) else none
  | 5 => if fld w 10 4 = 0#4 then some (.or_ (fld w 22 4) (fld w 18 4) (fld w 14 4)) else none
  | 6 => if fld w 10 4 = 0#4 then some (.xor_ (fld w 22 4) (fld w 18 4) (fld w 14 4)) else none
  | 7 => if fld w 10 4 = 0#4 then some (.andn (fld w 22 4) (fld w 18 4) (fld w 14 4)) else none
  | 8 => if fld w 10 4 = 0#4 then some (.orn (fld w 22 4) (fld w 18 4) (fld w 14 4)) else none
  | 9 => if fld w 10 4 = 0#4 then some (.xnor (fld w 22 4) (fld w 18 4) (fld w 14 4)) else none
  | 10 => if fld w 10 4 = 0#4 then some (.sll (fld w 22 4) (fld w 18 4) (fld w 14 4)) else none
  | 11 => if fld w 10 4 = 0#4 then some (.srl (fld w 22 4) (fld w 18 4) (fld w 14 4)) else none
  | 12 => if fld w 10 4 = 0#4 then some (.sra (fld w 22 4) (fld w 18 4) (fld w 14 4)) else none
  | 13 => if fld w 10 4 = 0#4 then some (.rol (fld w 22 4) (fld w 18 4) (fld w 14 4)) else none
  | 14 => if fld w 10 4 = 0#4 then some (.ror (fld w 22 4) (fld w 18 4) (fld w 14 4)) else none
  | 15 => if fld w 10 4 = 0#4 then some (.sllw (fld w 22 4) (fld w 18 4) (fld w 14 4)) else none
  | 16 => if fld w 10 4 = 0#4 then some (.srlw (fld w 22 4) (fld w 18 4) (fld w 14 4)) else none
  | 17 => if fld w 10 4 = 0#4 then some (.sraw (fld w 22 4) (fld w 18 4) (fld w 14 4)) else none
  | _ => none

/-- Major opcode 0x02, format R (R74). -/
def decMajor02 (w : W32) : Option Instr :=
  match (fld w 0 10).toNat with
  | 0 => if fld w 10 4 = 0#4 then some (.mul (fld w 22 4) (fld w 18 4) (fld w 14 4)) else none
  | 1 => if fld w 10 4 = 0#4 then some (.mulh (fld w 22 4) (fld w 18 4) (fld w 14 4)) else none
  | 2 => if fld w 10 4 = 0#4 then some (.mulhu (fld w 22 4) (fld w 18 4) (fld w 14 4)) else none
  | 3 => if fld w 10 4 = 0#4 then some (.mulw (fld w 22 4) (fld w 18 4) (fld w 14 4)) else none
  | 4 => if fld w 10 4 = 0#4 then some (.div (fld w 22 4) (fld w 18 4) (fld w 14 4)) else none
  | 5 => if fld w 10 4 = 0#4 then some (.divu (fld w 22 4) (fld w 18 4) (fld w 14 4)) else none
  | 6 => if fld w 10 4 = 0#4 then some (.rem (fld w 22 4) (fld w 18 4) (fld w 14 4)) else none
  | 7 => if fld w 10 4 = 0#4 then some (.remu (fld w 22 4) (fld w 18 4) (fld w 14 4)) else none
  | _ => none

/-- Major opcode 0x03, format I (R74). -/
def decMajor03 (w : W32) : Option Instr :=
  match (fld w 14 4).toNat with
  | 0 => some (.addi (fld w 22 4) (fld w 18 4) (fld w 0 14))
  | 1 => some (.andi (fld w 22 4) (fld w 18 4) (fld w 0 14))
  | 2 => some (.ori (fld w 22 4) (fld w 18 4) (fld w 0 14))
  | 3 => some (.xori (fld w 22 4) (fld w 18 4) (fld w 0 14))
  | 4 => if fld w 6 8 = 0#8 then some (.slli (fld w 22 4) (fld w 18 4) (fld w 0 6)) else none
  | 5 => if fld w 6 8 = 0#8 then some (.srli (fld w 22 4) (fld w 18 4) (fld w 0 6)) else none
  | 6 => if fld w 6 8 = 0#8 then some (.srai (fld w 22 4) (fld w 18 4) (fld w 0 6)) else none
  | _ => none

/-- Major opcode 0x04, format R (R74). -/
def decMajor04 (w : W32) : Option Instr :=
  match (fld w 0 10).toNat with
  | 0 => if fld w 14 4 = 0#4 ∧ fld w 10 4 = 0#4 then some (.clz (fld w 22 4) (fld w 18 4)) else none
  | 1 => if fld w 14 4 = 0#4 ∧ fld w 10 4 = 0#4 then some (.ctz (fld w 22 4) (fld w 18 4)) else none
  | 2 => if fld w 14 4 = 0#4 ∧ fld w 10 4 = 0#4 then some (.popc (fld w 22 4) (fld w 18 4)) else none
  | 3 => if fld w 14 4 = 0#4 ∧ fld w 10 4 = 0#4 then some (.brev (fld w 22 4) (fld w 18 4)) else none
  | 4 => if fld w 14 4 = 0#4 ∧ fld w 10 4 = 0#4 then some (.bswap (fld w 22 4) (fld w 18 4)) else none
  | 5 => if fld w 10 4 = 0#4 then some (.bext (fld w 22 4) (fld w 18 4) (fld w 14 4)) else none
  | 6 => some (.bins (fld w 22 4) (fld w 18 4) (fld w 14 4) (fld w 10 4))
  | _ => none

/-- Major opcode 0x05, format R (R74). -/
def decMajor05 (w : W32) : Option Instr :=
  match (fld w 0 10).toNat with
  | 0 => if fld w 10 4 = 0#4 then some (.hash (fld w 22 4) (fld w 18 4) (fld w 14 4)) else none
  | 1 => some (.crc (fld w 22 4) (fld w 18 4) (fld w 14 4) (fld w 10 4))
  | _ => none

/-- Major opcode 0x06, format R (R74). -/
def decMajor06 (w : W32) : Option Instr :=
  match (fld w 0 10).toNat with
  | 0 => if fld w 10 4 = 0#4 then some (.slt (fld w 22 4) (fld w 18 4) (fld w 14 4)) else none
  | 1 => if fld w 10 4 = 0#4 then some (.sltu (fld w 22 4) (fld w 18 4) (fld w 14 4)) else none
  | 2 => if fld w 10 4 = 0#4 then some (.seq (fld w 22 4) (fld w 18 4) (fld w 14 4)) else none
  | 3 => some (.sel (fld w 22 4) (fld w 18 4) (fld w 14 4) (fld w 10 4))
  | _ => none

/-- Major opcode 0x07, format U (R74). -/
def decMajor07 (w : W32) : Option Instr :=
  match (fld w 20 2).toNat with
  | 0 => if fld w 16 2 = 0#2 then some (.hset (fld w 22 4) (fld w 18 2) (fld w 0 16)) else none
  | 1 => if fld w 16 2 = 0#2 then some (.hins (fld w 22 4) (fld w 18 2) (fld w 0 16)) else none
  | _ => none

/-- Major opcode 0x08, format B (R74). -/
def decMajor08 (w : W32) : Option Instr :=
  match (fld w 15 3).toNat with
  | 0 => some (.beq (fld w 22 4) (fld w 18 4) (fld w 0 15))
  | 1 => some (.bne (fld w 22 4) (fld w 18 4) (fld w 0 15))
  | 2 => some (.blt (fld w 22 4) (fld w 18 4) (fld w 0 15))
  | 3 => some (.bge (fld w 22 4) (fld w 18 4) (fld w 0 15))
  | 4 => some (.bltu (fld w 22 4) (fld w 18 4) (fld w 0 15))
  | 5 => some (.bgeu (fld w 22 4) (fld w 18 4) (fld w 0 15))
  | _ => none

/-- Major opcode 0x09, format J (R74). -/
def decMajor09 (w : W32) : Option Instr :=
  some (.jal (fld w 22 4) (fld w 0 22))

/-- Major opcode 0x0A, format R (R74). -/
def decMajor0A (w : W32) : Option Instr :=
  match (fld w 0 10).toNat with
  | 0 => if fld w 14 4 = 0#4 ∧ fld w 10 4 = 0#4 then some (.jalr (fld w 22 4) (fld w 18 4)) else none
  | 1 => if fld w 22 4 = 0#4 ∧ fld w 14 4 = 0#4 ∧ fld w 10 4 = 0#4 then some (.ret (fld w 18 4)) else none
  | _ => none

/-- Major opcode 0x0B, format M (R74). -/
def decMajor0B (w : W32) : Option Instr :=
  match (fld w 10 3).toNat with
  | 0 => some (.lb (fld w 22 4) (fld w 18 4) (bit w 17) (fld w 13 4) (fld w 0 10))
  | 1 => some (.lbu (fld w 22 4) (fld w 18 4) (bit w 17) (fld w 13 4) (fld w 0 10))
  | 2 => some (.lh (fld w 22 4) (fld w 18 4) (bit w 17) (fld w 13 4) (fld w 0 10))
  | 3 => some (.lhu (fld w 22 4) (fld w 18 4) (bit w 17) (fld w 13 4) (fld w 0 10))
  | 4 => some (.lw (fld w 22 4) (fld w 18 4) (bit w 17) (fld w 13 4) (fld w 0 10))
  | 5 => some (.lwu (fld w 22 4) (fld w 18 4) (bit w 17) (fld w 13 4) (fld w 0 10))
  | 6 => some (.ld (fld w 22 4) (fld w 18 4) (bit w 17) (fld w 13 4) (fld w 0 10))
  | _ => none

/-- Major opcode 0x0C, format M (R74). -/
def decMajor0C (w : W32) : Option Instr :=
  match (fld w 10 3).toNat with
  | 0 => some (.sb (fld w 22 4) (fld w 18 4) (bit w 17) (fld w 13 4) (fld w 0 10))
  | 1 => some (.sh (fld w 22 4) (fld w 18 4) (bit w 17) (fld w 13 4) (fld w 0 10))
  | 2 => some (.sw (fld w 22 4) (fld w 18 4) (bit w 17) (fld w 13 4) (fld w 0 10))
  | 3 => some (.sd (fld w 22 4) (fld w 18 4) (bit w 17) (fld w 13 4) (fld w 0 10))
  | _ => none

/-- Major opcode 0x0D, format M (R74). -/
def decMajor0D (w : W32) : Option Instr :=
  match (fld w 10 3).toNat with
  | 0 => some (.pref (fld w 22 4) (fld w 18 4) (bit w 17) (fld w 13 4) (fld w 0 10))
  | _ => none

/-- Major opcode 0x0E, format R (R74). -/
def decMajor0E (w : W32) : Option Instr :=
  match (fld w 0 10).toNat with
  | 0 => if fld w 10 4 = 0#4 then some (.fadd (fld w 22 4) (fld w 18 4) (fld w 14 4)) else none
  | 1 => if fld w 10 4 = 0#4 then some (.fsub (fld w 22 4) (fld w 18 4) (fld w 14 4)) else none
  | 2 => if fld w 10 4 = 0#4 then some (.fmul (fld w 22 4) (fld w 18 4) (fld w 14 4)) else none
  | 3 => if fld w 10 4 = 0#4 then some (.fdiv (fld w 22 4) (fld w 18 4) (fld w 14 4)) else none
  | 4 => if fld w 14 4 = 0#4 ∧ fld w 10 4 = 0#4 then some (.fsqrt (fld w 22 4) (fld w 18 4)) else none
  | 5 => some (.fma (fld w 22 4) (fld w 18 4) (fld w 14 4) (fld w 10 4))
  | 6 => if fld w 10 4 = 0#4 then some (.fmin (fld w 22 4) (fld w 18 4) (fld w 14 4)) else none
  | 7 => if fld w 10 4 = 0#4 then some (.fmax (fld w 22 4) (fld w 18 4) (fld w 14 4)) else none
  | 8 => some (.fsgnj (fld w 22 4) (fld w 18 4) (fld w 14 4) (fld w 10 4))
  | 9 => if fld w 10 4 = 0#4 then some (.feq (fld w 22 4) (fld w 18 4) (fld w 14 4)) else none
  | 10 => if fld w 10 4 = 0#4 then some (.flt (fld w 22 4) (fld w 18 4) (fld w 14 4)) else none
  | 11 => if fld w 10 4 = 0#4 then some (.fle (fld w 22 4) (fld w 18 4) (fld w 14 4)) else none
  | _ => none

/-- Major opcode 0x0F, format R (R74). -/
def decMajor0F (w : W32) : Option Instr :=
  match (fld w 0 10).toNat with
  | 0 => if fld w 14 4 = 0#4 then some (.cvtf (fld w 22 4) (fld w 18 4) (fld w 10 4)) else none
  | 1 => if fld w 14 4 = 0#4 ∧ fld w 10 4 = 0#4 then some (.cvti (fld w 22 4) (fld w 18 4)) else none
  | 2 => if fld w 10 4 = 0#4 then some (.narrow (fld w 22 4) (fld w 18 4) (fld w 14 4)) else none
  | 3 => if fld w 10 4 = 0#4 then some (.widen (fld w 22 4) (fld w 18 4) (fld w 14 4)) else none
  | 4 => some (.pack (fld w 22 4) (fld w 18 4) (fld w 14 4) (fld w 10 4))
  | 5 => if fld w 10 4 = 0#4 then some (.unpack (fld w 22 4) (fld w 18 4) (fld w 14 4)) else none
  | 6 => if fld w 14 4 = 0#4 ∧ fld w 10 4 = 0#4 then some (.mkscl (fld w 22 4) (fld w 18 4)) else none
  | _ => none

/-- Major opcode 0x10, format R (R74). -/
def decMajor10 (w : W32) : Option Instr :=
  match (fld w 0 10).toNat with
  | 0 => some (.isect (fld w 22 4) (fld w 18 4) (fld w 14 4) (fld w 10 4))
  | _ => none

/-- Major opcode 0x11, format P (R74). -/
def decMajor11 (w : W32) : Option Instr :=
  if fld w 12 14 = 0#14 then some (.fmt (fld w 0 12)) else none

/-- Major opcode 0x12, format R (R74). -/
def decMajor12 (w : W32) : Option Instr :=
  match (fld w 0 10).toNat with
  | 0 => if fld w 22 4 = 0#4 ∧ fld w 18 4 = 0#4 ∧ fld w 14 4 = 0#4 ∧ fld w 10 4 = 0#4 then some .nop else none
  | 1 => if fld w 22 4 = 0#4 ∧ fld w 14 4 = 0#4 ∧ fld w 10 4 = 0#4 then some (.scall (fld w 18 4)) else none
  | 2 => if fld w 22 4 = 0#4 ∧ fld w 18 4 = 0#4 ∧ fld w 14 4 = 0#4 ∧ fld w 10 4 = 0#4 then some .sret else none
  | 3 => if fld w 22 4 = 0#4 ∧ fld w 10 4 = 0#4 then some (.trap (fld w 18 4) (fld w 14 4)) else none
  | 4 => if fld w 22 4 = 0#4 ∧ fld w 18 4 = 0#4 ∧ fld w 14 4 = 0#4 ∧ fld w 10 4 = 0#4 then some .idle else none
  | _ => none

/-- Major opcode 0x13, format I (R74). -/
def decMajor13 (w : W32) : Option Instr :=
  match (fld w 14 4).toNat with
  | 0 => if fld w 18 4 = 0#4 ∧ fld w 12 2 = 0#2 then some (.csrr (fld w 22 4) (fld w 0 12)) else none
  | 1 => if fld w 12 2 = 0#2 then some (.csrw (fld w 22 4) (fld w 18 4) (fld w 0 12)) else none
  | _ => none

/-- Major opcode 0x14, format R (R74). -/
def decMajor14 (w : W32) : Option Instr :=
  match (fld w 0 10).toNat with
  | 0 => some (.cstart (fld w 22 4) (fld w 18 4) (fld w 14 4) (fld w 10 4))
  | 1 => if fld w 14 4 = 0#4 ∧ fld w 10 4 = 0#4 then some (.cstop (fld w 22 4) (fld w 18 4)) else none
  | 2 => if fld w 14 4 = 0#4 ∧ fld w 10 4 = 0#4 then some (.creap (fld w 22 4) (fld w 18 4)) else none
  | _ => none

/-- Major opcode 0x15, format R (R74). -/
def decMajor15 (w : W32) : Option Instr :=
  match (fld w 0 10).toNat with
  | 0 => if fld w 10 4 = 0#4 then some (.spawn (fld w 22 4) (fld w 18 4) (fld w 14 4)) else none
  | 1 => some (.rfork (fld w 22 4) (fld w 18 4) (fld w 14 4) (fld w 10 4))
  | 2 => if fld w 22 4 = 0#4 ∧ fld w 14 4 = 0#4 ∧ fld w 10 4 = 0#4 then some (.join (fld w 18 4)) else none
  | 3 => if fld w 22 4 = 0#4 ∧ fld w 14 4 = 0#4 ∧ fld w 10 4 = 0#4 then some (.jwait (fld w 18 4)) else none
  | 4 => if fld w 14 4 = 0#4 ∧ fld w 10 4 = 0#4 then some (.launch (fld w 22 4) (fld w 18 4)) else none
  | _ => none

/-- Major opcode 0x16, format A (R74). -/
def decMajor16 (w : W32) : Option Instr :=
  match (fld w 10 4).toNat with
  | 0 => if fld w 14 4 = 0#4 ∧ fld w 0 3 = 0#3 then some (.lr (fld w 22 4) (fld w 18 4) (bit w 9) (bit w 8) (bit w 7) (fld w 3 4)) else none
  | 1 => if fld w 0 3 = 0#3 then some (.sc (fld w 22 4) (fld w 18 4) (fld w 14 4) (bit w 9) (bit w 8) (bit w 7) (fld w 3 4)) else none
  | 2 => if fld w 0 3 = 0#3 then some (.fxswp (fld w 22 4) (fld w 18 4) (fld w 14 4) (bit w 9) (bit w 8) (bit w 7) (fld w 3 4)) else none
  | 3 => if fld w 0 3 = 0#3 then some (.fxadd (fld w 22 4) (fld w 18 4) (fld w 14 4) (bit w 9) (bit w 8) (bit w 7) (fld w 3 4)) else none
  | 4 => if fld w 0 3 = 0#3 then some (.fxand (fld w 22 4) (fld w 18 4) (fld w 14 4) (bit w 9) (bit w 8) (bit w 7) (fld w 3 4)) else none
  | 5 => if fld w 0 3 = 0#3 then some (.fxor (fld w 22 4) (fld w 18 4) (fld w 14 4) (bit w 9) (bit w 8) (bit w 7) (fld w 3 4)) else none
  | 6 => if fld w 0 3 = 0#3 then some (.fxxor (fld w 22 4) (fld w 18 4) (fld w 14 4) (bit w 9) (bit w 8) (bit w 7) (fld w 3 4)) else none
  | 7 => if fld w 0 3 = 0#3 then some (.fxmin (fld w 22 4) (fld w 18 4) (fld w 14 4) (bit w 9) (bit w 8) (bit w 7) (fld w 3 4)) else none
  | 8 => if fld w 0 3 = 0#3 then some (.fxmax (fld w 22 4) (fld w 18 4) (fld w 14 4) (bit w 9) (bit w 8) (bit w 7) (fld w 3 4)) else none
  | 9 => if fld w 0 3 = 0#3 then some (.fxminu (fld w 22 4) (fld w 18 4) (fld w 14 4) (bit w 9) (bit w 8) (bit w 7) (fld w 3 4)) else none
  | 10 => if fld w 0 3 = 0#3 then some (.fxmaxu (fld w 22 4) (fld w 18 4) (fld w 14 4) (bit w 9) (bit w 8) (bit w 7) (fld w 3 4)) else none
  | 11 => if fld w 0 3 = 0#3 then some (.fxcas (fld w 22 4) (fld w 18 4) (fld w 14 4) (bit w 9) (bit w 8) (bit w 7) (fld w 3 4)) else none
  | 12 => if fld w 0 3 = 0#3 then some (.amofadd (fld w 22 4) (fld w 18 4) (fld w 14 4) (bit w 9) (bit w 8) (bit w 7) (fld w 3 4)) else none
  | 13 => if fld w 22 4 = 0#4 ∧ fld w 18 4 = 0#4 ∧ fld w 14 4 = 0#4 ∧ fld w 9 1 = 0#1 ∧ fld w 8 1 = 0#1 ∧ fld w 7 1 = 0#1 ∧ fld w 3 4 = 0#4 ∧ fld w 0 3 = 0#3 then some .wrs else none
  | _ => none

/-- Major opcode 0x17, format M (R74). -/
def decMajor17 (w : W32) : Option Instr :=
  match (fld w 10 3).toNat with
  | 0 => some (.ldfe (fld w 22 4) (fld w 18 4) (bit w 17) (fld w 13 4) (fld w 0 10))
  | 1 => some (.stfe (fld w 22 4) (fld w 18 4) (bit w 17) (fld w 13 4) (fld w 0 10))
  | 2 => some (.ldff (fld w 22 4) (fld w 18 4) (bit w 17) (fld w 13 4) (fld w 0 10))
  | 3 => some (.feset (fld w 22 4) (fld w 18 4) (bit w 17) (fld w 13 4) (fld w 0 10))
  | _ => none

/-- Major opcode 0x18, format F (R74). -/
def decMajor18 (w : W32) : Option Instr :=
  if fld w 16 3 = 0#3 then some (.fence (fld w 23 3) (fld w 19 4) (fld w 0 16)) else none

/-- Major opcode 0x19, format A (R74). -/
def decMajor19 (w : W32) : Option Instr :=
  if fld w 22 4 = 0#4 ∧ fld w 9 1 = 0#1 ∧ fld w 0 3 = 0#3 then some (.gadd (fld w 18 4) (fld w 14 4) (fld w 10 4) (bit w 8) (bit w 7) (fld w 3 4)) else none

/-- Major opcode 0x1A, format R (R74). -/
def decMajor1A (w : W32) : Option Instr :=
  match (fld w 0 10).toNat with
  | 0 => if fld w 14 4 = 0#4 ∧ fld w 10 4 = 0#4 then some (.barc (fld w 22 4) (fld w 18 4)) else none
  | 1 => if fld w 14 4 = 0#4 ∧ fld w 10 4 = 0#4 then some (.barw (fld w 22 4) (fld w 18 4)) else none
  | 2 => if fld w 14 4 = 0#4 ∧ fld w 10 4 = 0#4 then some (.migr (fld w 22 4) (fld w 18 4)) else none
  | _ => none

/-- Major opcode 0x1B, format R (R74). -/
def decMajor1B (w : W32) : Option Instr :=
  match (fld w 0 10).toNat with
  | 0 => some (.bopen (fld w 22 4) (fld w 18 4) (fld w 14 4) (fld w 10 4))
  | 1 => if fld w 10 4 = 0#4 then some (.bvalid (fld w 22 4) (fld w 18 4) (fld w 14 4)) else none
  | 2 => if fld w 14 4 = 0#4 ∧ fld w 10 4 = 0#4 then some (.sealBolt (fld w 22 4) (fld w 18 4)) else none
  | 3 => if fld w 14 4 = 0#4 ∧ fld w 10 4 = 0#4 then some (.bqueryStatus (fld w 22 4) (fld w 18 4)) else if fld w 14 4 = 0#4 ∧ fld w 10 4 = 1#4 then some (.bqueryMaskLow (fld w 22 4) (fld w 18 4)) else if fld w 14 4 = 0#4 ∧ fld w 10 4 = 2#4 then some (.bqueryMaskHigh (fld w 22 4) (fld w 18 4)) else none
  | 4 => if fld w 14 4 = 0#4 ∧ fld w 10 4 = 0#4 then some (.babort (fld w 22 4) (fld w 18 4)) else none
  | 5 => if fld w 14 4 = 0#4 ∧ fld w 10 4 = 0#4 then some (.bwait (fld w 22 4) (fld w 18 4)) else none
  | 6 => if fld w 10 4 = 0#4 then some (.btime (fld w 22 4) (fld w 18 4) (fld w 14 4)) else none
  | _ => none

/-- Major opcode 0x1C, format R (R74). -/
def decMajor1C (w : W32) : Option Instr :=
  match (fld w 0 10).toNat with
  | 0 => if fld w 10 4 = 0#4 then some (.cflush (fld w 22 4) (fld w 18 4) (fld w 14 4)) else none
  | 1 => if fld w 10 4 = 0#4 then some (.cinv (fld w 22 4) (fld w 18 4) (fld w 14 4)) else none
  | 2 => if fld w 10 4 = 0#4 then some (.cdisc (fld w 22 4) (fld w 18 4) (fld w 14 4)) else none
  | 3 => if fld w 10 4 = 0#4 then some (.tlbinv (fld w 22 4) (fld w 18 4) (fld w 14 4)) else none
  | 4 => if fld w 10 4 = 0#4 then some (.atrans (fld w 22 4) (fld w 18 4) (fld w 14 4)) else none
  | _ => none

/-- Major opcode 0x1D, format R (R74). -/
def decMajor1D (w : W32) : Option Instr :=
  match (fld w 0 10).toNat with
  | 0 => if fld w 14 4 = 0#4 ∧ fld w 10 4 = 0#4 then some (.ejob (fld w 22 4) (fld w 18 4)) else none
  | 1 => if fld w 14 4 = 0#4 ∧ fld w 10 4 = 0#4 then some (.ewaitWait (fld w 22 4) (fld w 18 4)) else if fld w 14 4 = 0#4 ∧ fld w 10 4 = 1#4 then some (.ewaitPoll (fld w 22 4) (fld w 18 4)) else none
  | 2 => some (.ecpy (fld w 22 4) (fld w 18 4) (fld w 14 4) (fld w 10 4))
  | 3 => if fld w 10 4 = 0#4 then some (.gleanOpen (fld w 22 4) (fld w 18 4) (fld w 14 4)) else if fld w 10 4 = 1#4 then some (.gleanClose (fld w 22 4) (fld w 18 4) (fld w 14 4)) else if fld w 10 4 = 2#4 then some (.gleanFlip (fld w 22 4) (fld w 18 4) (fld w 14 4)) else if fld w 10 4 = 3#4 then some (.gleanQuery (fld w 22 4) (fld w 18 4) (fld w 14 4)) else none
  | 4 => some (.tgsub (fld w 22 4) (fld w 18 4) (fld w 14 4) (fld w 10 4))
  | 5 => if fld w 18 4 = 0#4 ∧ fld w 14 4 = 0#4 ∧ fld w 10 4 = 0#4 then some (.tgnext (fld w 22 4)) else none
  | 6 => if fld w 10 4 = 0#4 then some (.tgdone (fld w 22 4) (fld w 18 4) (fld w 14 4)) else none
  | _ => none

/-- Major opcode 0x1E, format A (R74). -/
def decMajor1E (w : W32) : Option Instr :=
  match (fld w 10 4).toNat with
  | 0 => if fld w 9 1 = 0#1 ∧ fld w 8 1 = 0#1 ∧ fld w 7 1 = 0#1 ∧ fld w 3 4 = 0#4 ∧ fld w 0 3 = 0#3 then some (.wbind (fld w 22 4) (fld w 18 4) (fld w 14 4)) else none
  | 1 => if fld w 9 1 = 0#1 ∧ fld w 8 1 = 0#1 ∧ fld w 0 3 = 0#3 then some (.wpush (fld w 22 4) (fld w 18 4) (fld w 14 4) (bit w 7) (fld w 3 4)) else none
  | 2 => if fld w 9 1 = 0#1 ∧ fld w 8 1 = 0#1 ∧ fld w 0 3 = 0#3 then some (.wpull (fld w 22 4) (fld w 18 4) (fld w 14 4) (bit w 7) (fld w 3 4)) else none
  | 3 => if fld w 9 1 = 0#1 ∧ fld w 8 1 = 0#1 ∧ fld w 7 1 = 0#1 ∧ fld w 3 4 = 0#4 ∧ fld w 0 3 = 0#3 then some (.wdone (fld w 22 4) (fld w 18 4) (fld w 14 4)) else none
  | 4 => if fld w 0 3 = 0#3 then some (.amotopk (fld w 22 4) (fld w 18 4) (fld w 14 4) (bit w 9) (bit w 8) (bit w 7) (fld w 3 4)) else none
  | 5 => if fld w 0 3 = 0#3 then some (.amobinc (fld w 22 4) (fld w 18 4) (fld w 14 4) (bit w 9) (bit w 8) (bit w 7) (fld w 3 4)) else none
  | 6 => if fld w 14 4 = 0#4 ∧ fld w 9 1 = 0#1 ∧ fld w 8 1 = 0#1 ∧ fld w 7 1 = 0#1 ∧ fld w 3 4 = 0#4 ∧ fld w 0 3 = 0#3 then some (.msamp (fld w 22 4) (fld w 18 4)) else none
  | _ => none

/-- Major opcode 0x1F, format R (R74). -/
def decMajor1F (w : W32) : Option Instr :=
  match (fld w 0 10).toNat with
  | 0 => some (.rwr (fld w 22 4) (fld w 18 4) (fld w 14 4) (fld w 10 4))
  | 1 => some (.ramo (fld w 22 4) (fld w 18 4) (fld w 14 4) (fld w 10 4))
  | 2 => if fld w 14 4 = 0#4 then some (.rmsg (fld w 22 4) (fld w 18 4) (fld w 10 4)) else none
  | 3 => if fld w 14 4 = 0#4 then some (.rwake (fld w 22 4) (fld w 18 4) (fld w 10 4)) else none
  | 4 => if fld w 10 4 = 0#4 then some (.rlendLend (fld w 22 4) (fld w 18 4) (fld w 14 4)) else none
  | _ => none

/-- Major opcode 0x20, format R (R74). -/
def decMajor20 (w : W32) : Option Instr :=
  match (fld w 0 10).toNat with
  | 0 => if fld w 14 4 = 0#4 ∧ fld w 10 4 = 0#4 then some (.ckptArm (fld w 22 4) (fld w 18 4)) else none
  | 1 => if fld w 14 4 = 0#4 ∧ fld w 10 4 = 0#4 then some (.twilCouple (fld w 22 4) (fld w 18 4)) else none
  | 2 => if fld w 10 4 = 0#4 then some (.frecResume (fld w 22 4) (fld w 18 4) (fld w 14 4)) else none
  | _ => none

/-- A grain word by its major opcode; 0x00 and 0x21 and above are not grain instructions (R71, R74, R78). -/
def decodeRaw (w : W32) : Option Instr :=
  match (fld w 26 6).toNat with
  | 1 => decMajor01 w
  | 2 => decMajor02 w
  | 3 => decMajor03 w
  | 4 => decMajor04 w
  | 5 => decMajor05 w
  | 6 => decMajor06 w
  | 7 => decMajor07 w
  | 8 => decMajor08 w
  | 9 => decMajor09 w
  | 10 => decMajor0A w
  | 11 => decMajor0B w
  | 12 => decMajor0C w
  | 13 => decMajor0D w
  | 14 => decMajor0E w
  | 15 => decMajor0F w
  | 16 => decMajor10 w
  | 17 => decMajor11 w
  | 18 => decMajor12 w
  | 19 => decMajor13 w
  | 20 => decMajor14 w
  | 21 => decMajor15 w
  | 22 => decMajor16 w
  | 23 => decMajor17 w
  | 24 => decMajor18 w
  | 25 => decMajor19 w
  | 26 => decMajor1A w
  | 27 => decMajor1B w
  | 28 => decMajor1C w
  | 29 => decMajor1D w
  | 30 => decMajor1E w
  | 31 => decMajor1F w
  | 32 => decMajor20 w
  | _ => none

/-- Slot major opcode 0x28 (R76, R231). -/
def decSlot28 (w : W32) (lend : Byte) : Option Instr :=
  match (fld w 0 7).toNat with
  | 0 => if lend = 0#8 then some (.sadd (predOf w) (fld w 17 5) (fld w 12 5) (fld w 7 5)) else none
  | 1 => if lend = 0#8 then some (.ssub (predOf w) (fld w 17 5) (fld w 12 5) (fld w 7 5)) else none
  | 2 => if lend = 0#8 then some (.sand (predOf w) (fld w 17 5) (fld w 12 5) (fld w 7 5)) else none
  | 3 => if lend = 0#8 then some (.sor (predOf w) (fld w 17 5) (fld w 12 5) (fld w 7 5)) else none
  | 4 => if lend = 0#8 then some (.ssll (predOf w) (fld w 17 5) (fld w 12 5) (fld w 7 5)) else none
  | 5 => if lend = 0#8 then some (.ssrl (predOf w) (fld w 17 5) (fld w 12 5) (fld w 7 5)) else none
  | 6 => if lend = 0#8 then some (.smul (predOf w) (fld w 17 5) (fld w 12 5) (fld w 7 5)) else none
  | 7 => if lend = 0#8 then some (.scmp (predOf w) (fld w 17 2) (fld w 19 3) (fld w 12 5) (fld w 7 5)) else none
  | _ => none

/-- Slot major opcode 0x29 (R76, R231). -/
def decSlot29 (w : W32) (lend : Byte) : Option Instr :=
  match (fld w 0 7).toNat with
  | 0 => some (.saddi (predOf w) (fld w 17 5) (fld w 12 5) (lend ++ fld w 7 5))
  | 1 => some (.smovi (predOf w) (fld w 17 5) (lend ++ fld w 7 10))
  | _ => none

/-- Slot major opcode 0x2A (R76, R231). -/
def decSlot2A (w : W32) (lend : Byte) : Option Instr :=
  match (fld w 0 7).toNat with
  | 0 => if fld w 17 5 = 0#5 ∧ lend.extractLsb' 2 6 = 0#6 then some (.sbr (predOf w) (lend.extractLsb' 0 2 ++ fld w 7 10)) else none
  | 1 => if lend.extractLsb' 2 6 = 0#6 then some (.sloop (predOf w) (fld w 17 5) (lend.extractLsb' 0 2 ++ fld w 7 10)) else none
  | _ => none

/-- Slot major opcode 0x2B (R76, R231). -/
def decSlot2B (w : W32) (lend : Byte) : Option Instr :=
  match (fld w 0 7).toNat with
  | 0 => if fld w 17 5 = 0#5 ∧ fld w 12 5 = 0#5 ∧ fld w 7 5 = 0#5 ∧ lend = 0#8 then some (.snop (predOf w)) else none
  | 1 => if fld w 12 5 = 0#5 ∧ fld w 7 5 = 0#5 ∧ lend = 0#8 then some (.snext (predOf w) (fld w 17 5)) else none
  | 2 => if fld w 17 5 = 0#5 ∧ fld w 7 5 = 0#5 ∧ lend = 0#8 then some (.srel (predOf w) (fld w 12 5)) else none
  | 3 => if fld w 17 5 = 0#5 ∧ fld w 12 5 = 0#5 ∧ fld w 7 5 = 0#5 ∧ lend = 0#8 then some (.sckpt (predOf w)) else none
  | 4 => if fld w 12 5 = 0#5 ∧ lend = 0#8 then some (.srsr (predOf w) (fld w 17 5) (fld w 7 5)) else none
  | 5 => if fld w 17 5 = 0#5 ∧ fld w 12 5 = 0#5 ∧ fld w 7 5 = 0#5 ∧ lend = 0#8 then some (.shalt (predOf w)) else none
  | _ => none

/-- Slot major opcode 0x2E (R76, R231). -/
def decSlot2E (w : W32) (lend : Byte) : Option Instr :=
  match (fld w 0 6).toNat with
  | 0 => if lend = 0#8 then some (.vadd (predOf w) (fld w 17 5) (fld w 12 5) (fld w 7 5) (bit w 6)) else none
  | 1 => if lend = 0#8 then some (.vsub (predOf w) (fld w 17 5) (fld w 12 5) (fld w 7 5) (bit w 6)) else none
  | 2 => if lend = 0#8 then some (.vand (predOf w) (fld w 17 5) (fld w 12 5) (fld w 7 5) (bit w 6)) else none
  | 3 => if lend = 0#8 then some (.vor (predOf w) (fld w 17 5) (fld w 12 5) (fld w 7 5) (bit w 6)) else none
  | 4 => if lend = 0#8 then some (.vxor (predOf w) (fld w 17 5) (fld w 12 5) (fld w 7 5) (bit w 6)) else none
  | 5 => if lend = 0#8 then some (.vsll (predOf w) (fld w 17 5) (fld w 12 5) (fld w 7 5) (bit w 6)) else none
  | 6 => if lend = 0#8 then some (.vsra (predOf w) (fld w 17 5) (fld w 12 5) (fld w 7 5) (bit w 6)) else none
  | _ => none

/-- Slot major opcode 0x2F (R76, R231). -/
def decSlot2F (w : W32) (lend : Byte) : Option Instr :=
  match (fld w 0 6).toNat with
  | 0 => some (.vfadd (predOf w) (fld w 17 5) (fld w 12 5) (fld w 7 5) (bit w 6) lend)
  | 1 => some (.vfmul (predOf w) (fld w 17 5) (fld w 12 5) (fld w 7 5) (bit w 6) lend)
  | 2 => some (.vfma (predOf w) (fld w 17 5) (fld w 12 5) (fld w 7 5) (bit w 6) lend)
  | 3 => some (.vfmax (predOf w) (fld w 17 5) (fld w 12 5) (fld w 7 5) (bit w 6) lend)
  | 4 => some (.vfmin (predOf w) (fld w 17 5) (fld w 12 5) (fld w 7 5) (bit w 6) lend)
  | _ => none

/-- Slot major opcode 0x30 (R76, R231). -/
def decSlot30 (w : W32) (lend : Byte) : Option Instr :=
  match (fld w 0 7).toNat with
  | 0 => some (.vnrw (predOf w) (fld w 17 5) (fld w 12 5) (fld w 7 5) lend)
  | 1 => some (.vwid (predOf w) (fld w 17 5) (fld w 12 5) (fld w 7 5) lend)
  | _ => none

/-- Slot major opcode 0x31 (R76, R231). -/
def decSlot31 (w : W32) (lend : Byte) : Option Instr :=
  match (fld w 0 7).toNat with
  | 0 => if fld w 7 5 = 0#5 ∧ lend = 0#8 then some (.vrsum (predOf w) (fld w 17 5) (fld w 12 5)) else none
  | 1 => if fld w 7 5 = 0#5 ∧ lend = 0#8 then some (.vrmax (predOf w) (fld w 17 5) (fld w 12 5)) else none
  | _ => none

/-- Slot major opcode 0x32 (R76, R231). -/
def decSlot32 (w : W32) (lend : Byte) : Option Instr :=
  match (fld w 0 6).toNat with
  | 0 => if fld w 7 5 = 0#5 ∧ lend = 0#8 then some (.vmov (predOf w) (fld w 17 5) (fld w 12 5) (bit w 6)) else none
  | 1 => if bit w 6 = false ∧ fld w 7 5 = 0#5 ∧ lend.extractLsb' 2 6 = 0#6 then some (.vmrd (predOf w) (fld w 17 5) (lend.extractLsb' 0 2 ++ fld w 12 5)) else none
  | 2 => if bit w 6 = false ∧ lend = 0#8 then some (.vmask (predOf w) (fld w 17 2) (fld w 19 3) (fld w 12 5) (fld w 7 5)) else none
  | _ => none

/-- Slot major opcode 0x35 (R76, R231). -/
def decSlot35 (w : W32) (lend : Byte) : Option Instr :=
  match (fld w 0 7).toNat with
  | 0 => if fld w 17 5 = 0#5 ∧ fld w 12 5 = 0#5 ∧ fld w 7 5 = 0#5 ∧ lend = 0#8 then some (.vnop (predOf w)) else none
  | 127 => if fld w 22 4 = 0#4 ∧ fld w 7 3 = 0#3 ∧ lend = 0#8 then some (.vfmt (fld w 10 12)) else none
  | _ => none

/-- Slot major opcode 0x36 (R76, R231). -/
def decSlot36 (w : W32) (lend : Byte) : Option Instr :=
  match (fld w 0 7).toNat with
  | 0 => if fld w 17 5 = 0#5 ∧ fld w 12 5 = 0#5 ∧ fld w 7 5 = 0#5 ∧ lend = 0#8 then some (.mbub (predOf w)) else none
  | 1 => if lend = 0#8 then some (.mpush (predOf w) (fld w 17 5) (fld w 12 5) (fld w 7 5)) else none
  | 2 => if lend = 0#8 then some (.mzpush (predOf w) (fld w 17 5) (fld w 12 5) (fld w 7 5)) else none
  | 3 => if fld w 17 5 = 0#5 ∧ lend = 0#8 then some (.mdrain (predOf w) (fld w 12 5) (fld w 7 5)) else none
  | _ => none

/-- Slot major opcode 0x37 (R76, R231). -/
def decSlot37 (w : W32) (lend : Byte) : Option Instr :=
  match (fld w 0 7).toNat with
  | 0 => some (.mset (predOf w) (fld w 17 5) (lend ++ fld w 7 10))
  | 1 => some (.madd (predOf w) (fld w 17 5) (fld w 12 5) (lend ++ fld w 7 5))
  | 127 => if fld w 22 4 = 0#4 ∧ fld w 7 3 = 0#3 ∧ lend = 0#8 then some (.mfmt (fld w 10 12)) else none
  | _ => none

/-- Slot major opcode 0x38 (R76, R231). -/
def decSlot38 (w : W32) (lend : Byte) : Option Instr :=
  match (fld w 0 7).toNat with
  | 0 => if lend = 0#8 then some (.xrq (predOf w) (fld w 17 5) (fld w 12 5) (fld w 7 5)) else none
  | 1 => if lend = 0#8 then some (.xwr (predOf w) (fld w 17 5) (fld w 12 5) (fld w 7 5)) else none
  | _ => none

/-- Slot major opcode 0x39 (R76, R231). -/
def decSlot39 (w : W32) (lend : Byte) : Option Instr :=
  match (fld w 0 7).toNat with
  | 0 => if fld w 12 5 = 0#5 ∧ lend = 0#8 then some (.xbrd (predOf w) (fld w 17 5) (fld w 7 5)) else none
  | 1 => if fld w 12 5 = 0#5 ∧ lend = 0#8 then some (.xbwr (predOf w) (fld w 17 5) (fld w 7 5)) else none
  | 2 => if fld w 17 5 = 0#5 ∧ lend = 0#8 then some (.xbld (predOf w) (fld w 12 5) (fld w 7 5)) else none
  | _ => none

/-- Slot major opcode 0x3A (R76, R231). -/
def decSlot3A (w : W32) (lend : Byte) : Option Instr :=
  match (fld w 0 7).toNat with
  | 0 => some (.xcpy (predOf w) (fld w 17 5) (fld w 12 5) (fld w 7 5) lend)
  | _ => none

/-- Slot major opcode 0x3B (R76, R231). -/
def decSlot3B (w : W32) (lend : Byte) : Option Instr :=
  match (fld w 0 7).toNat with
  | 0 => if fld w 17 5 = 0#5 ∧ fld w 12 5 = 0#5 ∧ fld w 7 5 = 0#5 ∧ lend = 0#8 then some (.xnop (predOf w)) else none
  | 1 => some (.xset (predOf w) (fld w 17 5) (fld w 12 5) (lend ++ fld w 7 5))
  | _ => none

/-- A slot word and its lent byte by the major opcode (R71, R76, R79). -/
def decodeSlotRaw (w : W32) (lend : Byte) : Option Instr :=
  match (fld w 26 6).toNat with
  | 40 => decSlot28 w lend
  | 41 => decSlot29 w lend
  | 42 => decSlot2A w lend
  | 43 => decSlot2B w lend
  | 46 => decSlot2E w lend
  | 47 => decSlot2F w lend
  | 48 => decSlot30 w lend
  | 49 => decSlot31 w lend
  | 50 => decSlot32 w lend
  | 53 => decSlot35 w lend
  | 54 => decSlot36 w lend
  | 55 => decSlot37 w lend
  | 56 => decSlot38 w lend
  | 57 => decSlot39 w lend
  | 58 => decSlot3A w lend
  | 59 => decSlot3B w lend
  | _ => none

/-- The grain decoder: the raw decoding when no field holds a reserved code (R78). -/
def decodeWord (w : W32) : Option Instr :=
  match decodeRaw w with
  | some i => if wellFormed i then some i else none
  | none => none

/-- The slot decoder: the raw decoding when no field holds a reserved value (R79). -/
def decodeSlot (w : W32) (lend : Byte) : Option Instr :=
  match decodeSlotRaw w lend with
  | some i => if wellFormed i then some i else none
  | none => none

/-- The instruction in the table's numbering of bits: a grain word, or a slot word with no lent byte (R71). -/
def decodeTableWord (_nbits w : Nat) : Option Instr :=
  match decodeWord (BitVec.ofNat 32 w) with
  | some i => some i
  | none => decodeSlot (BitVec.ofNat 32 w) 0

/-- The four bytes of a word in memory, lowest address first (R30). -/
def wordBytes (w : W32) : List Byte := [w.extractLsb' 0 8, w.extractLsb' 8 8, w.extractLsb' 16 8, w.extractLsb' 24 8]

/-- The word that four bytes in memory hold (R30). -/
def wordOf (b0 b1 b2 b3 : Byte) : W32 := b3 ++ b2 ++ b1 ++ b0

/-- A grain instruction from the bytes at its address (R30, R71); a second result is what follows it. -/
def decodeBytes : List Byte → Option (Instr × List Byte)
  | b0 :: b1 :: b2 :: b3 :: rest =>
    match decodeWord (wordOf b0 b1 b2 b3) with
    | some i => some (i, rest)
    | none => none
  | _ => none

/-! The encoder. -/

/-- Format R (R72). -/
def packR (op : BitVec 6) (d a b c : BitVec 4) (fn : BitVec 10) : W32 := op ++ d ++ a ++ b ++ c ++ fn
/-- Format I (R72). -/
def packI (op : BitVec 6) (d a fn : BitVec 4) (imm : BitVec 14) : W32 := op ++ d ++ a ++ fn ++ imm
/-- Format U (R72). -/
def packU (op : BitVec 6) (d : BitVec 4) (fn hx z : BitVec 2) (imm : BitVec 16) : W32 := op ++ d ++ fn ++ hx ++ z ++ imm
/-- Format B (R72). -/
def packB (op : BitVec 6) (a b : BitVec 4) (cond : BitVec 3) (off : BitVec 15) : W32 := op ++ a ++ b ++ cond ++ off
/-- Format J (R72). -/
def packJ (op : BitVec 6) (d : BitVec 4) (off : BitVec 22) : W32 := op ++ d ++ off
/-- Format M (R72). -/
def packM (op : BitVec 6) (t b : BitVec 4) (dc : BitVec 1) (cls : BitVec 4) (fn : BitVec 3) (off : BitVec 10) : W32 :=
  op ++ t ++ b ++ dc ++ cls ++ fn ++ off
/-- Format A (R72). -/
def packA (op : BitVec 6) (d a b fn : BitVec 4) (aq rl dc : BitVec 1) (cls : BitVec 4) (z : BitVec 3) : W32 :=
  op ++ d ++ a ++ b ++ fn ++ aq ++ rl ++ dc ++ cls ++ z
/-- Format F (R72). -/
def packF (op : BitVec 6) (scope : BitVec 3) (kind : BitVec 4) (z : BitVec 3) (mask : BitVec 16) : W32 :=
  op ++ scope ++ kind ++ z ++ mask
/-- Format P (R72). -/
def packP (op : BitVec 6) (z : BitVec 14) (p : BitVec 12) : W32 := op ++ z ++ p
/-- A slot word (R85). -/
def packS (op : BitVec 6) (p : Pred) (d a b : BitVec 5) (fn : BitVec 7) : W32 :=
  op ++ BitVec.ofBool p.pe ++ BitVec.ofBool p.pn ++ p.pi ++ d ++ a ++ b ++ fn
/-- A slot FMT word (R82). -/
def packPfx (op : BitVec 6) (payload : BitVec 12) : W32 := op ++ 0#4 ++ payload ++ 0#3 ++ 0x7F#7

/-- The word of an instruction and, for a slot operation, its lent byte; none for an event. -/
def encode : Instr → Option (W32 × Byte)
  | .add d a b => some (packR 1#6 d a b 0#4 0#10, 0#8)
  | .sub d a b => some (packR 1#6 d a b 0#4 1#10, 0#8)
  | .addw d a b => some (packR 1#6 d a b 0#4 2#10, 0#8)
  | .subw d a b => some (packR 1#6 d a b 0#4 3#10, 0#8)
  | .and_ d a b => some (packR 1#6 d a b 0#4 4#10, 0#8)
  | .or_ d a b => some (packR 1#6 d a b 0#4 5#10, 0#8)
  | .xor_ d a b => some (packR 1#6 d a b 0#4 6#10, 0#8)
  | .andn d a b => some (packR 1#6 d a b 0#4 7#10, 0#8)
  | .orn d a b => some (packR 1#6 d a b 0#4 8#10, 0#8)
  | .xnor d a b => some (packR 1#6 d a b 0#4 9#10, 0#8)
  | .sll d a b => some (packR 1#6 d a b 0#4 10#10, 0#8)
  | .srl d a b => some (packR 1#6 d a b 0#4 11#10, 0#8)
  | .sra d a b => some (packR 1#6 d a b 0#4 12#10, 0#8)
  | .rol d a b => some (packR 1#6 d a b 0#4 13#10, 0#8)
  | .ror d a b => some (packR 1#6 d a b 0#4 14#10, 0#8)
  | .sllw d a b => some (packR 1#6 d a b 0#4 15#10, 0#8)
  | .srlw d a b => some (packR 1#6 d a b 0#4 16#10, 0#8)
  | .sraw d a b => some (packR 1#6 d a b 0#4 17#10, 0#8)
  | .mul d a b => some (packR 2#6 d a b 0#4 0#10, 0#8)
  | .mulh d a b => some (packR 2#6 d a b 0#4 1#10, 0#8)
  | .mulhu d a b => some (packR 2#6 d a b 0#4 2#10, 0#8)
  | .mulw d a b => some (packR 2#6 d a b 0#4 3#10, 0#8)
  | .div d a b => some (packR 2#6 d a b 0#4 4#10, 0#8)
  | .divu d a b => some (packR 2#6 d a b 0#4 5#10, 0#8)
  | .rem d a b => some (packR 2#6 d a b 0#4 6#10, 0#8)
  | .remu d a b => some (packR 2#6 d a b 0#4 7#10, 0#8)
  | .addi d a imm => some (packI 3#6 d a 0#4 imm, 0#8)
  | .andi d a imm => some (packI 3#6 d a 1#4 imm, 0#8)
  | .ori d a imm => some (packI 3#6 d a 2#4 imm, 0#8)
  | .xori d a imm => some (packI 3#6 d a 3#4 imm, 0#8)
  | .slli d a sh => some (packI 3#6 d a 4#4 (0#8 ++ sh), 0#8)
  | .srli d a sh => some (packI 3#6 d a 5#4 (0#8 ++ sh), 0#8)
  | .srai d a sh => some (packI 3#6 d a 6#4 (0#8 ++ sh), 0#8)
  | .clz d a => some (packR 4#6 d a 0#4 0#4 0#10, 0#8)
  | .ctz d a => some (packR 4#6 d a 0#4 0#4 1#10, 0#8)
  | .popc d a => some (packR 4#6 d a 0#4 0#4 2#10, 0#8)
  | .brev d a => some (packR 4#6 d a 0#4 0#4 3#10, 0#8)
  | .bswap d a => some (packR 4#6 d a 0#4 0#4 4#10, 0#8)
  | .bext d a b => some (packR 4#6 d a b 0#4 5#10, 0#8)
  | .bins d a b c => some (packR 4#6 d a b c 6#10, 0#8)
  | .hash d a b => some (packR 5#6 d a b 0#4 0#10, 0#8)
  | .crc d a b z => some (packR 5#6 d a b z 1#10, 0#8)
  | .slt d a b => some (packR 6#6 d a b 0#4 0#10, 0#8)
  | .sltu d a b => some (packR 6#6 d a b 0#4 1#10, 0#8)
  | .seq d a b => some (packR 6#6 d a b 0#4 2#10, 0#8)
  | .sel d a b c => some (packR 6#6 d a b c 3#10, 0#8)
  | .hset d h imm => some (packU 7#6 d 0#2 h 0#2 imm, 0#8)
  | .hins d h imm => some (packU 7#6 d 1#2 h 0#2 imm, 0#8)
  | .beq a b off => some (packB 8#6 a b 0#3 off, 0#8)
  | .bne a b off => some (packB 8#6 a b 1#3 off, 0#8)
  | .blt a b off => some (packB 8#6 a b 2#3 off, 0#8)
  | .bge a b off => some (packB 8#6 a b 3#3 off, 0#8)
  | .bltu a b off => some (packB 8#6 a b 4#3 off, 0#8)
  | .bgeu a b off => some (packB 8#6 a b 5#3 off, 0#8)
  | .jal d off => some (packJ 9#6 d off, 0#8)
  | .jalr d a => some (packR 10#6 d a 0#4 0#4 0#10, 0#8)
  | .ret a => some (packR 10#6 0#4 a 0#4 0#4 1#10, 0#8)
  | .lb t b dc cls off => some (packM 11#6 t b (BitVec.ofBool dc) cls 0#3 off, 0#8)
  | .lbu t b dc cls off => some (packM 11#6 t b (BitVec.ofBool dc) cls 1#3 off, 0#8)
  | .lh t b dc cls off => some (packM 11#6 t b (BitVec.ofBool dc) cls 2#3 off, 0#8)
  | .lhu t b dc cls off => some (packM 11#6 t b (BitVec.ofBool dc) cls 3#3 off, 0#8)
  | .lw t b dc cls off => some (packM 11#6 t b (BitVec.ofBool dc) cls 4#3 off, 0#8)
  | .lwu t b dc cls off => some (packM 11#6 t b (BitVec.ofBool dc) cls 5#3 off, 0#8)
  | .ld t b dc cls off => some (packM 11#6 t b (BitVec.ofBool dc) cls 6#3 off, 0#8)
  | .sb t b dc cls off => some (packM 12#6 t b (BitVec.ofBool dc) cls 0#3 off, 0#8)
  | .sh t b dc cls off => some (packM 12#6 t b (BitVec.ofBool dc) cls 1#3 off, 0#8)
  | .sw t b dc cls off => some (packM 12#6 t b (BitVec.ofBool dc) cls 2#3 off, 0#8)
  | .sd t b dc cls off => some (packM 12#6 t b (BitVec.ofBool dc) cls 3#3 off, 0#8)
  | .pref l b dc cls off => some (packM 13#6 l b (BitVec.ofBool dc) cls 0#3 off, 0#8)
  | .fadd d a b => some (packR 14#6 d a b 0#4 0#10, 0#8)
  | .fsub d a b => some (packR 14#6 d a b 0#4 1#10, 0#8)
  | .fmul d a b => some (packR 14#6 d a b 0#4 2#10, 0#8)
  | .fdiv d a b => some (packR 14#6 d a b 0#4 3#10, 0#8)
  | .fsqrt d a => some (packR 14#6 d a 0#4 0#4 4#10, 0#8)
  | .fma d a b c => some (packR 14#6 d a b c 5#10, 0#8)
  | .fmin d a b => some (packR 14#6 d a b 0#4 6#10, 0#8)
  | .fmax d a b => some (packR 14#6 d a b 0#4 7#10, 0#8)
  | .fsgnj d a b m => some (packR 14#6 d a b m 8#10, 0#8)
  | .feq d a b => some (packR 14#6 d a b 0#4 9#10, 0#8)
  | .flt d a b => some (packR 14#6 d a b 0#4 10#10, 0#8)
  | .fle d a b => some (packR 14#6 d a b 0#4 11#10, 0#8)
  | .cvtf d a u => some (packR 15#6 d a 0#4 u 0#10, 0#8)
  | .cvti d a => some (packR 15#6 d a 0#4 0#4 1#10, 0#8)
  | .narrow d a b => some (packR 15#6 d a b 0#4 2#10, 0#8)
  | .widen d a b => some (packR 15#6 d a b 0#4 3#10, 0#8)
  | .pack d a b c => some (packR 15#6 d a b c 4#10, 0#8)
  | .unpack d a b => some (packR 15#6 d a b 0#4 5#10, 0#8)
  | .mkscl d a => some (packR 15#6 d a 0#4 0#4 6#10, 0#8)
  | .isect d a b w => some (packR 16#6 d a b w 0#10, 0#8)
  | .fmt p => some (packP 17#6 0#14 p, 0#8)
  | .nop => some (packR 18#6 0#4 0#4 0#4 0#4 0#10, 0#8)
  | .scall a => some (packR 18#6 0#4 a 0#4 0#4 1#10, 0#8)
  | .sret => some (packR 18#6 0#4 0#4 0#4 0#4 2#10, 0#8)
  | .trap a b => some (packR 18#6 0#4 a b 0#4 3#10, 0#8)
  | .idle => some (packR 18#6 0#4 0#4 0#4 0#4 4#10, 0#8)
  | .csrr d n => some (packI 19#6 d 0#4 0#4 (0#2 ++ n), 0#8)
  | .csrw d a n => some (packI 19#6 d a 1#4 (0#2 ++ n), 0#8)
  | .cstart d a b c => some (packR 20#6 d a b c 0#10, 0#8)
  | .cstop d a => some (packR 20#6 d a 0#4 0#4 1#10, 0#8)
  | .creap d a => some (packR 20#6 d a 0#4 0#4 2#10, 0#8)
  | .spawn d a b => some (packR 21#6 d a b 0#4 0#10, 0#8)
  | .rfork d a b c => some (packR 21#6 d a b c 1#10, 0#8)
  | .join a => some (packR 21#6 0#4 a 0#4 0#4 2#10, 0#8)
  | .jwait a => some (packR 21#6 0#4 a 0#4 0#4 3#10, 0#8)
  | .launch d a => some (packR 21#6 d a 0#4 0#4 4#10, 0#8)
  | .lr d a aq rl dc cls => some (packA 22#6 d a 0#4 0#4 (BitVec.ofBool aq) (BitVec.ofBool rl) (BitVec.ofBool dc) cls 0#3, 0#8)
  | .sc d a b aq rl dc cls => some (packA 22#6 d a b 1#4 (BitVec.ofBool aq) (BitVec.ofBool rl) (BitVec.ofBool dc) cls 0#3, 0#8)
  | .fxswp d a b aq rl dc cls => some (packA 22#6 d a b 2#4 (BitVec.ofBool aq) (BitVec.ofBool rl) (BitVec.ofBool dc) cls 0#3, 0#8)
  | .fxadd d a b aq rl dc cls => some (packA 22#6 d a b 3#4 (BitVec.ofBool aq) (BitVec.ofBool rl) (BitVec.ofBool dc) cls 0#3, 0#8)
  | .fxand d a b aq rl dc cls => some (packA 22#6 d a b 4#4 (BitVec.ofBool aq) (BitVec.ofBool rl) (BitVec.ofBool dc) cls 0#3, 0#8)
  | .fxor d a b aq rl dc cls => some (packA 22#6 d a b 5#4 (BitVec.ofBool aq) (BitVec.ofBool rl) (BitVec.ofBool dc) cls 0#3, 0#8)
  | .fxxor d a b aq rl dc cls => some (packA 22#6 d a b 6#4 (BitVec.ofBool aq) (BitVec.ofBool rl) (BitVec.ofBool dc) cls 0#3, 0#8)
  | .fxmin d a b aq rl dc cls => some (packA 22#6 d a b 7#4 (BitVec.ofBool aq) (BitVec.ofBool rl) (BitVec.ofBool dc) cls 0#3, 0#8)
  | .fxmax d a b aq rl dc cls => some (packA 22#6 d a b 8#4 (BitVec.ofBool aq) (BitVec.ofBool rl) (BitVec.ofBool dc) cls 0#3, 0#8)
  | .fxminu d a b aq rl dc cls => some (packA 22#6 d a b 9#4 (BitVec.ofBool aq) (BitVec.ofBool rl) (BitVec.ofBool dc) cls 0#3, 0#8)
  | .fxmaxu d a b aq rl dc cls => some (packA 22#6 d a b 10#4 (BitVec.ofBool aq) (BitVec.ofBool rl) (BitVec.ofBool dc) cls 0#3, 0#8)
  | .fxcas d a b aq rl dc cls => some (packA 22#6 d a b 11#4 (BitVec.ofBool aq) (BitVec.ofBool rl) (BitVec.ofBool dc) cls 0#3, 0#8)
  | .amofadd d a b aq rl dc cls => some (packA 22#6 d a b 12#4 (BitVec.ofBool aq) (BitVec.ofBool rl) (BitVec.ofBool dc) cls 0#3, 0#8)
  | .wrs => some (packA 22#6 0#4 0#4 0#4 13#4 0#1 0#1 0#1 0#4 0#3, 0#8)
  | .ldfe t b dc cls off => some (packM 23#6 t b (BitVec.ofBool dc) cls 0#3 off, 0#8)
  | .stfe t b dc cls off => some (packM 23#6 t b (BitVec.ofBool dc) cls 1#3 off, 0#8)
  | .ldff t b dc cls off => some (packM 23#6 t b (BitVec.ofBool dc) cls 2#3 off, 0#8)
  | .feset l b dc cls off => some (packM 23#6 l b (BitVec.ofBool dc) cls 3#3 off, 0#8)
  | .fence scope kind mask => some (packF 24#6 scope kind 0#3 mask, 0#8)
  | .gadd a b t rl dc cls => some (packA 25#6 0#4 a b t 0#1 (BitVec.ofBool rl) (BitVec.ofBool dc) cls 0#3, 0#8)
  | .barc d a => some (packR 26#6 d a 0#4 0#4 0#10, 0#8)
  | .barw d a => some (packR 26#6 d a 0#4 0#4 1#10, 0#8)
  | .migr d a => some (packR 26#6 d a 0#4 0#4 2#10, 0#8)
  | .bopen d a b c => some (packR 27#6 d a b c 0#10, 0#8)
  | .bvalid d a b => some (packR 27#6 d a b 0#4 1#10, 0#8)
  | .sealBolt d a => some (packR 27#6 d a 0#4 0#4 2#10, 0#8)
  | .bqueryStatus d a => some (packR 27#6 d a 0#4 0#4 3#10, 0#8)
  | .bqueryMaskLow d a => some (packR 27#6 d a 0#4 1#4 3#10, 0#8)
  | .bqueryMaskHigh d a => some (packR 27#6 d a 0#4 2#4 3#10, 0#8)
  | .babort d a => some (packR 27#6 d a 0#4 0#4 4#10, 0#8)
  | .bwait d a => some (packR 27#6 d a 0#4 0#4 5#10, 0#8)
  | .btime d a b => some (packR 27#6 d a b 0#4 6#10, 0#8)
  | .cflush d a b => some (packR 28#6 d a b 0#4 0#10, 0#8)
  | .cinv d a b => some (packR 28#6 d a b 0#4 1#10, 0#8)
  | .cdisc d a b => some (packR 28#6 d a b 0#4 2#10, 0#8)
  | .tlbinv d a b => some (packR 28#6 d a b 0#4 3#10, 0#8)
  | .atrans d a b => some (packR 28#6 d a b 0#4 4#10, 0#8)
  | .ejob d a => some (packR 29#6 d a 0#4 0#4 0#10, 0#8)
  | .ewaitWait d a => some (packR 29#6 d a 0#4 0#4 1#10, 0#8)
  | .ewaitPoll d a => some (packR 29#6 d a 0#4 1#4 1#10, 0#8)
  | .ecpy d a b c => some (packR 29#6 d a b c 2#10, 0#8)
  | .gleanOpen d a b => some (packR 29#6 d a b 0#4 3#10, 0#8)
  | .gleanClose d a b => some (packR 29#6 d a b 1#4 3#10, 0#8)
  | .gleanFlip d a b => some (packR 29#6 d a b 2#4 3#10, 0#8)
  | .gleanQuery d a b => some (packR 29#6 d a b 3#4 3#10, 0#8)
  | .tgsub d a b c => some (packR 29#6 d a b c 4#10, 0#8)
  | .tgnext d => some (packR 29#6 d 0#4 0#4 0#4 5#10, 0#8)
  | .tgdone d a b => some (packR 29#6 d a b 0#4 6#10, 0#8)
  | .tgdoneRequeue d a b => some (packR 29#6 d a b 0#4 6#10, 0#8)
  | .wbind d a b => some (packA 30#6 d a b 0#4 0#1 0#1 0#1 0#4 0#3, 0#8)
  | .wbindUnbind d a b => some (packA 30#6 d a b 0#4 0#1 0#1 0#1 0#4 0#3, 0#8)
  | .wpush d a b dc cls => some (packA 30#6 d a b 1#4 0#1 0#1 (BitVec.ofBool dc) cls 0#3, 0#8)
  | .wpull d a b dc cls => some (packA 30#6 d a b 2#4 0#1 0#1 (BitVec.ofBool dc) cls 0#3, 0#8)
  | .wdone d a b => some (packA 30#6 d a b 3#4 0#1 0#1 0#1 0#4 0#3, 0#8)
  | .amotopk d a b aq rl dc cls => some (packA 30#6 d a b 4#4 (BitVec.ofBool aq) (BitVec.ofBool rl) (BitVec.ofBool dc) cls 0#3, 0#8)
  | .amobinc d a b aq rl dc cls => some (packA 30#6 d a b 5#4 (BitVec.ofBool aq) (BitVec.ofBool rl) (BitVec.ofBool dc) cls 0#3, 0#8)
  | .msamp d a => some (packA 30#6 d a 0#4 6#4 0#1 0#1 0#1 0#4 0#3, 0#8)
  | .rwr d a b c => some (packR 31#6 d a b c 0#10, 0#8)
  | .ramo d a b c => some (packR 31#6 d a b c 1#10, 0#8)
  | .rmsg d a c => some (packR 31#6 d a 0#4 c 2#10, 0#8)
  | .rwake d a c => some (packR 31#6 d a 0#4 c 3#10, 0#8)
  | .rlendLend d a b => some (packR 31#6 d a b 0#4 4#10, 0#8)
  | .rlendRecall d a b => some (packR 31#6 d a b 0#4 4#10, 0#8)
  | .rlendQuery d a b => some (packR 31#6 d a b 0#4 4#10, 0#8)
  | .ckptArm d a => some (packR 32#6 d a 0#4 0#4 0#10, 0#8)
  | .ckptDisarm d a => some (packR 32#6 d a 0#4 0#4 0#10, 0#8)
  | .ckptQuery d a => some (packR 32#6 d a 0#4 0#4 0#10, 0#8)
  | .twilCouple d a => some (packR 32#6 d a 0#4 0#4 1#10, 0#8)
  | .twilUncouple d a => some (packR 32#6 d a 0#4 0#4 1#10, 0#8)
  | .frecResume d a b => some (packR 32#6 d a b 0#4 2#10, 0#8)
  | .frecSkip d a b => some (packR 32#6 d a b 0#4 2#10, 0#8)
  | .frecGoto d a b => some (packR 32#6 d a b 0#4 2#10, 0#8)
  | .frecSave d a b => some (packR 32#6 d a b 0#4 2#10, 0#8)
  | .frecLoad d a b => some (packR 32#6 d a b 0#4 2#10, 0#8)
  | .frecLresume d a b => some (packR 32#6 d a b 0#4 2#10, 0#8)
  | .frecLdrop d a b => some (packR 32#6 d a b 0#4 2#10, 0#8)
  | .frecLend d a b => some (packR 32#6 d a b 0#4 2#10, 0#8)
  | .frecLring d a b => some (packR 32#6 d a b 0#4 2#10, 0#8)
  | .frecGpre d a b => some (packR 32#6 d a b 0#4 2#10, 0#8)
  | .frecGrest d a b => some (packR 32#6 d a b 0#4 2#10, 0#8)
  | .sadd p d a b => some (packS 40#6 p d a b 0#7, 0#8)
  | .ssub p d a b => some (packS 40#6 p d a b 1#7, 0#8)
  | .sand p d a b => some (packS 40#6 p d a b 2#7, 0#8)
  | .sor p d a b => some (packS 40#6 p d a b 3#7, 0#8)
  | .ssll p d a b => some (packS 40#6 p d a b 4#7, 0#8)
  | .ssrl p d a b => some (packS 40#6 p d a b 5#7, 0#8)
  | .smul p d a b => some (packS 40#6 p d a b 6#7, 0#8)
  | .scmp p n cc a b => some (packS 40#6 p (cc ++ n) a b 7#7, 0#8)
  | .saddi p d a imm => some (packS 41#6 p d a (imm.extractLsb' 0 5) 0#7, (imm.extractLsb' 5 8))
  | .smovi p d imm => some (packS 41#6 p d (imm.extractLsb' 5 5) (imm.extractLsb' 0 5) 1#7, (imm.extractLsb' 10 8))
  | .sbr p t => some (packS 42#6 p 0#5 (t.extractLsb' 5 5) (t.extractLsb' 0 5) 0#7, (0#6 ++ t.extractLsb' 10 2))
  | .sloop p d t => some (packS 42#6 p d (t.extractLsb' 5 5) (t.extractLsb' 0 5) 1#7, (0#6 ++ t.extractLsb' 10 2))
  | .snop p => some (packS 43#6 p 0#5 0#5 0#5 0#7, 0#8)
  | .snext p d => some (packS 43#6 p d 0#5 0#5 1#7, 0#8)
  | .srel p a => some (packS 43#6 p 0#5 a 0#5 2#7, 0#8)
  | .sckpt p => some (packS 43#6 p 0#5 0#5 0#5 3#7, 0#8)
  | .srsr p d b => some (packS 43#6 p d 0#5 b 4#7, 0#8)
  | .shalt p => some (packS 43#6 p 0#5 0#5 0#5 5#7, 0#8)
  | .vadd p d a b fwd => some (packS 46#6 p d a b (BitVec.ofBool fwd ++ 0#6), 0#8)
  | .vsub p d a b fwd => some (packS 46#6 p d a b (BitVec.ofBool fwd ++ 1#6), 0#8)
  | .vand p d a b fwd => some (packS 46#6 p d a b (BitVec.ofBool fwd ++ 2#6), 0#8)
  | .vor p d a b fwd => some (packS 46#6 p d a b (BitVec.ofBool fwd ++ 3#6), 0#8)
  | .vxor p d a b fwd => some (packS 46#6 p d a b (BitVec.ofBool fwd ++ 4#6), 0#8)
  | .vsll p d a b fwd => some (packS 46#6 p d a b (BitVec.ofBool fwd ++ 5#6), 0#8)
  | .vsra p d a b fwd => some (packS 46#6 p d a b (BitVec.ofBool fwd ++ 6#6), 0#8)
  | .vfadd p d a b fwd lend => some (packS 47#6 p d a b (BitVec.ofBool fwd ++ 0#6), lend)
  | .vfmul p d a b fwd lend => some (packS 47#6 p d a b (BitVec.ofBool fwd ++ 1#6), lend)
  | .vfma p d a b fwd lend => some (packS 47#6 p d a b (BitVec.ofBool fwd ++ 2#6), lend)
  | .vfmax p d a b fwd lend => some (packS 47#6 p d a b (BitVec.ofBool fwd ++ 3#6), lend)
  | .vfmin p d a b fwd lend => some (packS 47#6 p d a b (BitVec.ofBool fwd ++ 4#6), lend)
  | .vnrw p d a b lend => some (packS 48#6 p d a b 0#7, lend)
  | .vwid p d a b lend => some (packS 48#6 p d a b 1#7, lend)
  | .vrsum p d a => some (packS 49#6 p d a 0#5 0#7, 0#8)
  | .vrmax p d a => some (packS 49#6 p d a 0#5 1#7, 0#8)
  | .vmov p d a fwd => some (packS 50#6 p d a 0#5 (BitVec.ofBool fwd ++ 0#6), 0#8)
  | .vmrd p d row => some (packS 50#6 p d (row.extractLsb' 0 5) 0#5 1#7, (0#6 ++ row.extractLsb' 5 2))
  | .vmask p n cc a b => some (packS 50#6 p (cc ++ n) a b 2#7, 0#8)
  | .vnop p => some (packS 53#6 p 0#5 0#5 0#5 0#7, 0#8)
  | .mbub p => some (packS 54#6 p 0#5 0#5 0#5 0#7, 0#8)
  | .mpush p step a b => some (packS 54#6 p step a b 1#7, 0#8)
  | .mzpush p step a b => some (packS 54#6 p step a b 2#7, 0#8)
  | .mdrain p a b => some (packS 54#6 p 0#5 a b 3#7, 0#8)
  | .mset p d imm => some (packS 55#6 p d (imm.extractLsb' 5 5) (imm.extractLsb' 0 5) 0#7, (imm.extractLsb' 10 8))
  | .madd p d a imm => some (packS 55#6 p d a (imm.extractLsb' 0 5) 1#7, (imm.extractLsb' 5 8))
  | .xrq p flags a b => some (packS 56#6 p flags a b 0#7, 0#8)
  | .xwr p flags a b => some (packS 56#6 p flags a b 1#7, 0#8)
  | .xbrd p flags b => some (packS 57#6 p flags 0#5 b 0#7, 0#8)
  | .xbwr p flags b => some (packS 57#6 p flags 0#5 b 1#7, 0#8)
  | .xbld p a b => some (packS 57#6 p 0#5 a b 2#7, 0#8)
  | .xcpy p d a b lend => some (packS 58#6 p d a b 0#7, lend)
  | .xnop p => some (packS 59#6 p 0#5 0#5 0#5 0#7, 0#8)
  | .xset p d a imm => some (packS 59#6 p d a (imm.extractLsb' 0 5) 1#7, (imm.extractLsb' 5 8))
  | .vfmt payload => some (packPfx 53#6 payload, 0#8)
  | .mfmt payload => some (packPfx 55#6 payload, 0#8)
  | .bundleDispatch => none
  | .loomResultLands => none
  | .queueRowPlaced => none
  | .arrayBeat => none
  | .drainColumnWrite => none
  | .bstoreWriteLands => none
  | .lateFaultFreeze => none
  | .shaltStop => none
  | .replyArrival => none
  | .storeAcknowledgement => none
  | .lateRefusal => none
  | .trapEntry => none
  | .fetchMissFill => none
  | .spawnArrival => none
  | .rforkResume => none
  | .migrationGrant => none
  | .migrationAccept => none
  | .migratedReply => none
  | .forwardEntryLapse => none
  | .reservationRegister => none
  | .homeStore => none
  | .servingSliceLoad => none
  | .fullEmptyAtHome => none
  | .fullEmptyResend => none
  | .bankAccess => none
  | .jwaitWake => none
  | .barrierArrival => none
  | .barcDone => none
  | .barwTapRise => none
  | .barwDone => none
  | .barrierTimeout => none
  | .gangAdmission => none
  | .sheafRelease => none
  | .stookRelease => none
  | .rickReady => none
  | .rickGo => none
  | .rickHold => none
  | .rickGuardExpiry => none
  | .rickRelease => none
  | .gangRetire => none
  | .completionRecordWrite => none
  | .wakeFloodArrival => none
  | .chipPartReport => none
  | .preemptRequestArrival => none
  | .gangStop => none
  | .clusterSave => none
  | .clusterRestore => none
  | .watchdogWaitExpiry => none
  | .watchdogPreExpiry => none
  | .gangEnd => none
  | .correctableErrorCore => none
  | .coreFreezeEnd => none
  | .correctableErrorLoom => none
  | .loomFreezeEnd => none
  | .dataError => none
  | .rollbackOutcome => none
  | .twillCompare => none
  | .twillTimeout => none
  | .ctTick => none
  | .boltTimerExpiry => none
  | .pressureSeal => none
  | .bopenServe => none
  | .boltPost => none
  | .accumJoin => none
  | .accumGrant => none
  | .partialEvict => none
  | .coreRecall => none
  | .sliceAtomicOp => none
  | .routerMerge => none
  | .rds => none
  | .rdx => none
  | .upg => none
  | .ajn => none
  | .aev => none
  | .putMsg => none
  | .wb => none
  | .dataMsg => none
  | .gnt => none
  | .agnt => none
  | .fws => none
  | .fwb => none
  | .fack => none
  | .invMsg => none
  | .iack => none
  | .rcl => none
  | .plist => none
  | .mrg => none
  | .wback => none
  | .cmp => none
  | .hostPortRead => none
  | .hostPortWrite => none
  | .hostScratchpadAccess => none
  | .walkRequest => none
  | .walkComplete => none
  | .walkResend => none
  | .jobAccept => none
  | .engineRequest => none
  | .jobRetire => none
  | .ecpyRetire => none
  | .walkBlock => none
  | .walkBTileWaitEnd => none
  | .walkOpenServed => none
  | .gleanPrefetchRow => none
  | .messageTake => none
  | .remoteMessageArrival => none
  | .rwrPerform => none
  | .rwrBoltWrite => none
  | .ramoPerform => none
  | .rmsgRun => none
  | .remoteStatusArrival => none
  | .wakeArrival => none
  | .flitCrcFail => none
  | .laneTrainingFail => none
  | .linkDown => none
  | .syncFlit => none
  | .recallAck => none
  | .recallLost => none
  | .monitorSample => none
  | .powerOn => none
  | .deviceReset => none
  | .bootTreeSend => none
  | .chipForward => none
  | .securityAlarm => none
  | .thermalWarn => none
  | .thermalTrip => none
  | .tfltRelease => none
  | .tfltNomapTrap => none
  | .bpoolWrite => none
  | .asrootWrite => none
  | .stslotWrite => none
  | .lsrWrite => none
  | .moncfgClr => none
  | .slctlPre => none
  | .slctlEnd => none
  | .slctlRestore => none
  | .ckctlFlush => none
  | .ckctlFlushDone => none
  | .tcmdLoad => none
  | .tcmdAttest => none
  | .tcmdEnroll => none
  | .tcmdFwupd => none
  | .launchDoorbell => none
  | .hostWakeWrite => none
  | .routeTableWrite => none
  | .registerWrite => none
  | .illegalInstruction => none
  | .lineStep => none

/-- The row that the decoder gives for an instruction's word: where a register of the grain tells rows of one word apart, the
first of them (R74; log entry 6). -/
def coreRow : Instr → Instr
  | .tgdoneRequeue d a b => .tgdone d a b
  | .wbindUnbind d a b => .wbind d a b
  | .rlendRecall d a b => .rlendLend d a b
  | .rlendQuery d a b => .rlendLend d a b
  | .ckptDisarm d a => .ckptArm d a
  | .ckptQuery d a => .ckptArm d a
  | .twilUncouple d a => .twilCouple d a
  | .frecSkip d a b => .frecResume d a b
  | .frecGoto d a b => .frecResume d a b
  | .frecSave d a b => .frecResume d a b
  | .frecLoad d a b => .frecResume d a b
  | .frecLresume d a b => .frecResume d a b
  | .frecLdrop d a b => .frecResume d a b
  | .frecLend d a b => .frecResume d a b
  | .frecLring d a b => .frecResume d a b
  | .frecGpre d a b => .frecResume d a b
  | .frecGrest d a b => .frecResume d a b
  | i => i

/-- The instruction read from a word and its lent byte: a grain instruction, or else a slot operation. -/
def readBack (p : W32 × Byte) : Option Instr :=
  match decodeWord p.1 with
  | some i => some i
  | none => decodeSlot p.1 p.2

/-- The word of a grain instruction, for a trap record (R404); zero for what has none. -/
def wordOfInstr (i : Instr) : W32 :=
  match encode i with
  | some (w, _) => w
  | none => 0

end Sys2Proof
end

