-- ==== Sys2Proof/Event.lean ====
section
/-!
DEFINITION. The contents of each event: which unit it happens at, and what the message or request carries. One constructor
per event row of the table; `Ev.instr` names the row.
-/

namespace Sys2Proof

/-- An event of the part, with its contents. -/
inductive Ev where
  /-- No event. -/
  | none
  /-- BUNDLE_DISPATCH (R196). -/
  | bundleDispatch (l : Nat)
  /-- LOOM_RESULT_LANDS (R206). -/
  | loomResultLands (l : Nat)
  /-- QUEUE_ROW_PLACED (R209). -/
  | queueRowPlaced (l : Nat)
  /-- ARRAY_BEAT (R214). -/
  | arrayBeat (l : Nat)
  /-- DRAIN_COLUMN_WRITE (R220). -/
  | drainColumnWrite (l : Nat)
  /-- BSTORE_WRITE_LANDS (R224). -/
  | bstoreWriteLands (l : Nat)
  /-- LATE_FAULT_FREEZE (R411). -/
  | lateFaultFreeze (l : Nat)
  /-- SHALT_STOP (R243). -/
  | shaltStop (l : Nat)
  /-- REPLY_ARRIVAL (R142). -/
  | replyArrival (c : Nat) (r : Reply)
  /-- STORE_ACKNOWLEDGEMENT (R123). -/
  | storeAcknowledgement (c : Nat) (id : Nat) (a : Ack)
  /-- LATE_REFUSAL (R475). -/
  | lateRefusal (c : Nat) (id : Nat) (ia va : W64)
  /-- TRAP_ENTRY (R407). -/
  | trapEntry (core : Nat)
  /-- FETCH_MISS_FILL (R474). -/
  | fetchMissFill (c : Nat) (line : Nat) (data : LineData)
  /-- SPAWN_ARRIVAL (R151). -/
  | spawnArrival (r : SpawnReq)
  /-- RFORK_RESUME (R152). -/
  | rforkResume (c id : Nat) (d : BitVec 4) (v : W64)
  /-- MIGRATION_GRANT (R160). -/
  | migrationGrant (c : Nat) (home : Nat) (req : Option Nat) (d : BitVec 4) (pc : W64)
  /-- MIGRATION_ACCEPT (R160). -/
  | migrationAccept (src : Nat) (dst : Nat) (m : MigMsg) (d : BitVec 4) (req : Option Nat)
  /-- MIGRATED_REPLY (R161). -/
  | migratedReply (c : Nat) (r : Reply)
  /-- FORWARD_ENTRY_LAPSE (R161). -/
  | forwardEntryLapse (core : Nat) (id : Nat)
  /-- RESERVATION_REGISTER (R178). -/
  | reservationRegister (slice : Nat) (r : Req)
  /-- HOME_STORE (R333). -/
  | homeStore (r : Req)
  /-- SERVING_SLICE_LOAD (R332). -/
  | servingSliceLoad (r : Req)
  /-- FULL_EMPTY_AT_HOME (R182). -/
  | fullEmptyAtHome (r : Req)
  /-- FULL_EMPTY_RESEND (R183). -/
  | fullEmptyResend (r : Req)
  /-- BANK_ACCESS (R291). -/
  | bankAccess (r : Req)
  /-- JWAIT_WAKE (R171). -/
  | jwaitWake (pa : Nat)
  /-- BARRIER_ARRIVAL (R189). -/
  | barrierArrival (c : Nat) (wire : Bool) (d : BitVec 4) (rec : W64)
  /-- BARC_DONE (R190). -/
  | barcDone (g : Nat) (cl : Nat)
  /-- BARW_TAP_RISE (R190). -/
  | barwTapRise (g : Nat) (cl : Nat)
  /-- BARW_DONE (R190). -/
  | barwDone (g : Nat)
  /-- BARRIER_TIMEOUT (R191). -/
  | barrierTimeout (c : Nat) (token : Nat)
  /-- GANG_ADMISSION (R154). -/
  | gangAdmission (die : Nat) (slot : BitVec 4)
  /-- SHEAF_RELEASE (R154). -/
  | sheafRelease (g : Nat)
  /-- STOOK_RELEASE (R154). -/
  | stookRelease (g : Nat)
  /-- RICK_READY (R417). -/
  | rickReady (chip : Nat) (g : Nat) (l : Option Link)
  /-- RICK_GO (R417). -/
  | rickGo (g : Nat) (start : W64) (l : Option Link)
  /-- RICK_HOLD (R417). -/
  | rickHold (g : Nat) (start : W64) (l : Option Link)
  /-- RICK_GUARD_EXPIRY (R417). -/
  | rickGuardExpiry (g : Nat) (token : Nat)
  /-- RICK_RELEASE (R417). -/
  | rickRelease (g : Nat) (token : Nat)
  /-- GANG_RETIRE (R155). -/
  | gangRetire (g : Nat)
  /-- COMPLETION_RECORD_WRITE (R174). -/
  | completionRecordWrite (n : Nat)
  /-- WAKE_FLOOD_ARRIVAL (R443). -/
  | wakeFloodArrival (l : Link) (slot : BitVec 4) (d : Desc)
  /-- CHIP_PART_REPORT (R443). -/
  | chipPartReport (l : Link) (lnum : BitVec 32) (status : BitVec 8) (info : W64)
  /-- PREEMPT_REQUEST_ARRIVAL (R413). -/
  | preemptRequestArrival (g : Nat) (cl : Nat) (l : Option Link)
  /-- GANG_STOP (R413). -/
  | gangStop (g : Nat) (die : Nat)
  /-- CLUSTER_SAVE (R416). -/
  | clusterSave (g : Nat) (cl : Nat)
  /-- CLUSTER_RESTORE (R416). -/
  | clusterRestore (g : Nat)
  /-- WATCHDOG_WAIT_EXPIRY (R415). -/
  | watchdogWaitExpiry (c : Nat) (token : Nat)
  /-- WATCHDOG_PRE_EXPIRY (R415). -/
  | watchdogPreExpiry (core : Nat) (g : Nat) (token : Nat)
  /-- GANG_END (R418). -/
  | gangEnd (slot : Option (BitVec 4)) (g : Nat) (status : BitVec 8) (info : W64)
  /-- CORRECTABLE_ERROR_CORE (R421). -/
  | correctableErrorCore (core : Nat)
  /-- CORE_FREEZE_END (R421). -/
  | coreFreezeEnd (core : Nat)
  /-- CORRECTABLE_ERROR_LOOM (R421). -/
  | correctableErrorLoom (l : Nat)
  /-- LOOM_FREEZE_END (R421). -/
  | loomFreezeEnd (l : Nat)
  /-- DATA_ERROR (R420). -/
  | dataError (l : Nat)
  /-- ROLLBACK_OUTCOME (R420). -/
  | rollbackOutcome (l : Nat)
  /-- TWILL_COMPARE (R423). -/
  | twillCompare (core : Nat) (ctx : Nat)
  /-- TWILL_TIMEOUT (R423). -/
  | twillTimeout (core : Nat) (ctx : Nat) (token : Nat)
  /-- CT_TICK (R331). -/
  | ctTick (die : Nat)
  /-- BOLT_TIMER_EXPIRY (R278). -/
  | boltTimerExpiry (cl : Nat) (e : Nat) (token : Nat)
  /-- PRESSURE_SEAL (R279). -/
  | pressureSeal (cl : Nat)
  /-- BOPEN_SERVE (R279). -/
  | bopenServe (cl : Nat)
  /-- BOLT_POST (R280). -/
  | boltPost (cl : Nat)
  /-- ACCUM_JOIN (R335). -/
  | accumJoin (core : Nat) (line : Nat) (tag : BitVec 4)
  /-- ACCUM_GRANT (R335). -/
  | accumGrant (core : Nat) (line : Nat) (tag : BitVec 4)
  /-- PARTIAL_EVICT (R337). -/
  | partialEvict (core : Nat) (line : Nat)
  /-- CORE_RECALL (R338): at the core with no answer yet, and then with its answer at the slice. -/
  | coreRecall (core : Nat) (line : Nat) (discard : Bool) (answer : Option Partial)
  /-- SLICE_ATOMIC_OP (R386). -/
  | sliceAtomicOp (r : Req)
  /-- ROUTER_MERGE (R389). -/
  | routerMerge (a : Nat) (b : Nat)
  /-- RDS (R347). -/
  | rds (line : Nat) (die : Nat) (ct : W64)
  /-- RDX (R347). -/
  | rdx (line : Nat)
  /-- UPG (R349). -/
  | upg (line : Nat)
  /-- AJN (R347). -/
  | ajn (line : Nat) (die : Nat) (tag : BitVec 4)
  /-- AEV (R336). -/
  | aev (line : Nat) (die : Nat)
  /-- PUT (R347). -/
  | putMsg (line : Nat) (die : Nat) (rts : W64)
  /-- WB (R349). -/
  | wb (line : Nat) (data : LineData) (fe : BitVec 16) (wts rts : W64)
  /-- DATA (R348). -/
  | dataMsg (line : Nat) (die : Nat) (g : Grant) (data : LineData) (fe : BitVec 16) (wts rts : W64)
  /-- GNT (R348). -/
  | gnt (line : Nat) (maxRts : W64)
  /-- AGNT (R335). -/
  | agnt (line : Nat) (die : Nat) (tag : BitVec 4)
  /-- FWS (R348). -/
  | fws (line : Nat) (a : Agent)
  /-- FWB (R348). -/
  | fwb (line : Nat)
  /-- FACK (R347). -/
  | fack (line : Nat) (data : Option (LineData × BitVec 16)) (inWb : Bool) (wts rts : W64)
  /-- INV (R348). -/
  | invMsg (line : Nat) (die : Nat)
  /-- IACK (R350). -/
  | iack (line : Nat) (die : Nat) (rts : W64)
  /-- RCL (R338). -/
  | rcl (line : Nat) (die : Nat) (discard : Bool)
  /-- PLIST (R338). -/
  | plist (line : Nat) (die : Nat) (lists : List (Nat × Partial))
  /-- MRG (R456). -/
  | mrg (line : Nat) (v : LineData) (fe : BitVec 16) (lists : List (Nat × Partial)) (maxRts : W64)
  /-- WBACK (R348). -/
  | wback (line : Nat) (die : Nat)
  /-- CMP (R346). -/
  | cmp (line : Nat)
  /-- HOST_PORT_READ (R477): as its port receives it, and then at the memory-side slice (R478). -/
  | hostPortRead (port : Nat) (addr : Nat) (len : Nat) (id : Nat) (there : Bool)
  /-- HOST_PORT_WRITE (R477), with the relaxed-ordering attribute (R447). -/
  | hostPortWrite (port : Nat) (addr : Nat) (bytes : List Byte) (relaxed there : Bool)
  /-- HOST_SCRATCHPAD_ACCESS (R478). -/
  | hostScratchpadAccess (port : Nat) (pa : Nat) (write : Option (List Byte)) (len : Nat) (id : Nat) (relaxed there : Bool)
  /-- WALK_REQUEST (R305). -/
  | walkRequest (w : Nat) (who : Nat) (slot : BitVec 4) (va : W64) (dirty : Bool)
  /-- WALK_COMPLETE (R305). -/
  | walkComplete (w no : Nat) (entry : W64)
  /-- WALK_RESEND (R305). -/
  | walkResend (w : Nat) (who : Nat) (slot : BitVec 4) (va : W64) (dirty : Bool)
  /-- JOB_ACCEPT (R360). -/
  | jobAccept (c : Nat) (card : List W64) (d : BitVec 4)
  /-- ENGINE_REQUEST (R361). -/
  | engineRequest (cl : Nat)
  /-- JOB_RETIRE (R359). -/
  | jobRetire (e : Nat) (code : BitVec 8)
  /-- ECPY_RETIRE (R367). -/
  | ecpyRetire (cl : Nat) (id : Nat)
  /-- WALK_BLOCK (R369). -/
  | walkBlock (cl : Nat)
  /-- WALK_B_TILE_WAIT_END (R369). -/
  | walkBTileWaitEnd (cl : Nat)
  /-- WALK_OPEN_SERVED (R369). -/
  | walkOpenServed (cl : Nat) (h : BitVec 32)
  /-- GLEAN_PREFETCH_ROW (R376). -/
  | gleanPrefetchRow (slice : Nat) (no : Nat)
  /-- MESSAGE_TAKE (R145). -/
  | messageTake (core : Nat)
  /-- REMOTE_MESSAGE_ARRIVAL (R432). -/
  | remoteMessageArrival (m : Msg)
  /-- RWR_PERFORM (R438). -/
  | rwrPerform (core : Nat) (m : Msg)
  /-- RWR_BOLT_WRITE (R438). -/
  | rwrBoltWrite (m : Msg)
  /-- RAMO_PERFORM (R439). -/
  | ramoPerform (core : Nat) (m : Msg)
  /-- RMSG_RUN (R440). -/
  | rmsgRun (core : Nat) (m : Msg)
  /-- REMOTE_STATUS_ARRIVAL (R437). -/
  | remoteStatusArrival (c : Nat) (id : Nat) (code : BitVec 8) (val : W64) (l : Option Link)
  /-- WAKE_ARRIVAL (R442). -/
  | wakeArrival (core : Nat) (val : W64)
  /-- FLIT_CRC_FAIL (R433). -/
  | flitCrcFail (port : Nat)
  /-- LANE_TRAINING_FAIL (R433). -/
  | laneTrainingFail (port : Nat)
  /-- LINK_DOWN (R434). -/
  | linkDown (port : Nat)
  /-- SYNC_FLIT (R431). -/
  | syncFlit (t : W64)
  /-- RECALL_ACK (R449). -/
  | recallAck (line : Nat) (l : Option Link)
  /-- RECALL_LOST (R449). -/
  | recallLost (frame : Nat)
  /-- MONITOR_SAMPLE (R399). -/
  | monitorSample (cl : Nat) (x : BitVec 32)
  /-- POWER_ON (R459). -/
  | powerOn
  /-- DEVICE_RESET (R459). -/
  | deviceReset
  /-- BOOT_TREE_SEND (R466). -/
  | bootTreeSend (die : Nat) (n : Nat) (r : Nat)
  /-- CHIP_FORWARD (R467). -/
  | chipForward (root : Nat) (pa : Nat) (slot : BitVec 4) (bytes : List Byte) (l : Option Link)
  /-- SECURITY_ALARM (R470). -/
  | securityAlarm (which : BitVec 3)
  /-- THERMAL_WARN (R473). -/
  | thermalWarn (tj : BitVec 16)
  /-- THERMAL_TRIP (R473). -/
  | thermalTrip (tj : BitVec 16)
  /-- TFLT_RELEASE (R307). -/
  | tfltRelease (core : Nat)
  /-- TFLT_NOMAP_TRAP (R307). -/
  | tfltNomapTrap (core : Nat)
  /-- BPOOL_WRITE (R269). -/
  | bpoolWrite (cl : Nat) (v : W64)
  /-- ASROOT_WRITE (R301). -/
  | asrootWrite (n : BitVec 4) (v : W64)
  /-- STSLOT_WRITE (R302). -/
  | stslotWrite (core : Nat) (v : W64)
  /-- LSR_WRITE (R227). -/
  | lsrWrite (cl : Nat) (v : W64)
  /-- MONCFG_CLR (R399). -/
  | moncfgClr (cl : Nat) (v : W64)
  /-- SLCTL_PRE (R413). -/
  | slctlPre (j : BitVec 4)
  /-- SLCTL_END (R418). -/
  | slctlEnd (j : BitVec 4)
  /-- SLCTL_RESTORE (R416). -/
  | slctlRestore (j : BitVec 4)
  /-- CKCTL_FLUSH (R451). -/
  | ckctlFlush
  /-- CKCTL_FLUSH_DONE (R451). -/
  | ckctlFlushDone
  /-- TCMD_LOAD (R464). -/
  | tcmdLoad (root : Nat) (targ0 targ1 : W64)
  /-- TCMD_ATTEST (R469). -/
  | tcmdAttest (targ0 : W64)
  /-- TCMD_ENROLL (R468). -/
  | tcmdEnroll (targ0 : W64)
  /-- TCMD_FWUPD (R468). -/
  | tcmdFwupd (targ0 : W64)
  /-- LAUNCH_DOORBELL (R172). -/
  | launchDoorbell (j : BitVec 4) (die pa : Nat)
  /-- HOST_WAKE_WRITE (R442). -/
  | hostWakeWrite (core : Nat) (val : W64)
  /-- ROUTE_TABLE_WRITE (R430). -/
  | routeTableWrite (chip : Nat) (ports : BitVec 18)
  /-- REGISTER_WRITE (R6). -/
  | registerWrite (port : Nat) (off : Nat) (v : W64)
  /-- ILLEGAL_INSTRUCTION (R78). -/
  | illegalInstruction (w : BitVec 32)
  /-- LINE_STEP (R309). -/
  | lineStep (line : Nat) (op : BitVec 2) (covered : Bool) (batch : Nat)
  deriving DecidableEq, Repr

/-- The row of the table that an event is an instance of; an absent event is none of them. -/
def Ev.instr : Ev → Option Instr
  | .none => Option.none
  | .bundleDispatch _ => some .bundleDispatch
  | .loomResultLands _ => some .loomResultLands
  | .queueRowPlaced _ => some .queueRowPlaced
  | .arrayBeat _ => some .arrayBeat
  | .drainColumnWrite _ => some .drainColumnWrite
  | .bstoreWriteLands _ => some .bstoreWriteLands
  | .lateFaultFreeze _ => some .lateFaultFreeze
  | .shaltStop _ => some .shaltStop
  | .replyArrival _ _ => some .replyArrival
  | .storeAcknowledgement _ _ _ => some .storeAcknowledgement
  | .lateRefusal _ _ _ _ => some .lateRefusal
  | .trapEntry _ => some .trapEntry
  | .fetchMissFill _ _ _ => some .fetchMissFill
  | .spawnArrival _ => some .spawnArrival
  | .rforkResume _ _ _ _ => some .rforkResume
  | .migrationGrant _ _ _ _ _ => some .migrationGrant
  | .migrationAccept _ _ _ _ _ => some .migrationAccept
  | .migratedReply _ _ => some .migratedReply
  | .forwardEntryLapse _ _ => some .forwardEntryLapse
  | .reservationRegister _ _ => some .reservationRegister
  | .homeStore _ => some .homeStore
  | .servingSliceLoad _ => some .servingSliceLoad
  | .fullEmptyAtHome _ => some .fullEmptyAtHome
  | .fullEmptyResend _ => some .fullEmptyResend
  | .bankAccess _ => some .bankAccess
  | .jwaitWake _ => some .jwaitWake
  | .barrierArrival _ _ _ _ => some .barrierArrival
  | .barcDone _ _ => some .barcDone
  | .barwTapRise _ _ => some .barwTapRise
  | .barwDone _ => some .barwDone
  | .barrierTimeout _ _ => some .barrierTimeout
  | .gangAdmission _ _ => some .gangAdmission
  | .sheafRelease _ => some .sheafRelease
  | .stookRelease _ => some .stookRelease
  | .rickReady _ _ _ => some .rickReady
  | .rickGo _ _ _ => some .rickGo
  | .rickHold _ _ _ => some .rickHold
  | .rickGuardExpiry _ _ => some .rickGuardExpiry
  | .rickRelease _ _ => some .rickRelease
  | .gangRetire _ => some .gangRetire
  | .completionRecordWrite _ => some .completionRecordWrite
  | .wakeFloodArrival _ _ _ => some .wakeFloodArrival
  | .chipPartReport _ _ _ _ => some .chipPartReport
  | .preemptRequestArrival _ _ _ => some .preemptRequestArrival
  | .gangStop _ _ => some .gangStop
  | .clusterSave _ _ => some .clusterSave
  | .clusterRestore _ => some .clusterRestore
  | .watchdogWaitExpiry _ _ => some .watchdogWaitExpiry
  | .watchdogPreExpiry _ _ _ => some .watchdogPreExpiry
  | .gangEnd _ _ _ _ => some .gangEnd
  | .correctableErrorCore _ => some .correctableErrorCore
  | .coreFreezeEnd _ => some .coreFreezeEnd
  | .correctableErrorLoom _ => some .correctableErrorLoom
  | .loomFreezeEnd _ => some .loomFreezeEnd
  | .dataError _ => some .dataError
  | .rollbackOutcome _ => some .rollbackOutcome
  | .twillCompare _ _ => some .twillCompare
  | .twillTimeout _ _ _ => some .twillTimeout
  | .ctTick _ => some .ctTick
  | .boltTimerExpiry _ _ _ => some .boltTimerExpiry
  | .pressureSeal _ => some .pressureSeal
  | .bopenServe _ => some .bopenServe
  | .boltPost _ => some .boltPost
  | .accumJoin _ _ _ => some .accumJoin
  | .accumGrant _ _ _ => some .accumGrant
  | .partialEvict _ _ => some .partialEvict
  | .coreRecall _ _ _ _ => some .coreRecall
  | .sliceAtomicOp _ => some .sliceAtomicOp
  | .routerMerge _ _ => some .routerMerge
  | .rds _ _ _ => some .rds
  | .rdx _ => some .rdx
  | .upg _ => some .upg
  | .ajn _ _ _ => some .ajn
  | .aev _ _ => some .aev
  | .putMsg _ _ _ => some .putMsg
  | .wb _ _ _ _ _ => some .wb
  | .dataMsg _ _ _ _ _ _ _ => some .dataMsg
  | .gnt _ _ => some .gnt
  | .agnt _ _ _ => some .agnt
  | .fws _ _ => some .fws
  | .fwb _ => some .fwb
  | .fack _ _ _ _ _ => some .fack
  | .invMsg _ _ => some .invMsg
  | .iack _ _ _ => some .iack
  | .rcl _ _ _ => some .rcl
  | .plist _ _ _ => some .plist
  | .mrg _ _ _ _ _ => some .mrg
  | .wback _ _ => some .wback
  | .cmp _ => some .cmp
  | .hostPortRead _ _ _ _ _ => some .hostPortRead
  | .hostPortWrite _ _ _ _ _ => some .hostPortWrite
  | .hostScratchpadAccess _ _ _ _ _ _ _ => some .hostScratchpadAccess
  | .walkRequest _ _ _ _ _ => some .walkRequest
  | .walkComplete _ _ _ => some .walkComplete
  | .walkResend _ _ _ _ _ => some .walkResend
  | .jobAccept _ _ _ => some .jobAccept
  | .engineRequest _ => some .engineRequest
  | .jobRetire _ _ => some .jobRetire
  | .ecpyRetire _ _ => some .ecpyRetire
  | .walkBlock _ => some .walkBlock
  | .walkBTileWaitEnd _ => some .walkBTileWaitEnd
  | .walkOpenServed _ _ => some .walkOpenServed
  | .gleanPrefetchRow _ _ => some .gleanPrefetchRow
  | .messageTake _ => some .messageTake
  | .remoteMessageArrival _ => some .remoteMessageArrival
  | .rwrPerform _ _ => some .rwrPerform
  | .rwrBoltWrite _ => some .rwrBoltWrite
  | .ramoPerform _ _ => some .ramoPerform
  | .rmsgRun _ _ => some .rmsgRun
  | .remoteStatusArrival _ _ _ _ _ => some .remoteStatusArrival
  | .wakeArrival _ _ => some .wakeArrival
  | .flitCrcFail _ => some .flitCrcFail
  | .laneTrainingFail _ => some .laneTrainingFail
  | .linkDown _ => some .linkDown
  | .syncFlit _ => some .syncFlit
  | .recallAck _ _ => some .recallAck
  | .recallLost _ => some .recallLost
  | .monitorSample _ _ => some .monitorSample
  | .powerOn => some .powerOn
  | .deviceReset => some .deviceReset
  | .bootTreeSend _ _ _ => some .bootTreeSend
  | .chipForward _ _ _ _ _ => some .chipForward
  | .securityAlarm _ => some .securityAlarm
  | .thermalWarn _ => some .thermalWarn
  | .thermalTrip _ => some .thermalTrip
  | .tfltRelease _ => some .tfltRelease
  | .tfltNomapTrap _ => some .tfltNomapTrap
  | .bpoolWrite _ _ => some .bpoolWrite
  | .asrootWrite _ _ => some .asrootWrite
  | .stslotWrite _ _ => some .stslotWrite
  | .lsrWrite _ _ => some .lsrWrite
  | .moncfgClr _ _ => some .moncfgClr
  | .slctlPre _ => some .slctlPre
  | .slctlEnd _ => some .slctlEnd
  | .slctlRestore _ => some .slctlRestore
  | .ckctlFlush => some .ckctlFlush
  | .ckctlFlushDone => some .ckctlFlushDone
  | .tcmdLoad _ _ _ => some .tcmdLoad
  | .tcmdAttest _ => some .tcmdAttest
  | .tcmdEnroll _ => some .tcmdEnroll
  | .tcmdFwupd _ => some .tcmdFwupd
  | .launchDoorbell _ _ _ => some .launchDoorbell
  | .hostWakeWrite _ _ => some .hostWakeWrite
  | .routeTableWrite _ _ => some .routeTableWrite
  | .registerWrite _ _ _ => some .registerWrite
  | .illegalInstruction _ => some .illegalInstruction
  | .lineStep _ _ _ _ => some .lineStep

end Sys2Proof
end

