-- ==== Sys2Proof/Machine/State.lean ====
section
/-!
DEFINITION. The state of one Ziton-2 package as plain data, its value right after reset, and the reasons for which a
step can stop. Every field's docstring names its width, the rule and section file that give it, and its reset value.
The part's two dies, its caches, engines, Looms and its controller Thatch are all in the one structure State; other
chips and hosts are outside it and reach it through events and outboxes.
-/

namespace Sys2Proof.Machine

/-- The reasons for which a step stops with a fault. No meaning of this model ends in one: the spec gives every
instruction and event an effect or a trap, and a trap is a next state. -/
inductive Fault where
  /-- Reserved for an access that the spec does not let happen; raised by nothing (safe). -/
  | impossible
  deriving DecidableEq, Repr

/-- The reasons for which a step is refused. -/
inductive Refusal where
  /-- An instruction whose meaning is not written yet, by its mnemonic; raised by the dispatch arms only (safe). -/
  | notModelled (mnemonic : String)
  deriving DecidableEq, Repr

/-- The states of a hardware context (R143). -/
inductive CtxState where
  | stopped | held | issuing | waiting | parked | dispatchWait | ended | trapped | migrating
  deriving DecidableEq, Repr

/-- What a context that is Waiting, Parked or in Dispatch wait waits for (R143). -/
inductive Why where
  /-- It waits for nothing. -/
  | none
  /-- A reply with this token (R142). -/
  | reply (id : Nat)
  /-- An earlier access, a full store count, a scoreboard entry or a footprint; the instruction issues again (R122, R123, R333). -/
  | held
  /-- Its store count reaching zero; then the instruction goes on in that cycle (R137, R189). -/
  | drain (i : Instr)
  /-- A translation walk of its fetch or of an access of its instruction, which then goes on (R305). -/
  | walk (fetch : Bool)
  /-- An instruction-cache line (R474). -/
  | fetch
  /-- The next message of context 15, or the steward's next event (R137, R145). -/
  | event
  /-- A parked full-empty request or JWAIT at its home, or a BWAIT at its controller (R183, R171, R288). -/
  | parked (id : Nat)
  /-- A WRS at the home of its reservation (R181). -/
  | wrs (id : Nat)
  /-- A translation fault held for the steward (R307). -/
  | tfault
  /-- A barrier episode (R189). -/
  | barrier
  /-- A TGNEXT, WPULL or EWAIT (R381, R396, R364). -/
  | unit (id : Nat)
  /-- A fence's drop of leases, or the other fixed waits that end at a cycle the agenda holds (R186, R152). -/
  | timed
  /-- A CSTOP or FREC SAVE that waits for its target to have no access in flight (R166). -/
  | stopping (n : Nat)
  /-- A free entry of the range scoreboard (R367). -/
  | scoreboard
  deriving DecidableEq, Repr

/-- One event counter (R66, R67). -/
structure Evc where
  /-- SAT; 1; R66 in 03_number_formats.md; reset 0. -/
  sat   : Bool := false
  /-- COUNT; 32; R66 in 03_number_formats.md; reset 0. -/
  count : BitVec 32 := 0
  deriving DecidableEq, Repr

/-- The sixteen event counters of one set, counter 0 first. -/
abbrev EvcSet := List Evc

/-- A set of counters at reset (R35, R70). -/
def EvcSet.zero : EvcSet := List.replicate 16 {}

/-- One entry of a core or cluster TLB (R305). -/
structure TlbEnt where
  slot  : BitVec 4 := 0
  /-- First virtual byte of the page. -/
  va    : Nat := 0
  /-- First physical byte of the page. -/
  pa    : Nat := 0
  /-- Page size code: 0 for 64 KiB, 1 for 2 MiB, 2 for 1 GiB. -/
  size  : BitVec 2 := 0
  d     : Bool := false
  mig   : Bool := false
  u     : Bool := false
  x     : Bool := false
  w     : Bool := false
  r     : Bool := false
  deriving DecidableEq, Repr

/-- One unacknowledged store or posted operation of a context (R123). -/
structure Pend where
  id   : Nat := 0
  cls  : BitVec 4 := 0
  va   : W64 := 0
  len  : Nat := 0
  /-- Physical pieces not yet acknowledged, lowest first. -/
  pieces : List Piece := []
  /-- Every later access of its context is ordered after it: its context has been resumed from a trap since (R321). -/
  all  : Bool := false
  /-- It is an ECPY, which R299 orders, not R317. -/
  copy : Bool := false
  deriving DecidableEq, Repr

/-- One job whose footprints a context keeps (R362). -/
structure OwnJob where
  id  : Nat := 0
  /-- Footprints: base, length, read, write. -/
  fps : List (Nat × Nat × Bool × Bool) := []
  deriving DecidableEq, Repr

/-- A late refusal on its way into its trap (R475). -/
structure Late where
  id : Nat := 0
  ia : W64 := 0
  va : W64 := 0
  deriving DecidableEq, Repr

/-- One hardware context of a core (R19, R143). -/
structure Ctx where
  /-- State code of the context; 4; R143 in 07_execution_model.md; reset Stopped. -/
  st    : CtxState := .stopped
  /-- What a waiting context waits for; model data; R142 in 07_execution_model.md; reset none. -/
  why   : Why := .none
  /-- General registers g0 to g15; 16 x 64; R19 in 02_grain_machine.md; reset DESIGN CHOICE 0 (log entry 2). -/
  g     : Vector W64 16 := Vector.replicate 16 0#64
  /-- Program counter PC; 64; R21 in 02_grain_machine.md; reset DESIGN CHOICE 0 (log entry 2). -/
  pc    : W64 := 0
  /-- GSR.OCLS, also CSR OCLS; 4; R22 in 02_grain_machine.md; reset 0. -/
  ocls  : BitVec 4 := 0
  /-- GSR.FERC; 8; R22 in 02_grain_machine.md; reset 0x10. -/
  ferc  : BitVec 8 := 0x10
  /-- GSR.PFMT; 12; R22 in 02_grain_machine.md; reset 0. -/
  pfmt  : BitVec 12 := 0
  /-- GSR.PP; 1; R22 in 02_grain_machine.md; reset 0. -/
  pp    : Bool := false
  /-- GSR.PRIV; 1; R24 in 02_grain_machine.md; reset DESIGN CHOICE 0 (log entry 2). -/
  priv  : Bool := false
  /-- CMASK.DEAD, bit n for gn; 16; R29 in 02_grain_machine.md; reset DESIGN CHOICE 0xFFFE (log entry 2). -/
  dead  : BitVec 16 := 0xFFFE
  /-- CMASK.TMASK, bit n for gn; 16; R22 in 02_grain_machine.md; reset 0x03E0. -/
  tmask : BitVec 16 := 0x03E0
  /-- CORENO.LGN; 28; R26 in 02_grain_machine.md; reset DESIGN CHOICE 0 (log entry 2). -/
  lgn   : BitVec 28 := 0
  /-- EVC0 to EVC15; 16 x 33; R66 in 03_number_formats.md; reset 0. -/
  evc   : EvcSet := EvcSet.zero
  /-- BTMO.CYCLES; 32; R190 in 08_parallel_instructions.md; reset 0. -/
  btmo  : BitVec 32 := 0
  /-- RMST.PFAIL; 16; R437 in 22_dies_and_devices.md; reset 0. -/
  pfail : BitVec 16 := 0
  /-- RMST.LAST; 8; R437 in 22_dies_and_devices.md; reset 0. -/
  last  : BitVec 8 := 0
  /-- Trap state TEPC; 64; R405 in 20_faults_preemption.md; reset 0. -/
  tepc  : W64 := 0
  /-- Trap state TIA; 64; R405 in 20_faults_preemption.md; reset 0. -/
  tia   : W64 := 0
  /-- Trap state TVAL; 64; R405 in 20_faults_preemption.md; reset 0. -/
  tval  : W64 := 0
  /-- Trap state CAUSE; 8; R405 in 20_faults_preemption.md; reset 0. -/
  tcause : BitVec 8 := 0
  /-- Trap state CLASS; 8; R404 in 20_faults_preemption.md; reset 0. -/
  tclass : BitVec 8 := 0
  /-- Trap state EPRIV; 1; R405 in 20_faults_preemption.md; reset 0. -/
  epriv : Bool := false
  /-- Job slot of the context; 4; R300 in 12_memory_hierarchy.md; reset DESIGN CHOICE 0 (log entry 2). -/
  slot  : BitVec 4 := 0
  /-- Gang the context is a member of; option; R154 in 07_execution_model.md; reset none. -/
  gang  : Option Nat := none
  /-- Started by SPAWN, RFORK or migration, so automatically reaped; 1; R145 in 07_execution_model.md; reset 0. -/
  auto  : Bool := false
  /-- Started by SPAWN or a recruit of such a grain, so migratable; 1; R159 in 07_execution_model.md; reset 0. -/
  roam  : Bool := false
  /-- First cycle in which the context may issue again; cycles; R142 in 07_execution_model.md; reset 0. -/
  readyAt : Nat := 0
  /-- Count of waits entered, which names the present wait to timers; model data; R415 in 20_faults_preemption.md; reset 0. -/
  epoch : Nat := 0
  /-- Unacknowledged stores and posted operations; list of at most 8; R123 in 06_grain_memory_convert_system.md; reset empty. -/
  pend  : List Pend := []
  /-- Next replay-safe request number; 8; R412 in 20_faults_preemption.md; reset DESIGN CHOICE 0 (log entry 2). -/
  num   : BitVec 8 := 0
  /-- Reservation held: physical address of the reserved 8 bytes; option; R176 in 08_parallel_instructions.md; reset none. -/
  resv  : Option Nat := none
  /-- Attempts made of the present full-empty instruction; count; R183 in 08_parallel_instructions.md; reset 0. -/
  feTries : Nat := 0
  /-- Jobs of the context that have not retired, with their footprints; at most 8; R362 in 17_engines.md; reset empty. -/
  jobs  : List OwnJob := []
  /-- Late refusals that have reached the core; list; R475 in 06_grain_memory_convert_system.md; reset empty. -/
  late  : List Late := []
  /-- Write of an event counter that takes effect at the end of this cycle: CSR number and value; option; R67 in 03_number_formats.md; reset none. -/
  csrTo : Option (Nat × W64) := none
  /-- Uncorrectable error found in a value that the next instruction reads: the value's address, or 0 for a register; option; R404 in 20_faults_preemption.md; reset none. -/
  uerr  : Option W64 := none
  /-- Request of a load that is out, or the notify word of a BOPEN that is out; option; R160 in 07_execution_model.md; reset none. -/
  load  : Option Req := none
  /-- The access that was found not to migrate, by its instruction address; option; R160 in 07_execution_model.md; reset none. -/
  stay  : Option W64 := none
  /-- Leaf that the walker or the cluster TLB has sent and that has not arrived yet; option; R305 in 12_memory_hierarchy.md; reset none. -/
  leaf  : Option TlbEnt := none
  /-- Range instruction in progress, by its number, with the piece it has come to; option; R310 in 12_memory_hierarchy.md; reset none. -/
  range : Option (Nat × Nat) := none
  /-- Cycle in which the present instruction issued first, while it is held or waits for its translation; option; R399 in 18_winnow_slice_atomics.md; reset none. -/
  born  : Option Nat := none
  /-- Address, length and token of the access that the context waits for; option; R311 in 12_memory_hierarchy.md; reset none. -/
  acc   : Option (W64 × Nat × Nat) := none
  /-- Page number and class of a walk that failed, until the instruction that asked for it issues again; option; R305 in 12_memory_hierarchy.md; reset none. -/
  walked : Option (Nat × BitVec 4) := none
  /-- Bytes that a longer read has brought so far from an external window; list; R445 in 22_dies_and_devices.md; reset empty. -/
  srcBytes : List Byte := []
  /-- Message that context 15 performs or runs; option; R145 in 07_execution_model.md; reset none. -/
  msg   : Option Msg := none
  deriving DecidableEq, Repr

/-- A parked translation fault (R307). -/
structure TFault where
  ctx  : Nat := 0
  slot : BitVec 4 := 0
  kind : BitVec 2 := 0
  va   : W64 := 0
  deriving DecidableEq, Repr

/-- States of an L1 line that the L1 holds; a line that it does not hold is in I (R334). -/
inductive L1State where
  | iv | v | ia | a | ar
  deriving DecidableEq, Repr

/-- One line of an L1 data cache (R293, R330, R335). -/
structure L1Line where
  st   : L1State := .v
  data : LineData := 0
  wts  : W64 := 0
  rts  : W64 := 0
  tag  : BitVec 4 := 0
  part : Partial := {}
  /-- GADDs waiting in the store path until the line is in A. -/
  wait : List Req := []
  deriving DecidableEq, Repr

/-- A forwarding entry for a migrated load (R161). -/
structure Fwd where
  id    : Nat := 0
  dst   : Nat := 0
  accepted : Bool := false
  held  : Option Reply := none
  req   : Option Req := none
  deriving DecidableEq, Repr

/-- A request of a twill pair at the port: what is compared (kind, address, size, class, AQ, RL, data), its token, and the
event or instruction that it becomes after a delay (R423). -/
structure TwinReq where
  sig   : List Nat := []
  id    : Nat := 0
  delay : Nat := 0
  ord   : Nat := 0
  stage : Nat := 0
  ev    : Ev := .none
  instr : Option Instr := none
  /-- The reply to it goes on separately in each of the two contexts. -/
  both  : Bool := false
  /-- Address of the instruction that sent it. -/
  ia    : W64 := 0
  deriving DecidableEq, Repr

/-- A coupled twill pair of a core pair, kept at the even core (R422, R423). -/
structure Twill where
  ctx   : Nat := 0
  node  : BitVec 16 := 0xFFFF
  /-- Requests of the two contexts not yet compared, oldest first. -/
  even  : List TwinReq := []
  odd   : List TwinReq := []
  deriving DecidableEq, Repr

/-- One Millet core, apart from its contexts. -/
structure Core where
  /-- Logical time CT, less the ticks its die has counted; 64; R330 in 14_coherence.md; reset 0. -/
  ct    : W64 := 0
  /-- Core TLB; at most 64 entries; R305 in 12_memory_hierarchy.md; reset empty. -/
  tlb   : List TlbEnt := []
  /-- Instruction cache, by physical line number; at most 256 lines; R474 in 02_grain_machine.md; reset empty. -/
  icache : Tab LineData := []
  /-- L1 data cache, by line number; at most 512 lines; R293 in 12_memory_hierarchy.md; reset empty. -/
  l1    : Tab L1Line := []
  /-- GADDs in the store path that find every way of their set in the accumulate state; list; R334 in 14_coherence.md; reset empty. -/
  gadds : List Req := []
  /-- Cycle of the latest drop of leases; cycle; R186 in 08_parallel_instructions.md; reset 0. -/
  dropAt : Nat := 0
  /-- SPNEN.AREAP; 1; R145 in 07_execution_model.md; reset 0. -/
  areap : Bool := false
  /-- SPNEN.SLOTS; 16; R145 in 07_execution_model.md; reset 0. -/
  slots : BitVec 16 := 0
  /-- MIGST.DROPPED; 32; R161 in 07_execution_model.md; reset 0. -/
  dropped : BitVec 32 := 0
  /-- MIGST.MOUT; 32; R161 in 07_execution_model.md; reset 0. -/
  mout  : BitVec 32 := 0
  /-- MRES0 to MRES15; 16 x 33; R162 in 07_execution_model.md; reset 0. -/
  mres  : EvcSet := EvcSet.zero
  /-- STSLOT.SLOT; 4; R302 in 12_memory_hierarchy.md; reset 0xF. -/
  stslot : BitVec 4 := 0xF
  /-- STVEC; 64; R406 in 20_faults_preemption.md; reset 0. -/
  stvec : W64 := 0
  /-- STEPC; 64; R406 in 20_faults_preemption.md; reset 0. -/
  stepc : W64 := 0
  /-- SSTAT.INH; 1; R406 in 20_faults_preemption.md; reset 0. -/
  inh   : Bool := false
  /-- SSTAT.EIE; 1; R406 in 20_faults_preemption.md; reset 0. -/
  eie   : Bool := false
  /-- The steward's own trap record is shown first; 1; R404 in 20_faults_preemption.md; reset 0. -/
  own   : Bool := false
  /-- Queue of trapped contexts, oldest first; at most 16; R404 in 20_faults_preemption.md; reset empty. -/
  trapQ : List Nat := []
  /-- Cycle of the latest records and the contexts that took theirs in it; model data; R404 in 20_faults_preemption.md; reset empty. -/
  trapIn : Nat × List Nat := (0, [])
  /-- Queue of parked translation faults, oldest first (TFLT, TFADDR show the first); list; R307 in 12_memory_hierarchy.md; reset empty. -/
  tfQ   : List TFault := []
  /-- WDOG.PRE; 16; R415 in 20_faults_preemption.md; reset 0x0040. -/
  wdPre : BitVec 16 := 0x0040
  /-- WDOG.WAIT; 16; R415 in 20_faults_preemption.md; reset 0. -/
  wdWait : BitVec 16 := 0
  /-- WKVAL; 64; R442 in 22_dies_and_devices.md; reset 0. -/
  wkval : W64 := 0
  /-- WKCNT; 32; R442 in 22_dies_and_devices.md; reset 0. -/
  wkcnt : BitVec 32 := 0
  /-- CECNT of the core; 32; R421 in 20_faults_preemption.md; reset 0. -/
  cecnt : BitVec 32 := 0
  /-- Message queue of context 15, oldest first; at most 32; R145 in 07_execution_model.md; reset empty. -/
  msgQ  : List Msg := []
  /-- Messages that wait in the mesh for a place in the queue; list; R145 in 07_execution_model.md; reset empty. -/
  msgWait : List Msg := []
  /-- Numbers, statuses and values of the last 8 remote requests of each sender performed here; table; R412 in 20_faults_preemption.md; reset empty. -/
  rkept : Tab (List (BitVec 8 × BitVec 8 × W64)) := []
  /-- Cycle of the error that began the present freeze, and first cycle after the freeze; 2 cycles; R421 in 20_faults_preemption.md; reset 0. -/
  froze : Nat := 0
  thaw  : Nat := 0
  /-- Replies held during a freeze, oldest first; list; R421 in 20_faults_preemption.md; reset empty. -/
  heldReplies : List (Nat × Reply) := []
  /-- The core has stopped after a double trap; 1; R407 in 20_faults_preemption.md; reset 0. -/
  failed : Bool := false
  /-- Coupled twill pairs kept at an even core; list; R422 in 20_faults_preemption.md; reset empty. -/
  twills : List Twill := []
  /-- Forwarding entries for migrated loads; list; R161 in 07_execution_model.md; reset empty. -/
  fwds  : List Fwd := []
  deriving DecidableEq, Repr

/-- States of a bolt entry (R273). -/
inductive BoltState where
  | free | open_ | sealed_ | held | deferred | done
  deriving DecidableEq, Repr

/-- One entry of a bolt controller (R268 to R276). -/
structure Bolt where
  st     : BoltState := .free
  gen    : BitVec 16 := 0
  /-- The highest generation that its entry has had, where a restore has brought an older one back (R272, R416). -/
  top    : BitVec 16 := 0
  fmt    : BitVec 4 := 0
  elems  : Nat := 1
  rows   : Nat := 1
  out    : Bool := false
  steer  : BitVec 4 := 0
  work   : Nat := 0
  page   : Nat := 0
  npages : Nat := 0
  valid  : BitVec 128 := 0
  cause  : BitVec 2 := 0
  /-- Cycle in which the timer expires, while the bolt is OPEN. -/
  expiry : Nat := 0
  /-- Names the present run of the timer. -/
  token  : Nat := 0
  /-- Number of the opening and of the seal, for the orders by opening and by seal (R279, R280). -/
  opened : Nat := 0
  sealNo : Nat := 0
  posted : Bool := false
  popped : Bool := false
  /-- The Loom whose queue received the handle. -/
  loom   : ClusterId := 0
  /-- Physical address of the notify word. -/
  notify : Nat := 0
  slot   : BitVec 4 := 0
  /-- A seal that waits for a checkpoint commit: 0 none, 1 timer, 2 pressure, 3 the weave's post (R419, R260). -/
  later  : BitVec 2 := 0
  deriving DecidableEq, Repr

/-- A BOPEN that waits for pool room, a grain's or the block sequencer's (R279, R369). -/
structure OpenReq where
  who   : Option CtxId := none
  /-- Token of the reply that the grain waits for. -/
  id    : Nat := 0
  /-- The sequencer's cluster when `who` is none. -/
  cl    : ClusterId := 0
  rd    : BitVec 4 := 0
  shape : W64 := 0
  ctl   : W64 := 0
  notify : Nat := 0
  slot  : BitVec 4 := 0
  deriving DecidableEq, Repr

/-- One entry of a range scoreboard, with the copy's progress (R299, R367). -/
structure Sb where
  id   : Nat := 0
  who  : CtxId := 0
  slot : BitVec 4 := 0
  /-- Physical pieces read and written, by line. -/
  srcs : List Piece := []
  dsts : List Piece := []
  /-- Bytes read so far, each with the full-empty bit of its word, bytes written so far, and the external read that is out. -/
  buf  : List (Byte × Bool) := []
  done : Nat := 0
  ext  : Nat := 0
  /-- Some bytes were refused; the last write has been made. -/
  refused : Bool := false
  ended : Bool := false
  deriving DecidableEq, Repr

/-- The monitor unit's statistics (R399). -/
structure Monitor where
  /-- MONCFG.SHIFT; 5; R399 in 18_winnow_slice_atomics.md; reset 0. -/
  shift : BitVec 5 := 0
  /-- MONCFG.BASE; 32; R399 in 18_winnow_slice_atomics.md; reset 0. -/
  base  : BitVec 32 := 0
  /-- MONCFG.FRZ; 1; R399 in 18_winnow_slice_atomics.md; reset 0. -/
  frz   : Bool := false
  /-- MONCFG.SRC; 4; R399 in 18_winnow_slice_atomics.md; reset 0. -/
  src   : BitVec 4 := 0
  /-- MONMIN; 32; R399 in 18_winnow_slice_atomics.md; reset 0xFFFF_FFFF. -/
  min   : BitVec 32 := 0xFFFFFFFF
  /-- MONMAX; 32; R399 in 18_winnow_slice_atomics.md; reset 0. -/
  max   : BitVec 32 := 0
  /-- MONSUM; 48; R399 in 18_winnow_slice_atomics.md; reset 0. -/
  sum   : BitVec 48 := 0
  /-- MONCNT; 48; R399 in 18_winnow_slice_atomics.md; reset 0. -/
  cnt   : BitVec 48 := 0
  /-- MONFLG.CNTSAT; 1; R399 in 18_winnow_slice_atomics.md; reset 0. -/
  cntSat : Bool := false
  /-- MONFLG.SUMSAT; 1; R399 in 18_winnow_slice_atomics.md; reset 0. -/
  sumSat : Bool := false
  /-- MONFLG.BINSAT; 16; R399 in 18_winnow_slice_atomics.md; reset 0. -/
  binSat : BitVec 16 := 0
  /-- MONBIN0 to MONBIN15; 16 x 32; R399 in 18_winnow_slice_atomics.md; reset 0. -/
  bins  : List (BitVec 32) := List.replicate 16 0
  deriving DecidableEq, Repr

/-- Steps of the block sequencer (R369). -/
inductive WStep where
  | e | w | l | o | g | s
  deriving DecidableEq, Repr

/-- The walk in the block sequencer, with its kept entry, step and counts (R369, R372). -/
structure Walk where
  job   : Nat := 0
  n     : Nat := 0
  step  : WStep := .e
  /-- Phase within the step: 0 before the read, 1 before the write, 2 while a waiting opening is out. -/
  ph    : Nat := 0
  list  : W64 := 0
  idx   : List Nat := []
  bid   : Nat := 0
  nr    : Nat := 0
  newb  : Bool := false
  work  : Nat := 0
  bolt  : BitVec 32 := 0
  k     : Nat := 0
  buf   : List Byte := []
  ext   : Nat := 0
  sealed_ : Nat := 0
  truncs : Nat := 0
  opened : List (BitVec 32) := []
  stopped : Bool := false
  deriving DecidableEq, Repr

/-- A participant's arrival at a barrier episode (R189 to R192). -/
structure Arrival where
  who   : CtxId := 0
  rd    : BitVec 4 := 0
  rcd   : W64 := 0
  evc   : EvcSet := EvcSet.zero
  cycle : Nat := 0
  token : Nat := 0
  /-- A member that is Ended and counts as arrived (R189). -/
  ended : Bool := false
  deriving DecidableEq, Repr

/-- One barrier's present episode in one cluster (R189). -/
structure Episode where
  parity : Bool := false
  arrived : List Arrival := []
  /-- The arrivals are complete and done is on its way. -/
  closed : Bool := false
  tap   : Bool := false
  tapAt : Nat := 0
  noRecord : Bool := false
  deriving DecidableEq, Repr

/-- One cluster, apart from its cores and its Loom. -/
structure Cluster where
  /-- Cluster TLB; at most 4096 entries; R305 in 12_memory_hierarchy.md; reset empty. -/
  tlb   : List TlbEnt := []
  /-- Range scoreboard; at most 32 entries; R299 in 12_memory_hierarchy.md; reset empty. -/
  sb    : List Sb := []
  /-- ECPYs that wait for a scoreboard entry; list; R367 in 17_engines.md; reset empty. -/
  sbWait : List CtxId := []
  /-- BPOOL.EN; 1; R268 in 11_bolts.md; reset 0. -/
  bpEn  : Bool := false
  /-- BPOOL.NPAGES; 10; R268 in 11_bolts.md; reset 0. -/
  bpN   : BitVec 10 := 0
  /-- BPOOL.BASE; 10; R268 in 11_bolts.md; reset 0. -/
  bpBase : BitVec 10 := 0
  /-- Bolt controller table, entries 0 to 63; table; R268 in 11_bolts.md; reset every entry FREE with generation 0. -/
  bolts : Tab Bolt := []
  /-- Waiting BOPENs in arrival order; list; R279 in 11_bolts.md; reset empty. -/
  openQ : List OpenReq := []
  /-- BWAITs parked at the controller; list; R288 in 11_bolts.md; reset empty. -/
  bwaits : List (CtxId × BitVec 4 × BitVec 32 × Nat) := []
  /-- Full-empty requests and JWAITs parked at the scratchpad banks, in parking order; 16 a bank; R183 in 08_parallel_instructions.md; reset empty. -/
  parked : List Req := []
  /-- Cycle and banks already used in that cycle; model data; R291 in 12_memory_hierarchy.md; reset empty. -/
  bankUse : Nat × List Nat := (0, [])
  /-- Monitor unit; see its own fields; R399 in 18_winnow_slice_atomics.md; reset as its fields. -/
  mon   : Monitor := {}
  /-- SVAREA.BASE; 36; R416 in 20_faults_preemption.md; reset 0. -/
  svarea : BitVec 36 := 0
  /-- Jobs the copy and gather engine runs; at most 4; R361 in 17_engines.md; reset empty. -/
  copyRun : List Nat := []
  /-- Walk in the block sequencer; option; R361 in 17_engines.md; reset none. -/
  walk  : Option Walk := none
  /-- Weave image buffer; 64 KiB as 32-bit words; R465 in 25_boot_security_health.md; reset DESIGN CHOICE zero words (log entry 2). -/
  image : Tab W32 := []
  /-- BARC and BARW episodes of the cluster, present and next, by gang; table; R189 in 08_parallel_instructions.md; reset empty. -/
  barc  : Tab (List Episode) := []
  barw  : Tab (List Episode) := []
  /-- The Loom is retired, so no weave is admitted; 1; R420 in 20_faults_preemption.md; reset 0. -/
  retired : Bool := false
  /-- Gangs saved by the latest GPRE of this cluster; list; R408 in 20_faults_preemption.md; reset empty. -/
  gpre  : List Nat := []
  /-- Launch numbers of wakes that the cluster has already seen; list; R157 in 07_execution_model.md; reset empty. -/
  floods : List (BitVec 32) := []
  deriving DecidableEq, Repr

/-- The value of a Loom result that has not landed yet (R206). -/
inductive LResult where
  | s (d : Nat) (v : W32)
  | v (d : Nat) (v : Vec) (mask : BitVec 128)
  | m (d : Nat) (v : W32)
  | x (d : Nat) (v : W64)
  | sp (n : Nat) (b : Bool)
  | vm (n : Nat) (bits mask : BitVec 128)
  | sq (v : Vec)
  deriving DecidableEq, Repr

/-- One row requested for a load-data queue, or resident in it (R209). -/
structure QRow where
  /-- Loom time at whose end the row is placed. -/
  at_   : Nat := 0
  q     : Bool := false
  /-- Source: a bolt row, or a B-store row. -/
  bolt  : Option (BitVec 32) := none
  row   : Nat := 0
  last  : Bool := false
  data  : Vec := []
  deriving DecidableEq, Repr

/-- One result in flight: the Loom time at which it lands, that of its dispatch, its slot and its value (R206, R414). -/
structure Flight where
  at_   : Nat := 0
  disp  : Nat := 0
  slot  : Nat := 0
  res   : LResult
  /-- It holds its register's pending bit (R207). -/
  pend  : Bool := false
  /-- For a push: lanes to count by condition when it lands, the queue rows it popped and the prefix it took (R211, R411). -/
  cnt   : List Nat := []
  undo  : List QRow := []
  pay   : Option (BitVec 12) := none
  /-- For a push: the west entry that it popped, and the cycle in which it pushed the east link (R411, R412). -/
  west  : Option (Nat × Vec) := none
  east  : Option Nat := none
  deriving DecidableEq, Repr

/-- Kinds of wavefront (R214). -/
inductive WaveKind where
  | acc | zacc | drain
  deriving DecidableEq, Repr

/-- One wavefront in the array (R214, R215). -/
structure Wave where
  t0   : Nat := 0
  kind : WaveKind := .acc
  a    : Vec := []
  row  : Nat := 0
  fmt  : BitVec 12 := 0
  /-- Band scales of a drain: A rows 0 to 63 and 64 to 127, then B (R255). -/
  sa   : BitVec 32 := 0
  sb   : BitVec 32 := 0
  /-- Entry that a BF16 wavefront has read at its latest beat, for the addition one beat later (R219). -/
  b    : W32 := 0
  deriving DecidableEq, Repr

/-- One column on the drain path: the Loom time at whose end it is written, its number and its values (R220). -/
structure DrainCol where
  at_  : Nat := 0
  j    : Nat := 0
  vals : Vec := []
  deriving DecidableEq, Repr

/-- One B-store row write in flight (R224, R263, R264). -/
structure BWrite where
  at_  : Nat := 0
  row  : Nat := 0
  vals : Vec := []
  /-- The bolt row it copies, read as it lands, and whether it is the bolt's last. -/
  bolt : Option (BitVec 32 × Nat × Bool) := none
  deriving DecidableEq, Repr

/-- One bolt that the weave holds (R239). -/
structure Held where
  h     : BitVec 32 := 0
  out   : Bool := false
  /-- A request marked LAST, or an XBLD, has been made. -/
  last  : Bool := false
  /-- Its hold has ended by SREL: released once the last row requested has been placed (R240). -/
  srel  : Bool := false
  /-- An XBLD of it has been made: released when its last row lands (R264). -/
  bld   : Bool := false
  /-- Its last operand has been read: released at the end of this Loom time (R259). -/
  rel   : Bool := false
  deriving DecidableEq, Repr

/-- A replay entry of a late fault (R411). -/
structure Replay where
  seq  : BitVec 16 := 0
  addr : BitVec 16 := 0
  perf : BitVec 4 := 0
  slot : BitVec 2 := 0
  cause : BitVec 8 := 0
  /-- The east push of its V slot has reached the neighbour already, so the replay does not make it again (R412). -/
  noEast : Bool := false
  deriving DecidableEq, Repr

/-- The part of a Loom that a snapshot holds (R414). -/
structure LoomCore where
  /-- Slot registers s0 to s31; 32 x 32; R199 in 09_loom.md; reset 0 at a weave's start. -/
  s     : List W32 := List.replicate 32 0#32
  /-- Vector registers v0 to v27; 28 x 128 x 32; R199 in 09_loom.md; reset 0 at a weave's start. -/
  v     : Tab Vec := []
  /-- M registers m0 to m7; 8 x 32; R199 in 09_loom.md; reset 0 at a weave's start. -/
  m     : List W32 := List.replicate 8 0#32
  /-- X registers x0 to x15; 16 x 64; R199 in 09_loom.md; reset 0 at a weave's start. -/
  x     : List W64 := List.replicate 16 0#64
  /-- Predicates sp0 to sp3; 4 x 1; R199 in 09_loom.md; reset 0 at a weave's start. -/
  sp    : List Bool := List.replicate 4 false
  /-- Lane masks vm0 to vm3; 4 x 128; R199 in 09_loom.md; reset 0 at a weave's start. -/
  vm    : List (BitVec 128) := List.replicate 4 0#128
  /-- LSR.MPFMT; 12; R226 in 09_loom.md; reset 0. -/
  mpfmt : BitVec 12 := 0
  /-- LSR.VPFMT; 12; R226 in 09_loom.md; reset 0. -/
  vpfmt : BitVec 12 := 0
  /-- LSR.MPP; 1; R226 in 09_loom.md; reset 0. -/
  mpp   : Bool := false
  /-- LSR.VPP; 1; R226 in 09_loom.md; reset 0. -/
  vpp   : Bool := false
  /-- LSR.DBGP; 1; R226 in 09_loom.md; reset 0. -/
  dbgp  : Bool := false
  /-- LSR.COLL; 1; R226 in 09_loom.md; reset 0. -/
  coll  : Bool := false
  /-- Bundles dispatched since the weave started (Loom time); count; R195 in 09_loom.md; reset 0. -/
  time  : Nat := 0
  /-- Address of the next bundle; 16; R194 in 09_loom.md; reset DESIGN CHOICE 0 (log entry 2). -/
  pc    : BitVec 16 := 0
  /-- Address of the bundle dispatched last; 16; R410 in 20_faults_preemption.md; reset DESIGN CHOICE 0 (log entry 2). -/
  addr  : BitVec 16 := 0
  /-- Target of the control transfer whose delay bundle is next; option; R197 in 09_loom.md; reset none. -/
  xfer  : Option (BitVec 16) := none
  /-- The X slot of the present bundle takes a store-data entry; 1; R250 in 10_loom_instructions.md; reset 0. -/
  take  : Bool := false
  /-- Write of the present bundle that XCPY suppresses, as file and register; option; R205 in 09_loom.md; reset none. -/
  supp  : Option (Nat × Nat) := none
  /-- Results in flight; list; R206 in 09_loom.md; reset empty. -/
  flight : List Flight := []
  /-- Load-data queues q0 and q1; 16 rows each; R209 in 09_loom.md; reset empty. -/
  q0    : List QRow := []
  q1    : List QRow := []
  /-- Rows requested but not yet placed; list; R210 in 09_loom.md; reset empty. -/
  rows  : List QRow := []
  /-- Store-data queue; 16 entries; R211 in 09_loom.md; reset empty. -/
  sq    : List Vec := []
  /-- Bolt queue, oldest first; 16 handles; R280 in 11_bolts.md; reset empty. -/
  boltQ : List (BitVec 32 × Nat) := []
  /-- Held bolts; at most 16; R239 in 10_loom_instructions.md; reset empty. -/
  held  : List Held := []
  /-- Wavefronts in the array; list; R214 in 09_loom.md; reset empty. -/
  waves : List Wave := []
  /-- Accumulators, by column, cell (i, j) at place i of column j; 128 x 128 x 32; R214 in 09_loom.md; reset +0 at a weave's start. -/
  acc   : Tab Vec := []
  /-- Columns on the drain path; list; R220 in 09_loom.md; reset empty. -/
  drain : List DrainCol := []
  /-- Drain rank, by column, row i at place i of column j; 128 x 128 x 32; R221 in 09_loom.md; reset +0 at a weave's start. -/
  rank  : Tab Vec := []
  /-- B-store writes in flight; list; R224 in 09_loom.md; reset empty. -/
  bw    : List BWrite := []
  /-- A BF16 wavefront was injected by the bundle just dispatched; 1; R219 in 09_loom.md; reset 0. -/
  bf16  : Bool := false
  /-- The V slot of the present bundle makes no east push: it is a replay whose push has been made; 1; R412 in 20_faults_preemption.md; reset 0. -/
  noEast : Bool := false
  /-- SHALT has been dispatched; 1; R243 in 10_loom_instructions.md; reset 0. -/
  halting : Bool := false
  /-- LFREC.VALID; 1; R409 in 20_faults_preemption.md; reset 0. -/
  lfValid : Bool := false
  /-- LFREC.SEQ; 16; R409 in 20_faults_preemption.md; reset 0. -/
  lfSeq : BitVec 16 := 0
  /-- LFREC.ADDR; 16; R409 in 20_faults_preemption.md; reset 0. -/
  lfAddr : BitVec 16 := 0
  /-- LFREC.PERF; 4; R409 in 20_faults_preemption.md; reset 0. -/
  lfPerf : BitVec 4 := 0
  /-- LFREC.SLOT; 2; R409 in 20_faults_preemption.md; reset 0. -/
  lfSlot : BitVec 2 := 0
  /-- LFREC.CAUSE; 8; R409 in 20_faults_preemption.md; reset 0. -/
  lfCause : BitVec 8 := 0
  /-- Replay entries; at most 3; R411 in 20_faults_preemption.md; reset empty. -/
  replay : List Replay := []
  /-- Replay bundles still to be dispatched after LRESUME; list; R411 in 20_faults_preemption.md; reset empty. -/
  redo  : List Replay := []
  /-- Bundles still to dispatch before a late fault freezes the Loom; option; R411 in 20_faults_preemption.md; reset none. -/
  freezeIn : Option Nat := none
  /-- Loom event counters LEVC0 to LEVC15; 16 x 33; R70 in 03_number_formats.md; reset 0. -/
  levc  : EvcSet := EvcSet.zero
  /-- West link entries with the cycle of their push; 4 entries; R212 in 09_loom.md; reset empty. -/
  west  : List (Nat × Vec) := []
  /-- Cycle of the last pop of the west link; cycle; R213 in 09_loom.md; reset 0. -/
  westPop : Nat := 0
  deriving DecidableEq, Repr

/-- States of a Loom, as LSR.STATE codes them (R226). -/
inductive LoomState where
  | stopped | running | snext | link | frozen | trapped
  deriving DecidableEq, Repr

/-- The checkpoint state of a Loom (R241, R419, R420). -/
structure Ckpt where
  /-- Checkpointing is armed; 1; R419 in 20_faults_preemption.md; reset 0. -/
  armed : Bool := false
  /-- Rollback count; 16; R419 in 20_faults_preemption.md; reset 0. -/
  count : BitVec 16 := 0
  /-- A rerun is in progress, first or second; R420 in 20_faults_preemption.md; reset 0. -/
  rerun : BitVec 2 := 0
  /-- The rollback point; option; R241 in 10_loom_instructions.md; reset none. -/
  point : Option LoomCore := none
  /-- Row-valid masks of held output bolts at the point; list; R420 in 20_faults_preemption.md; reset empty. -/
  masks : List (BitVec 32 × BitVec 128) := []
  /-- Bolt-queue entries popped since the point, oldest first; list; R420 in 20_faults_preemption.md; reset empty. -/
  pops  : List (BitVec 32 × Nat) := []
  /-- Releases and posts deferred since the point; lists; R241 in 10_loom_instructions.md; reset empty. -/
  releases : List (BitVec 32) := []
  posts : List (BitVec 32) := []
  /-- Bundles and signature of the present rerun, and those of the first; R420 in 20_faults_preemption.md; reset 0. -/
  bundles : Nat := 0
  sig   : BitVec 32 := 0xFFFFFFFF
  first : Option (Nat × BitVec 32) := none
  bad   : Bool := false
  /-- An ARM or DISARM acts at the next bundle boundary: 0 none, 1 arm, 2 disarm; R419 in 20_faults_preemption.md; reset 0. -/
  ask   : BitVec 2 := 0
  deriving DecidableEq, Repr

/-- One Loom. -/
structure Loom where
  /-- LSR.STATE; 4; R226 in 09_loom.md; reset stopped. -/
  st    : LoomState := .stopped
  /-- Registers, queues, array and control state of the weave; see its own fields; R414 in 20_faults_preemption.md; reset as its fields. -/
  k     : LoomCore := {}
  /-- Weave store; 64 KiB as 32-bit words by word index; R194 in 09_loom.md; reset DESIGN CHOICE zero words (log entry 2). -/
  store : Tab W32 := []
  /-- Gang whose weave the Loom runs or is reserved for; option; R154 in 07_execution_model.md; reset none. -/
  gang  : Option Nat := none
  /-- Job slot of the weave; 4; R300 in 12_memory_hierarchy.md; reset DESIGN CHOICE 0 (log entry 2). -/
  slot  : BitVec 4 := 0
  /-- Bundle ring; 64 x 33; R410 in 20_faults_preemption.md; reset DESIGN CHOICE zero entries (log entry 2). -/
  ring  : Tab W64 := []
  /-- Entries that the block sequencer or copy engine writes in the first beat that no weave write takes; list; R265 in 10_loom_instructions.md; reset empty. -/
  eng   : List (Nat × List Byte) := []
  /-- Declared work: WORK of each handle queued or held; list; R280 in 11_bolts.md; reset empty. -/
  work  : List (BitVec 32 × Nat) := []
  /-- CECNT of the Loom; 32; R421 in 20_faults_preemption.md; reset 0. -/
  cecnt : BitVec 32 := 0
  /-- Cycle of the error that began the present freeze, and first cycle after the freeze; 2 cycles; R421 in 20_faults_preemption.md; reset 0. -/
  froze : Nat := 0
  thaw  : Nat := 0
  /-- Checkpoint state; see its own fields; R419 in 20_faults_preemption.md; reset as its fields. -/
  ck    : Ckpt := {}
  deriving DecidableEq, Repr

/-- One entry of a home slice's reservation table (R177, R178). -/
structure Resv where
  who  : CtxId := 0
  line : Nat := 0
  addr : Nat := 0
  at_  : Nat := 0
  /-- The holder's WRS has reached the home and is parked here (R181). -/
  wrs  : Bool := false
  deriving DecidableEq, Repr

/-- One entry of a Winnow window (R391, R396). -/
structure WinEnt where
  no     : Nat := 0
  bodies : List (BitVec 32) := []
  tag    : W64 := 0
  /-- The group and position at which it was issued. -/
  issued : Option (Nat × Nat) := none
  deriving DecidableEq, Repr

/-- A waiting WPULL (R396). -/
structure PullReq where
  who  : CtxId := 0
  /-- Token of the reply that it waits for. -/
  id   : Nat := 0
  rd   : BitVec 4 := 0
  pas  : List Piece := []
  deriving DecidableEq, Repr

/-- One Winnow unit (R391). -/
structure Winnow where
  /-- Bound job slot; option; R391 in 18_winnow_slice_atomics.md; reset free. -/
  slot  : Option (BitVec 4) := none
  /-- Unit generation; 16; R391 in 18_winnow_slice_atomics.md; reset 0. -/
  gen   : BitVec 16 := 0
  /-- Window; at most 256 entries in arrival order; R391 in 18_winnow_slice_atomics.md; reset empty. -/
  win   : List WinEnt := []
  /-- Count of pushes, which orders the window; model data; R394 in 18_winnow_slice_atomics.md; reset 0. -/
  next  : Nat := 0
  /-- Group table: slot generation, group size, in use; 256 slots; R391 in 18_winnow_slice_atomics.md; reset generations 0. -/
  groups : Tab (BitVec 8 × Nat × Bool) := []
  /-- Occupancy set, bodies by bucket; 4096 x 4; R391 in 18_winnow_slice_atomics.md; reset empty. -/
  occ   : Tab (List (BitVec 32)) := []
  /-- First cycle in which the unit can serve its next request; cycle; R391 in 18_winnow_slice_atomics.md; reset 0. -/
  at_   : Nat := 0
  /-- Waiting WPULLs in arrival order; list; R396 in 18_winnow_slice_atomics.md; reset empty. -/
  pulls : List PullReq := []
  deriving DecidableEq, Repr

/-- One open batch of a Gleaner (R375, R376). -/
structure Batch where
  /-- Number of the opening, which names the batch. -/
  no    : Nat := 0
  desc  : Nat := 0
  /-- The descriptor's dwords as the open read them. -/
  card  : List W64 := []
  blk   : W64 := 0
  slot  : BitVec 4 := 0
  priv  : Bool := false
  g     : BitVec 16 := 0
  idx   : W64 := 0
  n     : Nat := 0
  dst   : W64 := 0
  ready : W64 := 0
  i     : Nat := 0
  placed : Nat := 0
  skipped : Nat := 0
  finished : Bool := false
  /-- Bytes of the index or row being read so far, the index when it is known, and the external read that is out. -/
  buf   : List Byte := []
  x     : Option Nat := none
  ext   : Nat := 0
  /-- Bytes of the row written so far. -/
  put   : Nat := 0
  err   : Bool := false
  /-- Closes that wait for the ready word: context, destination register and token. -/
  closers : List (CtxId × BitVec 4 × Nat) := []
  deriving DecidableEq, Repr

/-- One walk in flight at a walker (R305). -/
structure WalkReq where
  slot  : BitVec 4 := 0
  page  : Nat := 0
  dirty : Bool := false
  /-- Requesters in arrival order. -/
  who   : List CtxId := []
  /-- A TLBINV has reached it: its result is installed nowhere (R311). -/
  void  : Bool := false
  started : Bool := false
  /-- Number of the walk in flight; the level whose entry is being read, 4 for the setting of D; and the entry's address. -/
  no    : Nat := 0
  level : Nat := 0
  entry : Nat := 0
  /-- The leaf found, while D is being set. -/
  ent   : Option TlbEnt := none
  deriving DecidableEq, Repr

/-- One level-2 slice with its atomic unit, Winnow unit, Gleaner and walker. -/
structure Slice where
  /-- Slice event counters SEVC0 to SEVC15; 16 x 33; R70 in 03_number_formats.md; reset 0. -/
  sevc  : EvcSet := EvcSet.zero
  /-- Reservation table; 256 entries, oldest first; R177 in 08_parallel_instructions.md; reset empty. -/
  resv  : List Resv := []
  /-- LRs that wait to be registered; list; R178 in 08_parallel_instructions.md; reset empty. -/
  lrWait : List Req := []
  /-- Parked full-empty requests and WRS, in parking order; 512; R183 in 08_parallel_instructions.md; reset empty. -/
  parked : List Req := []
  /-- Requests waiting for the atomic unit, in arrival order; list; R386 in 18_winnow_slice_atomics.md; reset empty. -/
  atomQ : List Req := []
  /-- Cycle of the unit's latest operation, plus one; cycle; R386 in 18_winnow_slice_atomics.md; reset 0. -/
  atomAt : Nat := 0
  /-- Numbers and results of requests performed, by context: last 8; table; R412 in 20_faults_preemption.md; reset empty. -/
  kept  : Tab (List (BitVec 8 × W64)) := []
  /-- Winnow unit; see its own fields; R391 in 18_winnow_slice_atomics.md; reset free. -/
  win   : Winnow := {}
  /-- Open batches of the Gleaner; at most 16; R375 in 17_engines.md; reset empty. -/
  batches : List Batch := []
  /-- Walks in flight; at most 32; R305 in 12_memory_hierarchy.md; reset empty. -/
  walks : List WalkReq := []
  /-- Walk queue, in arrival order; at most 512; R305 in 12_memory_hierarchy.md; reset empty. -/
  walkQ : List WalkReq := []
  deriving DecidableEq, Repr

/-- States of a line at a level-2 slice, stable and transient (R344, R348). -/
inductive SlState where
  | i | s | e | m | o | a
  | isD | imD | smG | iaG | saG | miW | siP | ar
  deriving DecidableEq, Repr

/-- A line at one level-2 slice (R330, R336, R343). -/
structure SlLine where
  /-- State; R344 in 14_coherence.md; reset I. -/
  st    : SlState := .i
  /-- Data; 1024; R295 in 12_memory_hierarchy.md; reset 0. -/
  data  : LineData := 0
  /-- Full-empty bits; 16; R298 in 12_memory_hierarchy.md; reset full. -/
  fe    : BitVec 16 := 0xFFFF
  /-- WTS; 64; R330 in 14_coherence.md; reset 0. -/
  wts   : W64 := 0
  /-- RTS; 64; R330 in 14_coherence.md; reset 0. -/
  rts   : W64 := 0
  /-- Cycle since which the line is in A, the age of R336; cycle; R336 in 14_coherence.md; reset 0. -/
  since : Nat := 0
  /-- Operator tag in A; 4; R336 in 14_coherence.md; reset 0. -/
  tag   : BitVec 4 := 0
  /-- Holder vector, one bit per cluster of the die; 256; R336 in 14_coherence.md; reset 0. -/
  holders : BitVec 256 := 0
  /-- Slice partial SP; R336 in 14_coherence.md; reset absent. -/
  sp    : Partial := {}
  /-- Loads held for a fill, oldest first; list; R332 in 14_coherence.md; reset empty. -/
  loads : List Req := []
  /-- Stores and atomics held for the line, oldest first; list; R334 in 14_coherence.md; reset empty. -/
  stores : List Req := []
  /-- Joins held, as core and tag; list; R335 in 14_coherence.md; reset empty. -/
  joins : List (Nat × BitVec 4) := []
  /-- Request sent and not yet answered: 0 none, 1 RDS, 2 RDX or UPG, 3 AJN; 2; R348 in 14_coherence.md; reset 0. -/
  ask   : BitVec 2 := 0
  /-- Cycle in which the fill that has arrived is installed; cycle; R476 in 14_coherence.md; reset 0. -/
  fillAt : Nat := 0
  /-- Cores still to answer a recall, and the answers; lists; R338 in 14_coherence.md; reset empty. -/
  asked : List Nat := []
  answers : List (Nat × Partial) := []
  deriving DecidableEq, Repr

/-- States of a line at its directory (R344). -/
inductive DirState where
  | i | s | e | m | o | a
  deriving DecidableEq, Repr

/-- What a directory transaction still waits for (R346, R347). -/
structure Txn where
  req   : DirReq
  /-- Cycle at which the lookup ends, and whether the directory has acted (R476). -/
  at_   : Nat := 0
  looked : Bool := false
  /-- Dies whose IACK is awaited. -/
  iacks : List Nat := []
  /-- A FACK is awaited; the FACK that has come carried data (R347). -/
  fack  : Bool := false
  dirty : Bool := false
  /-- Dies whose PLIST is awaited, and the lists received. -/
  plists : List Nat := []
  lists : List (Nat × Partial) := []
  /-- Waiting for the requester's CMP. -/
  cmp   : Bool := false
  /-- Waiting for the home's CMP after MRG, and then the request is processed anew. -/
  merge : Bool := false
  /-- A WB of h was absorbed (R349). -/
  absorbed : Bool := false
  absorbedPut : List Nat := []
  deriving DecidableEq, Repr

/-- One line of memory homed in HBM4: its directory entry, its memory-side copy and its two slices' copies. -/
structure Line where
  /-- Directory state; R344 in 14_coherence.md; reset I. -/
  st    : DirState := .i
  /-- Sharers by die; R344 in 14_coherence.md; reset none. -/
  sh0   : Bool := false
  sh1   : Bool := false
  /-- Operator tag; 4; R344 in 14_coherence.md; reset 0. -/
  tag   : BitVec 4 := 0
  /-- MAXRTS; 64; R350 in 14_coherence.md; reset 0. -/
  maxRts : W64 := 0
  /-- WTS and RTS kept with the memory-side copy; 2 x 64; R350 in 14_coherence.md; reset 0. -/
  wts   : W64 := 0
  rts   : W64 := 0
  /-- Copy in the memory-side cache: data, full-empty bits, dirty; option; R296 in 12_memory_hierarchy.md; reset none. -/
  msc   : Option (LineData × BitVec 16 × Bool) := none
  /-- Transaction in progress; option; R346 in 14_coherence.md; reset none. -/
  txn   : Option Txn := none
  /-- Waiting requests; list, 256 a slice; R346 in 14_coherence.md; reset empty. -/
  queue : List DirReq := []
  /-- The line at the slices of die 0 and die 1; see their fields; R343 in 14_coherence.md; reset I. -/
  s0    : SlLine := {}
  s1    : SlLine := {}
  deriving DecidableEq, Repr

/-- One gang: a sheaf, stook or rick part on this chip (R154, R155). -/
structure Gang where
  launch : Nat := 0
  slot  : BitVec 4 := 0
  die   : Nat := 0
  /-- Clusters of the gang on its die or dies, in order of admission. -/
  cls   : List ClusterId := []
  /-- Clusters still to be reserved. -/
  want  : List ClusterId := []
  members : List CtxId := []
  desc  : Desc := {}
  /-- A rick's part: it waits for the leader's message. -/
  rick  : Bool := false
  admitted : Bool := false
  released : Bool := false
  /-- Start time agreed or proposed, in domain time. -/
  start : W64 := 0
  token : Nat := 0
  /-- Leader's record of chips that have reported READY. -/
  ready : List Nat := []
  /-- Pre-emption: clusters the request has reached, clusters that have reported, dies stopped, clusters saved. -/
  reached : List ClusterId := []
  reported : List ClusterId := []
  stoppedOn : List Nat := []
  savedCl : List ClusterId := []
  /-- The reason of the pre-emption: 0 none, 1 GPRE or a late rick, 2 SLCTL.PRE. -/
  pre   : BitVec 2 := 0
  restoring : Bool := false
  /-- Names the present pre-emption to the watchdog. -/
  preNo : Nat := 0
  /-- Events kept for delivery at restore (R413). -/
  kept  : List Ev := []
  /-- Snapshots of member Looms and saved contexts, as the save region holds them (R414, R416). -/
  looms : Tab Loom := []
  ctxs  : Tab Ctx := []
  clusters : Tab Cluster := []
  /-- B-store bytes of member Looms as they stood at the snapshot, as cells of memory (R414). -/
  bstores : Tab (List Host.Cell) := []
  /-- Words of the saved scratchpads whose full-empty bit is empty: the save image's sideband. -/
  fes   : List Nat := []
  deriving DecidableEq, Repr

/-- One launch known to this chip (R155, R174, R443). -/
structure Launch where
  slot  : BitVec 4 := 0
  die   : Nat := 0
  desc  : Desc := {}
  /-- Queued here, so this die writes the completion record. -/
  owner : Bool := true
  /-- The chip that queued it, when not owned here. -/
  from_ : Nat := 0
  /-- Gangs of this launch not yet retired on this chip. -/
  gangs : List Nat := []
  /-- Stooks still to be admitted, as their clusters. -/
  todo  : List (List ClusterId) := []
  /-- Chips whose part has not been reported retired. -/
  chips : List Nat := []
  ended : Bool := false
  status : BitVec 8 := 0
  info  : W64 := 0
  /-- Stores that the completion record, or the report of a part, waits for, by context and number, and whether it has been made. -/
  drain : List (CtxId × Nat) := []
  written : Bool := false
  deriving DecidableEq, Repr

/-- One entry of the job scheduler (R360). -/
structure Job where
  used  : Bool := false
  gen   : BitVec 16 := 0
  /-- The context that keeps the job's footprints, and the core that submitted it. -/
  who   : CtxId := 0
  core  : CoreId := 0
  slot  : BitVec 4 := 0
  priv  : Bool := false
  cl    : ClusterId := 0
  /-- Place in the order of acceptance. -/
  no    : Nat := 0
  card  : List W64 := []
  started : Bool := false
  /-- A WALK of a cluster that is being pre-empted or is saved (R372). -/
  halted : Bool := false
  /-- Element or byte reached, byte within the element, phase, index or source within the element, and source addresses. -/
  i     : Nat := 0
  b     : Nat := 0
  ph    : Nat := 0
  x     : Nat := 0
  acc   : Nat := 0
  srcs  : List W64 := []
  /-- Bytes of the read in progress, the external read that is out, and the bytes of the next write with their full-empty
  bits. -/
  buf   : List Byte := []
  ext   : Nat := 0
  data  : List (Byte × Bool) := []
  /-- Bytes done or elements done, and elements beyond BOUND. -/
  cnt   : Nat := 0
  beyond : Nat := 0
  /-- The written range meets a range read; bytes as they stood before the job, by virtual address (R366). -/
  self  : Bool := false
  olds  : Tab (Byte × Bool) := []
  /-- Cycles until the last write is acknowledged, and the code with which the job is about to retire. -/
  rt    : Nat := 1
  ended : Option (BitVec 8) := none
  /-- Generation, code and cycle of the latest retirement from this entry (R364). -/
  oldGen : BitVec 16 := 0
  oldCode : W64 := 0
  oldAt : Nat := 0
  deriving DecidableEq, Repr

/-- States of a Thresher node (R379). -/
inductive NodeState where
  | ready | waiting | running
  deriving DecidableEq, Repr

/-- One task node (R379, R380). -/
structure Node where
  live  : Bool := false
  gen   : BitVec 4 := 0
  slot  : BitVec 4 := 0
  arg   : BitVec 48 := 0
  cost  : Nat := 0
  rp    : Nat := 0
  preds : List Nat := []
  st    : NodeState := .ready
  no    : Nat := 0
  deriving DecidableEq, Repr

/-- One Thresher (R379). -/
structure Thresher where
  /-- Task nodes 0 to 0xFFE; table; R379 in 17_engines.md; reset free with generation 0. -/
  nodes : Tab Node := []
  /-- Count of submissions; model data; R381 in 17_engines.md; reset 0. -/
  next  : Nat := 0
  /-- Waiting TGNEXTs in arrival order, with their tokens; list; R381 in 17_engines.md; reset empty. -/
  waits : List (CtxId × BitVec 4 × Nat) := []
  deriving DecidableEq, Repr

/-- One lend-table entry (R448 to R450). -/
structure Lend where
  /-- 0 OWNED, 1 LENDING, 2 LENT, 3 RECALLING. -/
  st    : BitVec 2 := 0
  kind  : Bool := false
  peer  : BitVec 10 := 0
  viol  : BitVec 32 := 0
  /-- Lines not yet acknowledged in a recall, and the grain that waits. -/
  left  : List Nat := []
  who   : Option (CtxId × BitVec 4) := none
  deriving DecidableEq, Repr

/-- A range instruction, device flush or lend in progress (R309, R310, R449, R451). -/
structure RangeOp where
  /-- The grain that waits, and its register; none for a device flush. -/
  who   : Option (CtxId × BitVec 4) := none
  left  : Nat := 0
  res   : W64 := 0
  /-- Frame whose lend follows. -/
  lend  : Option Nat := none
  /-- Accesses that a TLBINV waits for: the context, and the token of the access or, for a fetch, the number of its wait. -/
  waits : List (CtxId × Bool × Nat) := []
  deriving DecidableEq, Repr

/-- A remote operation that this chip has sent and not seen end (R437). -/
structure SentOp where
  id    : Nat := 0
  who   : CtxId := 0
  rd    : BitVec 4 := 0
  posted : Bool := false
  /-- The register receives the value on DONE (RAMO). -/
  val   : Bool := false
  /-- The reply is an acquire (R439). -/
  aq    : Bool := false
  /-- The Camsum port it left by; none on this chip. -/
  port  : Option Nat := none
  msg   : Msg := {}
  /-- It is a SPAWN to another chip, which leaves RMST alone. -/
  spawn : Option SpawnReq := none
  deriving DecidableEq, Repr

/-- A message sent to another chip and not known to have arrived, or one that waits for a route (R430, R434). -/
structure LinkOut where
  /-- The port that it left by; none while it waits. -/
  port  : Option Nat := none
  chip  : Nat := 0
  /-- Flat core number in whose name it is sent. -/
  core  : Nat := 0
  l     : Link := {}
  b     : LinkBody
  /-- The grain's access that it is a part of. -/
  req   : Option Req := none
  deriving DecidableEq, Repr

/-- Thatch, the management and security controller (R459 to R470). -/
structure Thatch where
  /-- TARG0 to TARG3; 4 x 64; R468 in 25_boot_security_health.md; reset DESIGN CHOICE 0 (log entry 2). -/
  targ  : List W64 := List.replicate 4 0#64
  /-- TSTAT.FWB; 1; R468 in 25_boot_security_health.md; reset 0. -/
  fwb   : Bool := false
  /-- TSTAT.OP; 8; R468 in 25_boot_security_health.md; reset 0. -/
  op    : BitVec 8 := 0
  /-- TSTAT.CODE; 8; R468 in 25_boot_security_health.md; reset 0. -/
  code  : BitVec 8 := 0
  /-- TSTAT.READY; 1; R468 in 25_boot_security_health.md; reset 0. -/
  ready : Bool := false
  /-- TSTAT.BUSY; 1; R468 in 25_boot_security_health.md; reset 0. -/
  busy  : Bool := false
  /-- Response buffer; 8 KiB by byte; R468 in 25_boot_security_health.md; reset DESIGN CHOICE zero (log entry 2). -/
  resp  : Tab Byte := []
  /-- ALARM.ERASE; 1; R469 in 25_boot_security_health.md; reset 0. -/
  erase : Bool := false
  /-- ALARM.ERASED; 1; R469 in 25_boot_security_health.md; reset from flash: DESIGN CHOICE 0 (log entry 4). -/
  erased : Bool := false
  /-- ALARM.CLOCK, VOLT, TAMPER; 3; R469 in 25_boot_security_health.md; reset 0. -/
  alarm : BitVec 3 := 0
  /-- DEVCFG.HCH; 6; R471 in 25_boot_security_health.md; reset DESIGN CHOICE 32 (log entry 4). -/
  hch   : BitVec 6 := 32
  /-- DEVCFG.N1; 9; R471 in 25_boot_security_health.md; reset DESIGN CHOICE 256 (log entry 4). -/
  n1    : BitVec 9 := 256
  /-- DEVCFG.N0; 9; R471 in 25_boot_security_health.md; reset DESIGN CHOICE 256 (log entry 4). -/
  n0    : BitVec 9 := 256
  /-- LNCFG; 18 x 2; R471 in 25_boot_security_health.md; reset DESIGN CHOICE four lanes on every port (log entry 4). -/
  lncfg : BitVec 36 := 0
  /-- Lanes of the links as the fuses give them; 18 x 2; R459 in 25_boot_security_health.md; reset DESIGN CHOICE four lanes on every port (log entry 4). -/
  lnFuse : BitVec 36 := 0
  /-- THLTH.TRIP; 1; R472 in 25_boot_security_health.md; reset 0. -/
  trip  : Bool := false
  /-- THLTH.WARN; 1; R472 in 25_boot_security_health.md; reset 0. -/
  warn  : Bool := false
  /-- THLTH.TJ; 16; R472 in 25_boot_security_health.md; reset 0. -/
  tj    : BitVec 16 := 0
  /-- Owner key slots 0 to 7: Ed25519 key bytes, ML-DSA-65 key bytes; table; R463 in 25_boot_security_health.md; reset DESIGN CHOICE empty (log entry 4). -/
  keys  : Tab (List Byte) := []
  /-- Package flash: firmware copies A and B; list of bytes; R459 in 25_boot_security_health.md; reset DESIGN CHOICE empty (log entry 4). -/
  fwA   : List Byte := []
  fwB   : List Byte := []
  /-- Boot selector, 1 names copy B; 1; R459 in 25_boot_security_health.md; reset DESIGN CHOICE 0 (log entry 4). -/
  sel   : Bool := false
  /-- Stored incarnation count; 8; R459 in 25_boot_security_health.md; reset DESIGN CHOICE 0 (log entry 4). -/
  incs  : BitVec 8 := 0
  /-- Failure log: clusters by die and physical number; list; R461 in 25_boot_security_health.md; reset DESIGN CHOICE empty (log entry 4). -/
  log   : List Nat := []
  /-- Clusters fused off, by die and physical number; list; R459 in 25_boot_security_health.md; reset DESIGN CHOICE none (log entry 4). -/
  fused : List Nat := []
  /-- Running firmware container's bytes below SIGOFF; list of bytes; R469 in 25_boot_security_health.md; reset empty. -/
  running : List Byte := []
  /-- Last container loaded with OK into each slot, bytes below SIGOFF; table; R469 in 25_boot_security_health.md; reset empty. -/
  loaded : Tab (List Byte) := []
  /-- LOADs waiting behind a busy command: first loading chip, TARG0 and TARG1; list; R467 in 25_boot_security_health.md; reset empty. -/
  waiting : List (Nat × W64 × W64) := []
  /-- Weave images on their way through the boot tree, by role: weave-store offset, bytes, and the clusters that keep them; table; R466 in 25_boot_security_health.md; reset empty. -/
  images : Tab (Nat × List Byte × List ClusterId) := []
  /-- Command that waits for lines of memory to be at rest, and the cycle in which it looks again; option; R468 in 25_boot_security_health.md; reset none. -/
  cmd   : Option (Ev × Nat) := none
  /-- Job slot and signed bytes of the LOAD that is running; option; R469 in 25_boot_security_health.md; reset none. -/
  load  : Option (BitVec 4 × List Byte) := none
  /-- Both compute dies are held in reset after an alarm or a trip; 1; R470 in 25_boot_security_health.md; reset 0. -/
  hold  : Bool := false
  /-- The part has been stopped by an alarm until power-on; 1; R470 in 25_boot_security_health.md; reset 0. -/
  alarmed : Bool := false
  deriving DecidableEq, Repr

/-- Device-wide registers and tables. -/
structure Device where
  /-- ASROOT0 to ASROOT15, as EN and ROOT; 16 x (1 + 40); R300 in 12_memory_hierarchy.md; reset 0. -/
  asroot : List (Bool × BitVec 40) := List.replicate 16 (false, 0)
  /-- RICKCFG.GUARD; 16; R417 in 20_faults_preemption.md; reset 0x07D0. -/
  guard : BitVec 16 := 0x07D0
  /-- RICKCFG.LEAD; 32; R417 in 20_faults_preemption.md; reset 0x000186A0. -/
  lead  : BitVec 32 := 0x000186A0
  /-- DOMCFG.SYNC; 1; R429 in 22_dies_and_devices.md; reset 0. -/
  sync  : Bool := false
  /-- DOMCFG.DOM; 16; R429 in 22_dies_and_devices.md; reset 0. -/
  dom   : BitVec 16 := 0
  /-- DOMCFG.INC; 8; R429 in 22_dies_and_devices.md; reset set by Thatch: DESIGN CHOICE 0 before it is written (log entry 2). -/
  inc   : BitVec 8 := 0
  /-- DOMCFG.NCHM1; 12; R429 in 22_dies_and_devices.md; reset 0. -/
  nchm1 : BitVec 12 := 0
  /-- DOMCFG.CHIP; 12; R429 in 22_dies_and_devices.md; reset 0. -/
  chip  : BitVec 12 := 0
  /-- INCDROP; 32; R432 in 22_dies_and_devices.md; reset 0. -/
  incdrop : BitVec 32 := 0
  /-- DTIME, held as its difference from the cycle count; 64; R431 in 22_dies_and_devices.md; reset 0. -/
  dtime : W64 := 0
  /-- Highest timestamp given so far to a line, which the writes of units without a logical time of their own take; 64; R333 in 14_coherence.md; reset 0. -/
  topTs : W64 := 0
  /-- Write timestamp of each host or peer port's latest write; 18 x 64; R323 in 13_memory_model.md; reset 0. -/
  portTs : Tab W64 := []
  /-- Writes of a host port that are ordered and not yet performed, and its accesses that wait for them in arrival order; tables by port; R447 in 22_dies_and_devices.md; reset empty. -/
  portBusy : Tab Nat := []
  portQ : Tab (List Ev) := []
  /-- Requests that wait in the bridge for a place at their memory-side slice, in arrival order, as line and request; list; R346 in 14_coherence.md; reset empty. -/
  bridge : List (Nat × DirReq) := []
  /-- Ticks of R331 on die 0 and die 1, a part of every CT; 2 x 64; R331 in 14_coherence.md; reset 0. -/
  tick0 : W64 := 0
  tick1 : W64 := 0
  /-- Route table; 4096 x 18; R430 in 22_dies_and_devices.md; reset DESIGN CHOICE 0 (log entry 2). -/
  routes : Tab (BitVec 18) := []
  /-- Incarnation table; 4096 x 8; R432 in 22_dies_and_devices.md; reset DESIGN CHOICE 0 (log entry 2). -/
  incs  : Tab (BitVec 8) := []
  /-- Peer table: valid and chip; 1024 x 13; R444 in 22_dies_and_devices.md; reset DESIGN CHOICE not valid (log entry 2). -/
  peers : Tab (Bool × BitVec 12) := []
  /-- Lend table by frame number; 4096 entries; R449 in 22_dies_and_devices.md; reset every page OWNED. -/
  lends : Tab Lend := []
  /-- WBBASE; 64; R447 in 22_dies_and_devices.md; reset DESIGN CHOICE 0 (log entry 2). -/
  wbbase : W64 := 0
  /-- Window B size in bytes, per port; 1 GiB to 1 TiB; R446 in 22_dies_and_devices.md; reset DESIGN CHOICE 1 GiB (log entry 2). -/
  wbsize : Nat := 1073741824
  /-- Port 1 runs CXL; 1; R446 in 22_dies_and_devices.md; reset DESIGN CHOICE 0 (log entry 2). -/
  cxl   : Bool := false
  /-- SLCTL.STATE of each slot; 16 x 4; R447 in 22_dies_and_devices.md; reset 0. -/
  slctl : List (BitVec 4) := List.replicate 16 0#4
  /-- CKCTL.BUSY; 1; R451 in 22_dies_and_devices.md; reset 0. -/
  ckbusy : Bool := false
  /-- Camsum ports that are down; 18; R434 in 22_dies_and_devices.md; reset 0. -/
  down  : BitVec 18 := 0
  /-- Doorbell status dwords, by job slot and die; table; R447 in 22_dies_and_devices.md; reset DESIGN CHOICE 0 (log entry 2). -/
  bells : Tab W64 := []
  /-- Launch queues by die and slot, as launch numbers in arrival order; 64 entries each; R172 in 08_parallel_instructions.md; reset empty. -/
  launchQ : Tab (List Nat) := []
  /-- Launches and gangs of this chip, by number; tables; R155 in 07_execution_model.md; reset empty. -/
  launches : Tab Launch := []
  gangs : Tab Gang := []
  /-- Job scheduler entries 0 to 2047; table; R360 in 17_engines.md; reset free with generation 0. -/
  jobs  : Tab Job := []
  /-- Threshers of die 0 and die 1; see their fields; R379 in 17_engines.md; reset as their fields. -/
  th0   : Thresher := {}
  th1   : Thresher := {}
  /-- Waiting EWAITs by job entry, with their tokens; list; R364 in 17_engines.md; reset empty. -/
  ewaits : List (Nat × CtxId × BitVec 4 × Nat) := []
  /-- Count of jobs accepted; model data; R360 in 17_engines.md; reset 0. -/
  jobNext : Nat := 0
  /-- Reads of external windows that units have made, and their bytes once they have come; list; R445 in 22_dies_and_devices.md; reset empty. -/
  reads : List (Nat × Option (List Byte)) := []
  /-- Logical to physical cluster numbers of die 0 and die 1; 2 x 256; R148 in 07_execution_model.md; reset DESIGN CHOICE identity (log entry 4). -/
  remap0 : List Nat := List.range 256
  remap1 : List Nat := List.range 256
  deriving DecidableEq, Repr

/-- What an entry of the agenda does. -/
inductive Act where
  /-- The context issues its next instruction. -/
  | issue
  /-- A grain instruction or slot operation is performed. -/
  | run (i : Instr)
  /-- An event happens. -/
  | ev (e : Ev)
  deriving DecidableEq, Repr

/-- One entry of the agenda: when it is due, its place among the entries of that cycle, and what it does. -/
structure Entry where
  due   : Nat := 0
  ord   : Nat := 0
  seq   : Nat := 0
  who   : CtxId := 0
  /-- 0 at issue, 1 where the request is performed. -/
  stage : Nat := 0
  act   : Act := .issue
  deriving DecidableEq, Repr

/-- The state of one Ziton-2 package. -/
structure State where
  /-- Core clock cycles since reset; count; R140 in 07_execution_model.md; reset 0. -/
  cycle : Nat := 0
  /-- Phase of each die's cycle count; 2 counts; R140 in 07_execution_model.md; reset DESIGN CHOICE 0 (log entry 12). -/
  phase0 : Nat := 0
  phase1 : Nat := 0
  /-- The issue slots of this cycle have been handed out; model data; R140 in 07_execution_model.md; reset 0. -/
  slotted : Bool := false
  /-- Work of this cycle that runs next, first to last; model data; R34 in 02_grain_machine.md; reset the power-on event. -/
  todo  : List Entry := []
  /-- Work due in later cycles, in order; model data; R142 in 07_execution_model.md; reset empty. -/
  agenda : List Entry := []
  /-- Count of tokens and entries handed out; model data; R412 in 20_faults_preemption.md; reset 0. -/
  fresh : Nat := 0
  /-- Count of free values read, the model's own field and not the spec's; model data; R7 in 00_scope.md; reset DESIGN CHOICE 0 (log entry 8). -/
  draws : Nat := 0
  /-- Context (or Loom) whose instruction is running, and the stage at which it is served; model data; R34 in 02_grain_machine.md; reset 0. -/
  cur   : CtxId := 0
  stage : Nat := 0
  /-- Event that is happening; model data; R34 in 02_grain_machine.md; reset none. -/
  ev    : Ev := .none
  /-- Contexts 0 to 65535 of the package's cores; table; R17 in 01_device_overview.md; reset Stopped. -/
  ctxs  : Tab Ctx := []
  /-- Cores 0 to 4095; table; R17 in 01_device_overview.md; reset as their fields. -/
  cores : Tab Core := []
  /-- Clusters 0 to 511; table; R17 in 01_device_overview.md; reset as their fields. -/
  clusters : Tab Cluster := []
  /-- Looms 0 to 511; table; R17 in 01_device_overview.md; reset as their fields. -/
  looms : Tab Loom := []
  /-- Level-2 slices 0 to 127; table; R15 in 01_device_overview.md; reset as their fields. -/
  slices : Tab Slice := []
  /-- Lines of HBM4 held above HBM4, by line number; table; R294 in 12_memory_hierarchy.md; reset no copy. -/
  lines : Tab Line := []
  /-- HBM4, scratchpad and B-store bytes; canonical cells; R290 in 12_memory_hierarchy.md; reset 0 (R459). -/
  mem   : List Host.Cell := []
  /-- Words of HBM4 and scratchpad whose full-empty bit is empty, as word numbers; rising list; R298 in 12_memory_hierarchy.md; reset none. -/
  empties : List Nat := []
  /-- Device-wide registers and tables; see its fields; R301 in 12_memory_hierarchy.md; reset as its fields. -/
  dev   : Device := {}
  /-- Thatch; see its fields; R459 in 25_boot_security_health.md; reset as its fields. -/
  thatch : Thatch := {}
  /-- Range operations in progress; table; R310 in 12_memory_hierarchy.md; reset empty. -/
  ranges : Tab RangeOp := []
  /-- Remote operations sent and not ended; list; R437 in 22_dies_and_devices.md; reset empty. -/
  sent  : List SentOp := []
  /-- Other messages sent to chips and not yet acknowledged, or waiting for a route, oldest first; list; R434 in 22_dies_and_devices.md; reset empty. -/
  links : List LinkOut := []
  /-- Stores of contexts that have been discarded since, not yet acknowledged: context, number and pieces left; list; R174 in 08_parallel_instructions.md; reset empty. -/
  orphans : List (CtxId × Nat × Nat) := []
  /-- Messages handed to links, hosts and peers, oldest first; list; R433 in 22_dies_and_devices.md; reset empty. -/
  out   : List OutMsg := []
  deriving DecidableEq, Repr

/-- The machine right after reset: every field at its reset value, with the power-on event about to run (R459). -/
def State.reset : State := { todo := [{ act := .ev .powerOn }] }

end Sys2Proof.Machine
end

