-- ==== Sys2Proof/Machine/Ops.lean ====
section
/-!
DEFINITION. The named operations over the state that the meanings share: units by number, distances on the mesh, the
agenda, general registers, waiting and waking, event counters, and the taking of and return from an exception.
-/

namespace Sys2Proof.Machine

/-! Units by number (R13, R15, R147). -/

/-- Core of a context. -/
def coreOf (c : CtxId) : CoreId := c / 16
/-- Cluster of a context. -/
def clusterOf (c : CtxId) : ClusterId := c / 128
/-- Die of a context. -/
def dieOf (c : CtxId) : Nat := c / 32768
/-- Context within its core. -/
def ctxNo (c : CtxId) : Nat := c % 16
/-- Cluster of a core. -/
def coreCluster (k : CoreId) : ClusterId := k / 8
/-- The steward of a core. -/
def stewardOf (k : CoreId) : CtxId := k * 16
/-- The context is its core's steward. -/
def isSteward (c : CtxId) : Bool := c % 16 == 0
/-- The context is its cluster's steward (R144). -/
def isClusterSteward (c : CtxId) : Bool := c % 128 == 0

/-- A context as the state holds it. -/
def State.ctx (s : State) (c : CtxId) : Ctx := Tab.get {} s.ctxs c
/-- A core as the state holds it. -/
def State.core (s : State) (k : CoreId) : Core := Tab.get {} s.cores k
/-- A cluster as the state holds it. -/
def State.cluster (s : State) (k : ClusterId) : Cluster := Tab.get {} s.clusters k
/-- A Loom as the state holds it. -/
def State.loom (s : State) (k : ClusterId) : Loom := Tab.get {} s.looms k
/-- A slice as the state holds it. -/
def State.slice (s : State) (k : SliceId) : Slice := Tab.get {} s.slices k
/-- A line as the state holds it. -/
def State.line (s : State) (n : Nat) : Line := Tab.get {} s.lines n

/-- Replace a context. -/
def State.setCtx (s : State) (c : CtxId) (x : Ctx) : State := { s with ctxs := Tab.set s.ctxs c x }
/-- Replace a core. -/
def State.setCore (s : State) (k : CoreId) (x : Core) : State := { s with cores := Tab.set s.cores k x }
/-- Replace a cluster. -/
def State.setCluster (s : State) (k : ClusterId) (x : Cluster) : State := { s with clusters := Tab.set s.clusters k x }
/-- Replace a Loom. -/
def State.setLoom (s : State) (k : ClusterId) (x : Loom) : State := { s with looms := Tab.set s.looms k x }
/-- Replace a slice. -/
def State.setSlice (s : State) (k : SliceId) (x : Slice) : State := { s with slices := Tab.set s.slices k x }
/-- Replace a line. -/
def State.setLine (s : State) (n : Nat) (x : Line) : State := { s with lines := Tab.set s.lines n x }

/-- Physical cluster number of a logical cluster of a die (R148). -/
def State.phys (s : State) (k : ClusterId) : Nat :=
  (if k < 256 then s.dev.remap0 else s.dev.remap1).getD (k % 256) 0
/-- Number of enabled clusters of a die (R148). -/
def State.nClusters (s : State) (die : Nat) : Nat :=
  (if die = 0 then s.dev.remap0 else s.dev.remap1).length
/-- The cluster's logical number is valid (R148). -/
def State.clusterValid (s : State) (k : ClusterId) : Bool := k % 256 < s.nClusters (k / 256) && k < 512
/-- Logical cluster of a physical position of a die, when one is there (R148). -/
def State.logical (s : State) (die p : Nat) : Option ClusterId :=
  ((if die = 0 then s.dev.remap0 else s.dev.remap1).findIdx? (· == p)).map (256 * die + ·)

/-- Difference of two numbers. -/
def absDiff (a b : Nat) : Nat := if a < b then b - a else a - b

/-- Manhattan distance between two clusters' mesh positions, as if both dies lay on one mesh (R297). -/
def State.dist (s : State) (a b : ClusterId) : Nat :=
  absDiff (s.phys a / 16) (s.phys b / 16) + absDiff (s.phys a % 16) (s.phys b % 16)
/-- Distance of a coordinate from the two of a quad. -/
def toPair (x q : Nat) : Nat := if x < 2 * q then 2 * q - x else if x ≤ 2 * q + 1 then 0 else x - (2 * q + 1)
/-- Distance from a cluster to the nearest cluster of a slice's quad (R297). -/
def State.distQuad (s : State) (a : ClusterId) (k : SliceId) : Nat :=
  toPair (s.phys a / 16) (k % 64 / 8) + toPair (s.phys a % 16) (k % 64 % 8)
/-- Distance between two quads, nearest clusters. -/
def quadDist (a b : SliceId) : Nat :=
  2 * absDiff (a % 64 / 8) (b % 64 / 8) - (if a % 64 / 8 = b % 64 / 8 then 0 else 1)
    + (2 * absDiff (a % 64 % 8) (b % 64 % 8) - (if a % 64 % 8 = b % 64 % 8 then 0 else 1))
/-- Slice of a cluster's quad (R15). -/
def State.quadOf (s : State) (k : ClusterId) : SliceId :=
  64 * (k / 256) + 8 * (s.phys k / 16 / 2) + s.phys k % 16 / 2
/-- Cluster at a position of a quad (R275). -/
def State.quadCluster (s : State) (q : SliceId) (pos : Nat) : Option ClusterId :=
  s.logical (q / 64) (16 * (2 * (q % 64 / 8) + pos / 2) + 2 * (q % 64 % 8) + pos % 2)

/-- Slot of the rotation that a die's cores are in (R140). -/
def State.turn (s : State) (die : Nat) : Nat := (s.cycle + (if die = 0 then s.phase0 else s.phase1)) % 16
/-- First cycle at or after t that is a multiple of 16 of a die's count (R154). -/
def State.next16 (s : State) (die t : Nat) : Nat :=
  let p := if die = 0 then s.phase0 else s.phase1
  t + (16 - (t + p) % 16) % 16

/-- The 28-bit context number of a context (R147). -/
def State.ctxNumber (s : State) (c : CtxId) : Nat := s.dev.chip.toNat * 65536 + c % 65536

/-! The agenda: work due in later cycles, and work of this cycle that runs next. -/

/-- The entry precedes another of the agenda. -/
def Entry.before (a b : Entry) : Bool :=
  a.due < b.due || (a.due == b.due && (a.ord < b.ord || (a.ord == b.ord && a.seq ≤ b.seq)))

/-- Put an entry in its place. -/
def insertEntry (e : Entry) : List Entry → List Entry
  | [] => [e]
  | x :: t => if x.before e then x :: insertEntry e t else e :: x :: t

/-- Places of the same cycle: replies and acknowledgements first, then issue slots, then the entries from 100 up. -/
def ordReply : Nat := 10
/-- Acknowledgements of stores come after the issue slots of their cycle: what waits for one issues in a later cycle (R142,
R351). -/
def ordAck : Nat := 110
/-- Late entries of a cycle, after the issue slots. -/
def ordLate : Nat := 200

/-- A token not handed out yet; tokens are never 0. -/
def State.token (s : State) : Nat := s.fresh + 1
/-- The token is handed out. -/
def State.tick1 (s : State) : State := { s with fresh := s.fresh + 1 }

/-- Schedule an instruction at a cycle, at a place of that cycle, for a context, at a stage. -/
def State.schedule (s : State) (due ord : Nat) (who : CtxId) (stage : Nat) (i : Instr) : State :=
  { s with
    fresh := s.fresh + 1
    agenda := insertEntry { due := due, ord := ord, seq := s.fresh, who := who, stage := stage, act := .run i } s.agenda }

/-- Schedule an event at a cycle, at a place of that cycle. -/
def State.eventAt (s : State) (due ord : Nat) (e : Ev) : State :=
  { s with
    fresh := s.fresh + 1
    agenda := insertEntry { due := due, ord := ord, seq := s.fresh, act := .ev e } s.agenda }

/-- Schedule an event a number of cycles from now. -/
def State.later (s : State) (delay ord : Nat) (e : Ev) : State := s.eventAt (s.cycle + delay) ord e

/-- An event happens next, in this cycle. -/
def State.now (s : State) (e : Ev) : State := { s with todo := { act := .ev e } :: s.todo }
/-- An event happens in this cycle, after the work already waiting. -/
def State.soon (s : State) (e : Ev) : State := { s with todo := s.todo ++ [{ act := .ev e }] }
/-- Run a context's instruction next, in this cycle. -/
def State.nowFor (s : State) (c : CtxId) (stage : Nat) (i : Instr) : State :=
  { s with todo := { who := c, stage := stage, act := .run i } :: s.todo }

/-- Remove from the agenda every entry that a test names. -/
def State.unschedule (s : State) (p : Entry → Bool) : State := { s with agenda := s.agenda.filter (fun e => !p e) }

/-- Hand a message to the outside. -/
def State.send (s : State) (m : OutMsg) : State := { s with out := s.out ++ [m] }

/-- A rising list with a number put in. -/
def insertNat (w : Nat) : List Nat → List Nat
  | [] => [w]
  | x :: t => if w < x then w :: x :: t else if w = x then x :: t else x :: insertNat w t

/-! General registers (R20, R27). -/

/-- A register as a source: g0 and a dead register read zero (R20, R27). -/
def Ctx.rd (x : Ctx) (r : BitVec 4) : W64 :=
  if r = 0 ∨ x.dead.getLsbD r.toNat then 0 else x.g[r.toNat]

/-- A write of a register: g0 discards it, any other becomes live (R20, R27). -/
def Ctx.wr (x : Ctx) (r : BitVec 4) (v : W64) : Ctx :=
  if r = 0 then x
  else { x with g := x.g.set r.toNat v, dead := x.dead &&& ~~~ (1#16 <<< r.toNat) }

/-- The context waits for the reply with a token. -/
def Ctx.awaits (x : Ctx) (id : Nat) : Bool :=
  match x.why with
  | .reply n => n == id
  | .parked n => n == id
  | .wrs n => n == id
  | .unit n => n == id
  | .walk _ => id == 0
  | .fetch => false
  | _ => false

/-- PC moves past the instruction (R21). -/
def Ctx.adv (x : Ctx) : Ctx := { x with pc := x.pc + 4 }

/-- The registers of TMASK die (R28). -/
def Ctx.kill (x : Ctx) : Ctx := { x with dead := x.dead ||| x.tmask }

/-- The running context. -/
def State.me (s : State) : Ctx := s.ctx s.cur
/-- Replace the running context. -/
def State.setMe (s : State) (x : Ctx) : State := s.setCtx s.cur x
/-- A source register of the running context. -/
def State.rd (s : State) (r : BitVec 4) : W64 := s.me.rd r
/-- Write a register of the running context and move past the instruction. -/
def State.put (s : State) (d : BitVec 4) (v : W64) : State := s.setMe ((s.me.wr d v).adv)

/-! Event counters (R66, R67). -/

/-- Add to a counter, saturating (R67). -/
def Evc.add (e : Evc) (n : Nat) : Evc :=
  if e.count.toNat + n ≤ 0xFFFFFFFF then { e with count := BitVec.ofNat 32 (e.count.toNat + n) }
  else { sat := true, count := 0xFFFFFFFF }

/-- The sum of two counters (R69). -/
def Evc.join (a b : Evc) : Evc := let r := a.add b.count.toNat; { r with sat := r.sat || b.sat || a.sat }
/-- A counter's COUNT added to another's, whose SAT is set only when the addition saturates (R162, R67). -/
def Evc.gain (a b : Evc) : Evc := let r := a.add b.count.toNat; { r with sat := r.sat || a.sat }

/-- Write a counter (R67). -/
def Evc.write (e : Evc) (v : W64) : Evc := { sat := e.sat && !v.getLsbD 32, count := v.setWidth 32 }

/-- A counter as its register reads (R66). -/
def Evc.read (e : Evc) : W64 := (0#31 ++ BitVec.ofBool e.sat ++ e.count)

/-- Counter n of a set. -/
def EvcSet.nth (x : EvcSet) (n : Nat) : Evc := x.getD n {}

/-- Add n to each counter whose condition bit is set (R66). -/
def EvcSet.bump (x : EvcSet) (conds : BitVec 16) (n : Nat) : EvcSet :=
  x.zipIdx.map (fun (e, i) => if conds.getLsbD i then e.add n else e)

/-- Add n to one counter. -/
def EvcSet.bump1 (x : EvcSet) (i n : Nat) : EvcSet := x.zipIdx.map (fun (e, j) => if j = i then e.add n else e)

/-- The sum of two sets (R69, R162). -/
def EvcSet.join (a b : EvcSet) : EvcSet := a.zipWith Evc.join b
/-- The COUNTs of a set added to another's (R162). -/
def EvcSet.gain (a b : EvcSet) : EvcSet := a.zipWith Evc.gain b

/-- Conditions raised by a context's instruction count in its set (R66). -/
def State.count (s : State) (c : CtxId) (conds : BitVec 16) : State :=
  if conds = 0 then s else s.setCtx c { s.ctx c with evc := (s.ctx c).evc.bump conds 1 }

/-- Conditions count in a slice's set (R66). -/
def State.countSlice (s : State) (k : SliceId) (conds : BitVec 16) : State :=
  if conds = 0 then s else s.setSlice k { s.slice k with sevc := (s.slice k).sevc.bump conds 1 }

/-- A condition counts n times in a Loom's set (R66). -/
def State.countLoom (s : State) (l : ClusterId) (cond n : Nat) : State :=
  if n = 0 then s
  else s.setLoom l { s.loom l with k := { (s.loom l).k with levc := (s.loom l).k.levc.bump1 cond n } }

/-! Waiting and waking (R142, R143). -/

/-- The context leaves the rotation in a state for a reason. -/
def State.park (s : State) (c : CtxId) (st : CtxState) (w : Why) : State :=
  let x := s.ctx c
  s.setCtx c { x with st := st, why := w, epoch := x.epoch + 1 }

/-- The context waits (R142). -/
def State.wait (s : State) (c : CtxId) (w : Why) : State := s.park c .waiting w

/-- The context rejoins the rotation: it issues in its first slot after this cycle (R142). -/
def State.wake (s : State) (c : CtxId) : State :=
  let x := s.ctx c
  s.setCtx c { x with st := .issuing, why := .none, readyAt := s.cycle + 1 }

/-- The steward has an event pending (R407): a shown record of another context, a Loom fault, or a wake. -/
def State.pendingEvent (s : State) (k : CoreId) : Bool :=
  let x := s.core k
  !x.trapQ.isEmpty || x.wkcnt != 0 || (k % 8 == 0 && (s.loom (coreCluster k)).k.lfValid)

/-- The WDOG.WAIT limit starts to run on a context that has entered such a wait (R415). -/
def State.watch (s : State) (c : CtxId) : State :=
  let lim := (s.core (coreOf c)).wdWait.toNat
  if lim = 0 then s
  else s.later (lim * 1024) ordLate (.watchdogWaitExpiry c (s.ctx c).epoch)

/-- The steward of a context's core is waiting to stop or save it (R166, R408). -/
def State.beingStopped (s : State) (c : CtxId) : Bool :=
  match (s.ctx (stewardOf (coreOf c))).why with
  | .stopping n => n % 16 == ctxNo c
  | _ => false

/-- Gangs that wait on a die for a context or a Loom are tried again in this cycle (R154). -/
def State.retryAdmission (s : State) (die : Nat) : State :=
  s.dev.launchQ.foldl (fun s (key, l) =>
    if key / 16 = die ∧ !l.isEmpty then s.later 0 ordLate (.gangAdmission die (BitVec.ofNat 4 key)) else s) s

/-! Gangs that are being pre-empted (R413), and freezes (R421). -/

/-- A gang as the state holds it. -/
def State.gang (s : State) (g : Nat) : Gang := Tab.get {} s.dev.gangs g
/-- Replace a gang. -/
def State.setGang (s : State) (g : Nat) (x : Gang) : State := { s with dev := { s.dev with gangs := Tab.set s.dev.gangs g x } }

/-- The states of a dispatch boundary (R413). -/
def CtxState.atBoundary : CtxState → Bool
  | .ended => true
  | .held => true
  | .dispatchWait => true
  | .parked => true
  | .trapped => true
  | _ => false

/-- The context is a member at a boundary of a gang whose pre-emption has reached its cluster: it stays there (R413). -/
def State.heldBack (s : State) (c : CtxId) : Bool :=
  match (s.ctx c).gang with
  | some g => (s.gang g).reached.contains (clusterOf c) && (s.ctx c).st.atBoundary
  | none => false

/-- An event that would end a member's wait is kept for the restore (R413). -/
def State.keepEvent (s : State) (g : Nat) (e : Ev) : State := s.setGang g { s.gang g with kept := (s.gang g).kept ++ [e] }

/-- A freeze of an error of an earlier cycle lasts (R421). -/
def Core.frozen (x : Core) (cycle : Nat) : Bool := x.froze < cycle && cycle < x.thaw
/-- The same of a Loom. -/
def Loom.frozen (x : Loom) (cycle : Nat) : Bool := x.froze < cycle && cycle < x.thaw

/-! Reservations end with the holder's trap, interrupt, pre-emption, migration or stop (R177). -/

/-- Waiting LRs of a slice are tried again (R178). -/
def State.retryLr (s : State) (k : SliceId) : State :=
  (s.slice k).lrWait.foldl (fun s r => s.soon (.reservationRegister k r)) s

/-- Reservations that a test names end at a slice: the holders lose them, and a holder whose WRS is parked there goes on
after a delay (R177, R181). -/
def State.endResv (s : State) (k : SliceId) (p : Resv → Bool) : State :=
  let gone := (s.slice k).resv.filter p
  if gone.isEmpty then s
  else
    let s := s.setSlice k { s.slice k with resv := (s.slice k).resv.filter (fun r => !p r) }
    let s := gone.foldl (fun s r =>
      let x := s.ctx r.who
      let s := s.setCtx r.who { x with resv := none }
      match x.why with
      | .wrs id =>
        if r.wrs then
          let d := 10 + s.distQuad (clusterOf r.who) k + (if dieOf r.who = k / 64 then 0 else 30)
          s.later d ordReply (.replyArrival r.who { id := id, adv := false })
        else s
      | _ => s) s
    s.retryLr k

/-- The holder loses its reservation; its home forgets it. -/
def State.dropResv (s : State) (c : CtxId) : State :=
  match (s.ctx c).resv with
  | none => s
  | some _ =>
    let s := s.slices.foldl (fun s (k, x) =>
      if x.resv.any (fun r => r.who == c) then
        (s.setSlice k { x with resv := x.resv.filter (fun r => r.who != c) }).retryLr k
      else s) s
    s.setCtx c { s.ctx c with resv := none }

/-- An event addressed to a steward ends its IDLE, and an interrupt that it may take ends its WRS, with the reservation
(R137, R177, R181). -/
def State.stewardEvent (s : State) (k : CoreId) : State :=
  let x := s.ctx (stewardOf k)
  match x.st, x.why with
  | .waiting, .event => s.wake (stewardOf k)
  | .parked, .wrs _ => if (s.core k).eie && !(s.core k).inh then (s.dropResv (stewardOf k)).wake (stewardOf k) else s
  | _, _ => s

/-! Twill pairs (R423). -/

/-- The coupled twin of a context, when it has one: the same context of the other core of its even and odd pair. -/
def State.twin (s : State) (c : CtxId) : Option CtxId :=
  let k := coreOf c
  let even := k - k % 2
  if (s.core even).twills.any (fun t => t.ctx == ctxNo c) then
    some ((if k % 2 = 0 then k + 1 else k - 1) * 16 + ctxNo c)
  else none

/-- A context with its twin, or one context. -/
def State.bothOf (s : State) (c : CtxId) : List CtxId := c :: (s.twin c).toList

/-! Taking an exception (R404 to R407). -/

/-- A trap record: cause, class, TIA, TEPC, TVAL. -/
structure TrapRec where
  cause : BitVec 8 := 0
  cls   : BitVec 8 := 0
  tia   : W64 := 0
  tepc  : W64 := 0
  tval  : W64 := 0
  deriving DecidableEq, Repr

/-- The trap state of a context (R405). -/
def Ctx.withTrap (x : Ctx) (t : TrapRec) : Ctx :=
  { x with tia := t.tia, tepc := t.tepc, tval := t.tval, tcause := t.cause, tclass := t.cls, epriv := x.priv
           srcBytes := [], load := none, walked := none, leaf := none, range := none, born := none, acc := none, feTries := 0 }

/-- Every later access of the context is ordered after the stores that it has out: it resumes from a trap (R321). -/
def Ctx.orderAll (x : Ctx) : Ctx := { x with pend := x.pend.map (fun p => { p with all := true }) }

/-- A context discarded to Stopped: registers, GSR, CMASK, counters and reservation are lost (R166). Its stores are still to be
acknowledged (R174). -/
def State.discard (s : State) (c : CtxId) : State :=
  let s := s.dropResv c
  let x := s.ctx c
  let s := { s with orphans := s.orphans ++ x.pend.map (fun (p : Pend) => (c, p.id, max 1 p.pieces.length)) }
  let s := s.setCtx c { ({} : Ctx) with epoch := x.epoch + 1, num := x.num, readyAt := s.cycle + 1 }
  let k := coreOf c
  s.setCore k { s.core k with
    trapQ := (s.core k).trapQ.filter (· != ctxNo c)
    tfQ := (s.core k).tfQ.filter (fun f => f.ctx != ctxNo c) }
  |>.retryAdmission (dieOf c)

/-- The steward enters its trap entry: STEPC takes the resume address, INH is set, PC goes to STVEC (R407). -/
def State.enterTrapEntry (s : State) (k : CoreId) (epc : W64) : State :=
  let c := stewardOf k
  let s := s.setCore k { s.core k with stepc := epc &&& ~~~3#64, inh := true }
  let s := s.dropResv c
  s.setCtx c { s.ctx c with pc := (s.core k).stvec, st := .issuing, why := .none, readyAt := s.cycle + 1, walked := none, leaf := none, range := none, born := none }

/-- A context of a core, 0 to 15. -/
def coreCtxs (k : CoreId) : List CtxId := (List.range 16).map (k * 16 + ·)

/-- A double trap stops the core's sixteen contexts with their state discarded, ends every gang with a member on the core
with STATUS 6, and enters the cluster in the failure log (R407, R461). -/
def State.doubleTrap (s : State) (k : CoreId) : State :=
  let gangs := ((coreCtxs k).filterMap (fun c => (s.ctx c).gang)).eraseDups
  let s := (coreCtxs k).foldl State.discard s
  let s := s.setCore k { s.core k with failed := true }
  let s := { s with thatch := { s.thatch with
    log := (s.thatch.log ++ [256 * (k / 2048) + s.phys (coreCluster k)]).eraseDups } }
  let core0 : W64 := BitVec.ofNat 64 (4096 * s.dev.chip.toNat + 8 * coreCluster k)
  gangs.foldl (fun s g => s.soon (.gangEnd none g 6 core0)) s

/-- A trap record joins its core's queue; records of one cycle stand there in ascending context number (R404). -/
def Core.queueTrap (x : Core) (cycle n : Nat) : Core :=
  let new := (if x.trapIn.1 = cycle then x.trapIn.2 else []).filter x.trapQ.contains
  { x with
    trapQ := x.trapQ.filter (fun m => !new.contains m) ++ insertNat n new
    trapIn := (cycle, insertNat n new) }

/-- One context takes a trap: Trapped, its record queued at its core's steward; the steward takes its own in its trap
entry, or a double trap while INH is 1 (R404, R407). -/
def State.trapOne (s : State) (c : CtxId) (t : TrapRec) : State :=
  let k := coreOf c
  let s := s.dropResv c
  let s := s.setCtx c ((s.ctx c).withTrap t)
  if isSteward c then
    if (s.core k).inh then s.doubleTrap k
    else
      let s := s.setCore k { s.core k with own := true }
      s.enterTrapEntry k t.tepc
  else
    let s := s.setCtx c { s.ctx c with st := .trapped, why := .none, epoch := (s.ctx c).epoch + 1 }
    (s.setCore k ((s.core k).queueTrap s.cycle (ctxNo c))).stewardEvent k

/-- A context takes a trap; a trap of either of a twill pair is taken by both, with one record at the even core's steward
(R404, R423). -/
def State.takeTrap (s : State) (c : CtxId) (t : TrapRec) : State :=
  match s.twin c with
  | none => s.trapOne c t
  | some c2 =>
    let even := if coreOf c % 2 = 0 then c else c2
    let odd := if coreOf c % 2 = 0 then c2 else c
    let s := s.trapOne even t
    let s := s.dropResv odd
    s.setCtx odd { (s.ctx odd).withTrap t with st := .trapped, why := .none, epoch := (s.ctx odd).epoch + 1 }

/-- An exact trap of the running instruction: the registers are as before it (R78, R98, R118). -/
def State.trapMe (s : State) (cause cls : BitVec 8) (tval : W64) : State :=
  s.takeTrap s.cur { cause := cause, cls := cls, tia := s.me.pc, tepc := s.me.pc, tval := tval }

/-- Trap causes of R404. -/
def causeIllegal : BitVec 8 := 0x01
/-- Illegal prefix (R80). -/
def causePrefix : BitVec 8 := 0x02
/-- Privilege (R25). -/
def causePriv : BitVec 8 := 0x03
/-- Misaligned fetch (R21). -/
def causeMisfetch : BitVec 8 := 0x04
/-- Misaligned access (R31). -/
def causeMisaccess : BitVec 8 := 0x05
/-- Translation (R306). -/
def causeTrans : BitVec 8 := 0x06
/-- Refusal (R282). -/
def causeRefusal : BitVec 8 := 0x07
/-- Scratchpad address (R164). -/
def causeScratch : BitVec 8 := 0x08
/-- System call (R135). -/
def causeSyscall : BitVec 8 := 0x09
/-- Program trap (R135). -/
def causeProgram : BitVec 8 := 0x0A
/-- Watchdog (R415). -/
def causeWatchdog : BitVec 8 := 0x0B
/-- Twill mismatch (R423). -/
def causeTwill : BitVec 8 := 0x0C
/-- Uncorrectable error in a value that the instruction reads (R404). -/
def causeUncorr : BitVec 8 := 0x0D

/-- The illegal-prefix trap of an instruction (R80). -/
def State.trapPfx (s : State) (i : Instr) : State := s.trapMe causePrefix 0 ((wordOfInstr i).setWidth 64)
/-- The privilege trap of an instruction (R25). -/
def State.trapPriv (s : State) (i : Instr) : State := s.trapMe causePriv 0 ((wordOfInstr i).setWidth 64)

/-- An instruction that is not format-sensitive: with a prefix pending it takes the illegal-prefix trap (R80). -/
def State.plain (s : State) (i : Instr) (f : State → State) : State := if s.me.pp then s.trapPfx i else f s

/-- A context leaves Trapped to an address at its EPRIV, as SRET resumes it; a member of a gang that is being pre-empted goes
on at the restore (R405, R408, R413). -/
def State.resume (s : State) (c : CtxId) (pc : W64) : State :=
  let x := (s.ctx c).orderAll
  match (if s.heldBack c then x.gang else none) with
  | some g =>
    let id := s.token
    (s.tick1.setCtx c { x with st := .dispatchWait, why := .unit id, epoch := x.epoch + 1, pc := pc, priv := x.epriv }).keepEvent g
      (.replyArrival c { id := id, adv := false })
  | none => s.setCtx c { x with st := .issuing, why := .none, pc := pc, priv := x.epriv, readyAt := s.cycle + 16 }

/-- The return from an exception. In context 0 PC takes STEPC, INH is cleared and the steward's own record goes; in any
other context PC takes TEPC and PRIV takes EPRIV (R136, R405, R407). -/
def State.sret (s : State) : State :=
  let c := s.cur
  if isSteward c then
    let k := coreOf c
    let s := s.setCore k { s.core k with inh := false, own := false }
    s.setMe { s.me.orderAll with pc := (s.core k).stepc }
  else if s.me.tepc &&& 3 ≠ 0 then s.trapMe causeMisfetch 0 s.me.tepc
  else s.setMe { s.me.orderAll with pc := s.me.tepc, priv := s.me.epriv }

/-! Routes, and chips that leave the domain (R417, R430, R434, R449). -/

/-- The ports that lead toward a chip. -/
def State.routeMask (s : State) (chip : Nat) : BitVec 18 := Tab.get 0 s.dev.routes chip &&& ~~~s.dev.down

/-- The Camsum port of a message between two flat core numbers in a class; none where there is no route (R430). -/
def State.portFor (s : State) (sender target cls : Nat) : Option Nat :=
  let chip := target / 4096
  let ports := (List.range 18).filter (fun p => (s.routeMask chip).getLsbD p)
  if s.dev.nchm1.toNat < chip then none else ports[Nat.xor (Nat.xor sender target) cls % ports.length]?

/-- A message is still to be acknowledged; an access through a peer window is until its requester has its answer. -/
def State.linkOpen (s : State) (o : LinkOut) : Bool :=
  let by_ (id : Nat) : Bool :=
    s.dev.reads.any (fun e => e.1 == id && e.2.isNone)
      || s.ctxs.any (fun e => e.2.awaits id || (e.2.why == .fetch && e.1 == id) || e.2.pend.any (fun p => p.id == id))
  match o.b with
  | .load _ _ id => by_ id
  | .store _ _ id => id == 0 || by_ id
  | .atomic _ _ _ _ _ _ id => by_ id
  | _ => true

/-- The message may not leave by the port that it would take: an earlier one of its sender to the chip waits, or is out on a
port that the route has lost (R430). -/
def State.linkHeld (s : State) (o : LinkOut) : Bool :=
  s.links.any (fun x => x.core == o.core && x.chip == o.chip && match x.port with
    | none => true
    | some q => !(s.routeMask o.chip).getLsbD q)

/-- A message to another chip is sent in the name of a flat core, kept until it is acknowledged, or waits for its route; none
is sent where no route leads to the chip (R429, R430, R432, R434; log entry 63). -/
def State.linkOut (s : State) (core chip no : Nat) (b : LinkBody) (req : Option Req := none) : State :=
  match s.portFor core (4096 * chip) 0 with
  | none => s
  | some p =>
    let l : Link := { chip := s.dev.chip.toNat, no := no, dom := s.dev.dom, inc := s.dev.inc, want := Tab.get 0 s.dev.incs chip }
    let o : LinkOut := { port := some p, chip := chip, core := core, l := l, b := b, req := req }
    let s := { s with links := s.links.filter s.linkOpen }
    if s.linkHeld o then { s with links := s.links ++ [{ o with port := none }] }
    else { s with links := s.links ++ [o], out := s.out ++ [.link p chip l b] }

/-- A message of a launch, which core 0 of the first cluster of a die sends (R443; log entry 63). -/
def State.dieOut (s : State) (die chip : Nat) (b : LinkBody) : State :=
  s.tick1.linkOut (4096 * s.dev.chip.toNat + 2048 * die) chip s.token b

/-- A message has been acknowledged; those of its sender that wait for its route may now leave (R430). -/
def State.linkAck (s : State) (no : Nat) : State :=
  let held := s.links.filter (fun o => o.port.isNone)
  let s := { s with links := s.links.filter (fun o => o.port.isSome && o.l.no != no) }
  held.foldl (fun s o => s.linkOut o.core o.chip o.l.no o.b o.req) s

/-- A reply goes back to a chip by the route that its request would take (R430, R432). -/
def State.linkBack (s : State) (core chip : Nat) (b : LinkBody) : State :=
  match s.portFor core (4096 * chip) 0 with
  | none => s
  | some p => s.send (.link p chip
      { chip := s.dev.chip.toNat, dom := s.dev.dom, inc := s.dev.inc, want := Tab.get 0 s.dev.incs chip } b)

/-- INCDROP counts a dropped message, saturating (R432). -/
def State.incDrop (s : State) : State :=
  { s with dev := { s.dev with incdrop := if s.dev.incdrop = -1 then s.dev.incdrop else s.dev.incdrop + 1 } }

/-- A message of another chip is to be dropped: another domain, or another incarnation of its sender (R429, R432). -/
def State.dropsFrom (s : State) (chip : Nat) (dom : BitVec 16) (inc : BitVec 8) : Bool :=
  dom != s.dev.dom || Tab.get 0 s.dev.incs chip != inc

/-- A message of another chip is checked, acknowledged and acted on; a reply or acknowledgement has no number and is not
acknowledged itself (R429, R432). -/
def State.takeLink (s : State) (l : Link) (act : State → State) : State :=
  let ack (s : State) (code : BitVec 8) : State :=
    if l.no = 0 then s else s.linkBack (4096 * s.dev.chip.toNat) l.chip (.status (65536 * l.chip) l.no code 0)
  if s.dropsFrom l.chip l.dom l.inc then s.incDrop
  else if l.want ≠ s.dev.inc then ack s 4
  else act (ack s 0)

/-- What comes from another chip passes the checks first; what happens on this chip has none. -/
def State.fromLink (s : State) (l : Option Link) (act : State → State) : State :=
  match l with
  | none => act s
  | some l => s.takeLink l act

/-- Chip of a peer (R444). -/
def State.peerChip (s : State) (k : Nat) : Nat := (Tab.get (false, 0) s.dev.peers k).2.toNat

/-- Some free bytes (log entry 63). -/
def State.freeBytes (s : State) (n : Nat) : State × List Byte :=
  ({ s with draws := s.draws + n }, (List.range n).map (fun i => Config.freeByte (s.draws + i)))

/-- A chip lies outside the domain, or no route leads to it. -/
def State.chipGone (s : State) (c : Nat) : Bool := c != s.dev.chip.toNat && (s.dev.nchm1.toNat < c || s.routeMask c == 0)

/-- Recalls of pages that some chips have borrowed end with LOST (R449). -/
def State.loseRecalls (s : State) (lost : Nat → Bool) : State :=
  s.dev.lends.foldl (fun s e =>
    if e.2.st == 3 && e.2.kind && lost (Tab.get (false, 0) s.dev.peers e.2.peer.toNat).2.toNat then s.soon (.recallLost e.1) else s) s

/-- A rick with a part on a chip that has left the domain is ended, and that chip's recalls end with LOST (R417, R449). -/
def State.chipsLost (s : State) : State :=
  let s := s.loseRecalls s.chipGone
  s.dev.gangs.foldl (fun s e =>
    match (if e.2.rick then ((List.range (e.2.desc.nchm1 + 1)).map (e.2.desc.c0 + ·)).find? s.chipGone else none) with
    | some c => s.soon (.gangEnd none e.1 3 (BitVec.ofNat 64 (4096 * c)))
    | none => s) s

/-! Starting and ending a context (R29, R35, R137). -/

/-- A context just started: PC, privilege, job slot, its own number, and the argument registers delivered (R29, R35). -/
def State.freshCtx (s : State) (c : CtxId) (pc : W64) (priv : Bool) (slot : BitVec 4) (args : List (BitVec 4 × W64)) : Ctx :=
  let old := s.ctx c
  let x : Ctx := { ({} : Ctx) with
    pc := pc, priv := priv, slot := slot, epoch := old.epoch + 1, num := old.num
    lgn := s.dev.chip ++ BitVec.ofNat 16 c }
  args.foldl (fun x (r, v) => x.wr r v) x

/-- A context ends as IDLE ends it in contexts 1 to 14; AREAP sends it straight to Stopped (R137, R145). -/
def State.endCtx (s : State) (c : CtxId) : State :=
  let k := coreOf c
  let x := s.ctx c
  let s := s.dropResv c
  let s := s.setCtx c { s.ctx c with st := .ended, why := .none, epoch := x.epoch + 1 }
  let s := match x.gang with
    | some g => s.soon (.gangRetire g)
    | none => s
  let s := if x.auto ∧ (s.core k).areap then s.discard c else s
  s.stewardEvent k

end Sys2Proof.Machine
end

