-- ==== Sys2Proof/Machine/Flags.lean ====
section
/-!
DEFINITION. The conditions of R64 as a set of bits, one for each event counter, and the tests from which the compares and
branches decide (R109, R111, R128, R235).
-/

namespace Sys2Proof.Machine

/-- A set of conditions; bit n is the condition of counter n (R64). -/
abbrev Conds := BitVec 16
/-- Invalid. -/
def cInvalid : Conds := 0x0001
/-- Overflow. -/
def cOverflow : Conds := 0x0002
/-- Underflow. -/
def cUnderflow : Conds := 0x0004
/-- Inexact. -/
def cInexact : Conds := 0x0008
/-- Division by zero. -/
def cDivZero : Conds := 0x0010
/-- NaN produced. -/
def cNan : Conds := 0x0020
/-- Refused write. -/
def cRefused : Conds := 0x0040

/-- The condition set when a test holds. -/
def condIf (b : Bool) (c : Conds) : Conds := if b then c else 0

/-- The outcome of a compare-and-branch condition on two 64-bit values (R111). -/
def branchTaken (cond : Nat) (a b : W64) : Bool :=
  match cond with
  | 0 => a == b
  | 1 => a != b
  | 2 => a.slt b
  | 3 => !a.slt b
  | 4 => a.ult b
  | _ => !a.ult b

/-- The outcome of SCMP's condition code on two 32-bit values (R235). -/
def scmpTaken (cc : BitVec 3) (a b : W32) : Bool :=
  match cc.toNat with
  | 0 => a == b
  | 1 => a != b
  | 2 => a.slt b
  | 3 => !a.slt b
  | 4 => a.ult b
  | _ => !a.ult b

end Sys2Proof.Machine
end

