-- ==== Sys2Proof/Machine/Numeric.lean ====
section
/-!
DEFINITION. Number formats and arithmetic (R36 to R63): exact values, the one rounding procedure, special values, the
conversions between formats, and the pairwise tree of a lane reduction. Every function answers a code and the conditions
it raises.
-/

namespace Sys2Proof.Machine

/-- A number format (R36, R39). -/
structure Fmt where
  /-- Width in bits, sign included. -/
  w    : Nat
  /-- Fraction bits p. -/
  p    : Nat
  /-- Least normal exponent. -/
  emin : Int
  /-- Magnitude code of the largest finite value. -/
  maxc : Nat
  /-- The format has infinities. -/
  inf  : Bool
  /-- Magnitude code of the canonical NaN; 0 when the format has none. -/
  nan  : Nat
  deriving DecidableEq, Repr

/-- FP32 (R36). -/
def fp32 : Fmt := ⟨32, 23, -126, 0x7F7FFFFF, true, 0x7FC00000⟩
/-- BF16 (R36). -/
def bf16 : Fmt := ⟨16, 7, -126, 0x7F7F, true, 0x7FC0⟩
/-- FP8 E4M3 (R36). -/
def e4m3 : Fmt := ⟨8, 3, -6, 0x7E, false, 0x7F⟩
/-- FP8 E5M2 (R36). -/
def e5m2 : Fmt := ⟨8, 2, -14, 0x7B, true, 0x7E⟩
/-- FP4 E2M1 (R36). -/
def e2m1 : Fmt := ⟨4, 1, 0, 7, false, 0⟩
/-- The E3M5 block scale, unsigned: the sign bit of the code is never set (R39). -/
def e3m5 : Fmt := ⟨9, 5, -2, 0xFF, false, 0⟩

/-- The exact value of a code. -/
inductive FVal where
  /-- A NaN, signalling or quiet. -/
  | nan (sig : Bool)
  | inf (neg : Bool)
  /-- (−1)^neg × m × 2^e. -/
  | num (neg : Bool) (m : Nat) (e : Int)
  deriving DecidableEq, Repr

/-- The value of a code of a format (R36, R37, R39). -/
def Fmt.val (f : Fmt) (c : Nat) : FVal :=
  let neg := c / 2 ^ (f.w - 1) % 2 == 1
  let mag := c % 2 ^ (f.w - 1)
  if mag > f.maxc then
    if f.inf ∧ mag = f.maxc + 1 then .inf neg
    else .nan (f.inf && mag / 2 ^ (f.p - 1) % 2 == 0)
  else
    let e := mag / 2 ^ f.p
    let m := mag % 2 ^ f.p
    if e = 0 then .num neg m (f.emin - f.p) else .num neg (2 ^ f.p + m) (f.emin - f.p + e - 1)

/-- The value is a NaN. -/
def FVal.isNan : FVal → Bool
  | .nan _ => true
  | _ => false
/-- The value is a signalling NaN. -/
def FVal.isSig : FVal → Bool
  | .nan s => s
  | _ => false
/-- Sign of a value. -/
def FVal.neg : FVal → Bool
  | .nan _ => false
  | .inf n => n
  | .num n _ _ => n

/-- Rounding modes of R42. -/
abbrev Mode := Nat
/-- Nearest, ties to even. -/
def rne : Mode := 0
/-- Toward minus infinity. -/
def rdn : Mode := 3

/-- How a result is rounded: mode, random bits and SAT (R42, R48). -/
structure Rnd where
  mode : Mode := 0
  rnd  : Nat := 0
  sat  : Bool := false
  deriving DecidableEq, Repr

/-- floor(log2(num ÷ den)) of a positive rational (R46). -/
def ratLog2 (num den : Nat) : Int :=
  let l : Int := (num.log2 : Int) - (den.log2 : Int)
  if (if l ≥ 0 then num ≥ den * 2 ^ l.toNat else num * 2 ^ (-l).toNat ≥ den) then l else l - 1

/-- Whether the truncated magnitude n with discarded part rem ÷ den is raised by one (R46, R48). -/
def roundUp (r : Rnd) (neg : Bool) (n rem den : Nat) : Bool :=
  match r.mode with
  | 0 => 2 * rem > den || (2 * rem == den && n % 2 == 1)
  | 2 => rem > 0 && !neg
  | 3 => rem > 0 && neg
  | 4 => rem * 65536 / den + r.rnd % 65536 ≥ 65536
  | _ => false

/-- A result that overflows (R47). -/
def overflowCode (f : Fmt) (r : Rnd) (neg : Bool) : Nat :=
  let s := if neg then 2 ^ (f.w - 1) else 0
  let toInf : Bool := match r.mode with
    | 0 => true
    | 4 => true
    | 2 => !neg
    | 3 => neg
    | _ => false
  if f.inf ∧ !r.sat ∧ toInf then s + f.maxc + 1 else s + f.maxc

/-- round_to of a non-zero rational (−1)^neg × num ÷ den (R46). -/
def roundRat (f : Fmt) (r : Rnd) (neg : Bool) (num den : Nat) : Nat × Conds :=
  let e0 := ratLog2 num den
  let e := max e0 f.emin
  let sh : Int := e - f.p
  let a := if sh ≥ 0 then num else num * 2 ^ (-sh).toNat
  let b := if sh ≥ 0 then den * 2 ^ sh.toNat else den
  let n := a / b
  let rem := a % b
  let n' := if roundUp r neg n rem b then n + 1 else n
  let mag := n' + (e - f.emin).toNat * 2 ^ f.p
  let c := condIf (rem != 0) cInexact ||| condIf (e0 < f.emin && rem != 0) cUnderflow
  if mag > f.maxc then (overflowCode f r neg, c ||| cOverflow ||| cInexact)
  else ((if neg then 2 ^ (f.w - 1) else 0) + mag, c)

/-- A zero of a sign. -/
def Fmt.zero (f : Fmt) (neg : Bool) : Nat := if neg then 2 ^ (f.w - 1) else 0
/-- An infinity of a sign, for a format that has infinities. -/
def Fmt.infCode (f : Fmt) (neg : Bool) : Nat := f.zero neg + f.maxc + 1

/-- round_to of an exact dyadic value (R46). -/
def roundVal (f : Fmt) (r : Rnd) : FVal → Nat × Conds
  | .nan _ => (f.nan, cNan)
  | .inf neg => (f.infCode neg, 0)
  | .num neg m e =>
    if m = 0 then (f.zero neg, 0)
    else if e ≥ 0 then roundRat f r neg (m * 2 ^ e.toNat) 1 else roundRat f r neg m (2 ^ (-e).toNat)

/-! Exact sums and products of values, with the invalid cases of R50. -/

/-- Invalid for a signalling operand (R49). -/
def sigConds (xs : List FVal) : Conds := condIf (xs.any FVal.isSig) cInvalid

/-- The exact product (R50). -/
def FVal.mul (a b : FVal) : FVal × Conds :=
  match a, b with
  | .nan _, _ => (.nan false, 0)
  | _, .nan _ => (.nan false, 0)
  | .inf x, .inf y => (.inf (x != y), 0)
  | .inf x, .num y m _ => if m = 0 then (.nan false, cInvalid) else (.inf (x != y), 0)
  | .num x m _, .inf y => if m = 0 then (.nan false, cInvalid) else (.inf (x != y), 0)
  | .num x m e, .num y n k => (.num (x != y) (m * n) (e + k), 0)

/-- The exact sum; a zero sum of opposite signs is +0, or −0 under RDN (R50). -/
def FVal.add (mode : Mode) (a b : FVal) : FVal × Conds :=
  match a, b with
  | .nan _, _ => (.nan false, 0)
  | _, .nan _ => (.nan false, 0)
  | .inf x, .inf y => if x = y then (.inf x, 0) else (.nan false, cInvalid)
  | .inf x, _ => (.inf x, 0)
  | _, .inf y => (.inf y, 0)
  | .num x m e, .num y n k =>
    let l := min e k
    let p : Int := (if x then -1 else 1) * (m : Int) * 2 ^ (e - l).toNat
    let q : Int := (if y then -1 else 1) * (n : Int) * 2 ^ (k - l).toNat
    let t := p + q
    if t = 0 then (.num (if x = y then x else mode == rdn) 0 0, 0)
    else (.num (t < 0) t.natAbs l, 0)

/-- Negation. -/
def FVal.negate : FVal → FVal
  | .nan s => .nan s
  | .inf n => .inf (!n)
  | .num n m e => .num (!n) m e

/-- Addition in FP32 codes (R46, R49, R50). -/
def fadd (r : Rnd) (a b : Nat) : Nat × Conds :=
  let x := fp32.val a; let y := fp32.val b
  let (v, c) := x.add r.mode y
  let (o, c') := roundVal fp32 r v
  (o, c ||| c' ||| sigConds [x, y])

/-- Subtraction: a + (−b); a NaN operand keeps its kind (R125). -/
def fsub (r : Rnd) (a b : Nat) : Nat × Conds :=
  let x := fp32.val a; let y := (fp32.val b).negate
  let (v, c) := x.add r.mode y
  let (o, c') := roundVal fp32 r v
  (o, c ||| c' ||| sigConds [x, y])

/-- Multiplication (R125). -/
def fmul (r : Rnd) (a b : Nat) : Nat × Conds :=
  let x := fp32.val a; let y := fp32.val b
  let (v, c) := x.mul y
  let (o, c') := roundVal fp32 r v
  (o, c ||| c' ||| sigConds [x, y])

/-- Fused multiply-add; 0 × ∞ is invalid with any addend (R126). -/
def ffma (r : Rnd) (a b d : Nat) : Nat × Conds :=
  let x := fp32.val a; let y := fp32.val b; let z := fp32.val d
  let (v, c) := x.mul y
  let (t, c2) := v.add r.mode z
  let (o, c') := roundVal fp32 r t
  (o, c ||| c2 ||| c' ||| sigConds [x, y, z])

/-- Division (R50, R125). -/
def fdiv (r : Rnd) (a b : Nat) : Nat × Conds :=
  let x := fp32.val a; let y := fp32.val b
  let sc := sigConds [x, y]
  match x, y with
  | .nan _, _ => (fp32.nan, cNan ||| sc)
  | _, .nan _ => (fp32.nan, cNan ||| sc)
  | .inf _, .inf _ => (fp32.nan, cNan ||| cInvalid)
  | .inf n, .num k _ _ => (fp32.infCode (n != k), 0)
  | .num n _ _, .inf k => (fp32.zero (n != k), 0)
  | .num n m e, .num k q l =>
    if q = 0 then (if m = 0 then (fp32.nan, cNan ||| cInvalid) else (fp32.infCode (n != k), cDivZero))
    else if m = 0 then (fp32.zero (n != k), 0)
    else
      let d := e - l
      if d ≥ 0 then roundRat fp32 r (n != k) (m * 2 ^ d.toNat) q else roundRat fp32 r (n != k) m (q * 2 ^ (-d).toNat)

/-- The integer square root of n, from its bits below k. -/
def isqrtAux (n : Nat) : Nat → Nat → Nat
  | 0, r => r
  | k + 1, r => isqrtAux n k (if (r + 2 ^ k) * (r + 2 ^ k) ≤ n then r + 2 ^ k else r)
/-- The integer square root. -/
def isqrt (n : Nat) : Nat := isqrtAux n (n.log2 / 2 + 1) 0

/-- Square root (R50, R125). The root is taken to 64 bits below its unit with one sticky half unit, so that every rounding
decision of R46 is that of the exact root. -/
def fsqrt (r : Rnd) (a : Nat) : Nat × Conds :=
  match fp32.val a with
  | .nan s => (fp32.nan, cNan ||| condIf s cInvalid)
  | .inf neg => if neg then (fp32.nan, cNan ||| cInvalid) else (fp32.infCode false, 0)
  | .num neg m e =>
    if m = 0 then (fp32.zero neg, 0)
    else if neg then (fp32.nan, cNan ||| cInvalid)
    else
      let m' := if e % 2 = 0 then m else 2 * m
      let h := (if e % 2 = 0 then e else e - 1) / 2
      let n := m' * 2 ^ 128
      let q := isqrt n
      let top := 2 * q + (if q * q = n then 0 else 1)
      roundVal fp32 r (.num false top (h - 65))

/-- The order of R51 on values that are no NaN: −0 below +0. -/
def fless (a b : FVal) : Bool :=
  match a, b with
  | .inf x, .inf y => x && !y
  | .inf x, .num .. => x
  | .num .., .inf y => !y
  | .num x m e, .num y n k =>
    let l := min e k
    let p : Int := (if x then -1 else 1) * (m : Int) * 2 ^ (e - l).toNat
    let q : Int := (if y then -1 else 1) * (n : Int) * 2 ^ (k - l).toNat
    if p = q then x && !y && m == 0 else p < q
  | _, _ => false

/-- Maximum or minimum of two codes of a format (R51). -/
def fmaxmin (f : Fmt) (isMax : Bool) (a b : Nat) : Nat × Conds :=
  let x := f.val a; let y := f.val b
  if x.isNan ∨ y.isNan then (f.nan, cNan ||| sigConds [x, y])
  else if isMax then (if fless x y then b else a, 0)
  else (if fless y x then b else a, 0)

/-- Values equal, −0 and +0 alike (R128). -/
def feqVal (a b : FVal) : Bool :=
  match a, b with
  | .nan _, _ => false
  | _, .nan _ => false
  | .num _ 0 _, .num _ 0 _ => true
  | _, _ => !fless a b && !fless b a

/-- FEQ (R128). -/
def feq (a b : Nat) : Bool × Conds :=
  let x := fp32.val a; let y := fp32.val b
  (feqVal x y, sigConds [x, y])
/-- FLT (R128). -/
def flt (a b : Nat) : Bool × Conds :=
  let x := fp32.val a; let y := fp32.val b
  if x.isNan ∨ y.isNan then (false, cInvalid) else (fless x y && !feqVal x y, 0)
/-- FLE (R128). -/
def fle (a b : Nat) : Bool × Conds :=
  let x := fp32.val a; let y := fp32.val b
  if x.isNan ∨ y.isNan then (false, cInvalid) else (fless x y || feqVal x y, 0)

/-! The format payload (R42). -/

/-- FORMAT. -/
def plFmt (p : BitVec 12) : Nat := (p.extractLsb' 8 4).toNat
/-- SCALE. -/
def plScale (p : BitVec 12) : Nat := (p.extractLsb' 6 2).toNat
/-- ROUND. -/
def plRound (p : BitVec 12) : Nat := (p.extractLsb' 3 3).toNat
/-- SAT. -/
def plSat (p : BitVec 12) : Bool := p.getLsbD 2
/-- SPARSE. -/
def plSparse (p : BitVec 12) : Nat := (p.extractLsb' 0 2).toNat
/-- The rounding that a payload and a random vector give. -/
def plRnd (p : BitVec 12) (rnd : Nat) : Rnd := { mode := plRound p, rnd := rnd % 65536, sat := plSat p }
/-- The floating-point format of a FORMAT code. -/
def fmtOf (n : Nat) : Fmt :=
  match n with
  | 0 => fp32
  | 1 => bf16
  | 2 => e4m3
  | 3 => e5m2
  | _ => e2m1
/-- Width in bits of a FORMAT code (R129). -/
def fmtWidth (n : Nat) : Nat :=
  match n with
  | 0 => 32
  | 1 => 16
  | 2 => 8
  | 3 => 8
  | 4 => 4
  | 5 => 8
  | _ => 32

/-! Conversions (R53 to R57). -/

/-- A NaN widens in its fixed fraction bits (R53). -/
def widenNan (n c : Nat) : Nat :=
  match n with
  | 1 => c * 65536
  | 3 => (c / 128) * 2 ^ 31 + 0x7F800000 + (c % 4) * 2 ^ 21
  | 2 => (c / 128) * 2 ^ 31 + 0x7FC00000
  | _ => c

/-- The signed value of the low n bits. -/
def toSigned (n x : Nat) : Int := if x % 2 ^ n ≥ 2 ^ (n - 1) then (x % 2 ^ n : Int) - 2 ^ n else (x % 2 ^ n : Int)

/-- round_to of an exact integer (R55). -/
def roundInt (f : Fmt) (r : Rnd) (x : Int) : Nat × Conds :=
  if x = 0 then (0, 0) else roundRat f r (x < 0) x.natAbs 1

/-- Widening to FP32 from a narrow format, with an E3M5 scale when one is given (R53, R57). -/
def widen (n : Nat) (scale : Option Nat) (c : Nat) : Nat :=
  if n = 5 then (roundInt fp32 {} (toSigned 8 c)).1
  else
    let f := fmtOf n
    let c := c % 2 ^ f.w
    match f.val c with
    | .nan _ => widenNan n c
    | .inf neg => fp32.infCode neg
    | v =>
      match scale with
      | none => (roundVal fp32 {} v).1
      | some s => if s % 256 = 0 then 0 else (roundVal fp32 {} (v.mul (e3m5.val (s % 256))).1).1

/-- An FP32 NaN narrows in its leading fraction bits (R53). -/
def narrowNan (n c : Nat) : Nat × Conds :=
  let sgn := c / 2 ^ 31 % 2
  let fr := c % 2 ^ 23
  match n with
  | 1 => (sgn * 2 ^ 15 + 0x7F80 + (if fr / 2 ^ 16 = 0 then 0x40 else fr / 2 ^ 16), 0)
  | 3 => (sgn * 2 ^ 7 + 0x7C + (if fr / 2 ^ 21 = 0 then 2 else fr / 2 ^ 21), 0)
  | 2 => (sgn * 2 ^ 7 + 0x7F, 0)
  | _ => (sgn * 8 + 7, cInvalid)

/-- Narrowing from FP32 to BF16, E4M3, E5M2 or E2M1, with an E3M5 scale when one is given (R53, R54, R57). -/
def narrow (n : Nat) (r : Rnd) (scale : Option Nat) (c : Nat) : Nat × Conds :=
  let f := fmtOf n
  if scale.any (· % 256 == 0) then (0, 0)
  else
    match fp32.val c with
    | .nan _ => narrowNan n c
    | .inf neg =>
      if f.inf then (f.infCode neg, 0) else (f.zero neg + f.maxc, cOverflow ||| cInexact)
    | .num neg m e =>
      if m = 0 then (f.zero neg, 0)
      else
        match scale with
        | none => roundVal f r (.num neg m e)
        | some s =>
          match e3m5.val (s % 256) with
          | .num _ sm se =>
            let d := e - se
            if d ≥ 0 then roundRat f r neg (m * 2 ^ d.toNat) sm else roundRat f r neg m (sm * 2 ^ (-d).toNat)
          | _ => (0, 0)

/-- Rounding an exact value to an integer, with the inexact condition (R55). -/
def toInteger (r : Rnd) (neg : Bool) (m : Nat) (e : Int) : Int × Bool :=
  let a := if e ≥ 0 then m * 2 ^ e.toNat else m
  let b := if e ≥ 0 then 1 else 2 ^ (-e).toNat
  let n := a / b
  let n' := if roundUp r neg n (a % b) b then n + 1 else n
  (if neg then -(n' : Int) else n', a % b != 0)

/-- Conversion of FP32 to a signed integer of w bits, saturating (R55). -/
def toInt (w : Nat) (r : Rnd) (c : Nat) : Int × Conds :=
  match fp32.val c with
  | .nan _ => (0, cInvalid)
  | .inf neg => (if neg then -2 ^ (w - 1) else 2 ^ (w - 1) - 1, cInvalid)
  | .num neg m e =>
    let (i, inex) := toInteger r neg m e
    if i > 2 ^ (w - 1) - 1 then (2 ^ (w - 1) - 1, cInvalid)
    else if i < -2 ^ (w - 1) then (-2 ^ (w - 1), cInvalid)
    else (i, condIf inex cInexact)

/-- The E3M5 scale of a block whose largest magnitude is an FP32 code (R132). -/
def mkscl (mode : Mode) (c : Nat) : Nat × Conds :=
  match fp32.val (c % 2 ^ 31) with
  | .nan _ => (0xFF, cInvalid)
  | .inf _ => (0xFF, cInvalid)
  | .num _ m e =>
    if m = 0 then (0, 0)
    else
      let (y, k) := if e ≥ 0 then roundRat e3m5 { mode := mode } false (m * 2 ^ e.toNat) 6
        else roundRat e3m5 { mode := mode } false m (6 * 2 ^ (-e).toNat)
      if y = 0 then (1, k ||| cUnderflow ||| cInexact) else (y, k)

/-- Addition of two BF16 codes under RNE (R52). -/
def bfAdd (a b : Nat) : Nat × Conds :=
  let x := bf16.val a; let y := bf16.val b
  let (v, c) := x.add rne y
  let (o, c') := roundVal bf16 {} v
  (o, c ||| c' ||| sigConds [x, y])

/-! The combine of an operator tag (R187, R341). -/

/-- combine of partial p with value v under a tag; the low bytes of the operator's size are meant. -/
def combine (tag : BitVec 4) (p v : Nat) : Nat × Conds :=
  match tag.toNat with
  | 1 => ((p + v) % 2 ^ 32, 0)
  | 2 => ((p + v) % 2 ^ 64, 0)
  | 3 => fadd {} (p % 2 ^ 32) (v % 2 ^ 32)
  | 4 =>
    let (l, c) := bfAdd (p % 2 ^ 16) (v % 2 ^ 16)
    let (h, d) := bfAdd (p / 2 ^ 16 % 2 ^ 16) (v / 2 ^ 16 % 2 ^ 16)
    (h * 2 ^ 16 + l, c ||| d)
  | 5 => (if toSigned 32 p < toSigned 32 v then v % 2 ^ 32 else p % 2 ^ 32, 0)
  | 6 => (if toSigned 32 v < toSigned 32 p then v % 2 ^ 32 else p % 2 ^ 32, 0)
  | 7 => (max (p % 2 ^ 32) (v % 2 ^ 32), 0)
  | 8 => (min (p % 2 ^ 32) (v % 2 ^ 32), 0)
  | 9 => fmaxmin fp32 true (p % 2 ^ 32) (v % 2 ^ 32)
  | 10 => fmaxmin fp32 false (p % 2 ^ 32) (v % 2 ^ 32)
  | 11 => (Nat.lor (p % 2 ^ 64) (v % 2 ^ 64), 0)
  | 12 => (Nat.land (p % 2 ^ 64) (v % 2 ^ 64), 0)
  | 13 => (Nat.xor (p % 2 ^ 64) (v % 2 ^ 64), 0)
  | _ => (p, 0)

/-! The pairwise tree of a lane reduction (R62). -/

/-- One level of the tree: neighbours combine, an absent one passes the other on. -/
def treeLevel (op : Nat → Nat → Nat × Conds) : List (Option Nat) → List (Option Nat) × List Conds
  | some a :: some b :: t =>
    let (v, c) := op a b
    let (r, cs) := treeLevel op t
    (some v :: r, c :: cs)
  | some a :: none :: t => let (r, cs) := treeLevel op t; (some a :: r, cs)
  | none :: b :: t => let (r, cs) := treeLevel op t; (b :: r, cs)
  | [a] => ([a], [])
  | [] => ([], [])

/-- Levels of the tree, and the conditions of every node (R62). -/
def treeFold (op : Nat → Nat → Nat × Conds) : Nat → List (Option Nat) → Option Nat × List Conds
  | 0, xs => (xs.headD none, [])
  | n + 1, xs =>
    let (ys, cs) := treeLevel op xs
    let (r, ds) := treeFold op n ys
    (r, cs ++ ds)

end Sys2Proof.Machine
end

