-- ==== Sys2Proof/Machine/Operands.lean ====
section
/-!
DEFINITION. The operand forms of the grain instructions: immediates, offsets, effective addresses, ordering classes and the
fields of control values (R72, R73, R106, R119, R120).
-/

namespace Sys2Proof.Machine

/-- A signed immediate widened to 64 bits (R73). -/
def sx {n : Nat} (x : BitVec n) : W64 := x.signExtend 64
/-- A value widened with zeros to 64 bits. -/
def zx {n : Nat} (x : BitVec n) : W64 := x.setWidth 64

/-- The low 32 bits, sign-extended (R99). -/
def sext32 (x : W64) : W64 := (x.setWidth 32).signExtend 64

/-- Effective address of a memory access of size s: the base plus the scaled offset (R119). -/
def effAddr (base : W64) (off : BitVec 10) (size : Nat) : W64 := base + sx off * BitVec.ofNat 64 size

/-- The ordering class of an access: GSR.OCLS when DC is 1, else CLS (R73, R120). -/
def Ctx.cls (x : Ctx) (dc : Bool) (cls : BitVec 4) : BitVec 4 := if dc then x.ocls else cls

/-- Target of a branch (R73, R111). -/
def branchTarget (pc : W64) (off : BitVec 15) : W64 := pc + 4 * sx off
/-- Target of a JAL (R73, R112). -/
def jalTarget (pc : W64) (off : BitVec 22) : W64 := pc + 4 * sx off

/-- The address is a multiple of n. -/
def aligned (a : W64) (n : Nat) : Bool := a.toNat % n == 0
/-- The n bytes from the address would pass the top of the address space (R31). -/
def wraps (a : W64) (n : Nat) : Bool := a.toNat + n > 2 ^ 64

/-- POS, width and sign bit of a BEXT or BINS control value (R106). -/
def fieldPos (c : W64) : Nat := (c.extractLsb' 0 6).toNat
/-- Width of the field. -/
def fieldWidth (c : W64) : Nat := (c.extractLsb' 8 6).toNat + 1
/-- The field is sign-extended. -/
def fieldSigned (c : W64) : Bool := c.getLsbD 15

/-- Bytes of an access by the function code of a load (R119). -/
def loadSize (fn : BitVec 3) : Nat := if fn.toNat < 2 then 1 else if fn.toNat < 4 then 2 else if fn.toNat < 6 then 4 else 8

/-- A loaded value as its instruction writes it: sign- or zero-extended by the function code (R119). -/
def loadExtend (fn : BitVec 3) (v : W64) : W64 :=
  match fn.toNat with
  | 0 => (v.setWidth 8).signExtend 64
  | 1 => zx (v.setWidth 8)
  | 2 => (v.setWidth 16).signExtend 64
  | 3 => zx (v.setWidth 16)
  | 4 => (v.setWidth 32).signExtend 64
  | 5 => zx (v.setWidth 32)
  | _ => v

/-- Bytes of a GADD by its operator tag (R187). -/
def gaddSize (tag : BitVec 4) : Nat := if tag = 2 ∨ tag = 11 ∨ tag = 12 ∨ tag = 13 then 8 else 4

/-- Function codes of major 0x16 with 4-byte operands: AMOFADD alone (R179). -/
def fxSize (fn : BitVec 4) : Nat := if fn = 12 then 4 else 8

end Sys2Proof.Machine
end

