-- ==== Sys2Proof/Machine/Memory.lean ====
section
/-!
DEFINITION. Bytes, words, lines and full-empty bits of memory, the physical map, homes, and the refusal of writes into pool
pages (R30, R290 to R298, R282).
-/

namespace Sys2Proof.Machine

/-! Cells: addresses strictly rising, no cell zero, since an unlisted byte reads zero (R298). -/

/-- The canonical form of a memory. -/
def Memory.sorted : List Host.Cell → Bool
  | [] => true
  | [_] => true
  | a :: b :: t => a.1 < b.1 && Memory.sorted (b :: t)
/-- No cell holds the byte that an unlisted address reads as. -/
def Memory.noZero (m : List Host.Cell) : Bool := m.all (fun c => c.2 != 0)
/-- The canonical form holds. -/
def Memory.wf (m : List Host.Cell) : Bool := Memory.sorted m && Memory.noZero m

/-- One byte of memory. -/
def Memory.byte (m : List Host.Cell) (a : Nat) : Byte := Tab.get 0 m a
/-- The cells of a run of bytes, zeros left out. -/
def Memory.cells : Nat → List Byte → List Host.Cell
  | _, [] => []
  | a, b :: t => if b = 0 then Memory.cells (a + 1) t else (a, b) :: Memory.cells (a + 1) t
/-- n bytes of memory from an address. -/
def Memory.read (m : List Host.Cell) (a n : Nat) : List Byte :=
  let w := m.filter (fun c => a ≤ c.1 && c.1 < a + n)
  (List.range n).map (fun i => Memory.byte w (a + i))
/-- Write a run of bytes. -/
def Memory.write (m : List Host.Cell) (a : Nat) (bs : List Byte) : List Host.Cell :=
  m.filter (fun c => c.1 < a) ++ (Memory.cells a bs ++ m.filter (fun c => a + bs.length ≤ c.1))

/-- Bits of a dword as a number. -/
def bitsAt (w : W64) (lo n : Nat) : Nat := w.toNat / 2 ^ lo % 2 ^ n

/-- The cells of a range of addresses. -/
def Memory.span (m : List Host.Cell) (lo hi : Nat) : List Host.Cell := m.filter (fun c => lo ≤ c.1 && c.1 < hi)
/-- A range of addresses holds what some cells of it say, and zero elsewhere; cells that are not in the one form of memory, which no
save leaves, say nothing. -/
def Memory.splice (m : List Host.Cell) (lo hi : Nat) (l : List Host.Cell) : List Host.Cell :=
  m.filter (fun c => c.1 < lo) ++ ((if Memory.wf l then Memory.span l lo hi else []) ++ m.filter (fun c => hi ≤ c.1))

/-- The little-endian number of a run of bytes (R30). -/
def leNat : List Byte → Nat
  | [] => 0
  | b :: t => b.toNat + 256 * leNat t
/-- The n little-endian bytes of a number (R30). -/
def leBytes : Nat → Nat → List Byte
  | 0, _ => []
  | n + 1, x => BitVec.ofNat 8 x :: leBytes n (x / 256)

/-- Bytes o to o + n − 1 of a line. -/
def LineData.bytes (d : LineData) (o n : Nat) : List Byte := leBytes n (d.toNat / 256 ^ o)
/-- A line with bytes written from offset o. -/
def LineData.put (d : LineData) (o : Nat) (bs : List Byte) : LineData :=
  let m := (256 ^ bs.length - 1) * 256 ^ o
  (d &&& ~~~BitVec.ofNat 1024 m) ||| BitVec.ofNat 1024 (leNat bs * 256 ^ o)

/-! The physical map (R290). -/

/-- Where a physical address leads. -/
inductive Region where
  | hbm
  /-- Scratchpad of a cluster, with the byte offset. -/
  | scratch (cl : ClusterId) (off : Nat)
  /-- B-store of a cluster, with the byte offset. -/
  | bstore (cl : ClusterId) (off : Nat)
  /-- A host window (R444). -/
  | host (port : Nat)
  /-- A peer window, with the peer's number (R444). -/
  | peer (k : Nat)
  | none
  deriving DecidableEq, Repr

/-- Bytes of HBM4 on a full part (R290). -/
def hbmBytes : Nat := 2 ^ 39

/-- Bytes of this part's HBM4 (R471). -/
def State.hbmLen (s : State) : Nat := 2 ^ 34 * s.thatch.hch.toNat

/-- The region of a physical address (R290, R444, R471). -/
def State.region (s : State) (pa : Nat) : Region :=
  if pa < hbmBytes then (if pa < s.hbmLen then .hbm else .none)
  else if pa < 0x8080000000 then
    let o := pa - 0x8000000000
    let cl := o / 0x400000
    if !s.clusterValid cl then .none
    else if o % 0x400000 < 0x300000 then .scratch cl (o % 0x400000) else .bstore cl (o % 0x400000 - 0x300000)
  else if pa < 2 ^ 51 then .none
  else if pa < 0xA000000000000 then .host (pa / 2 ^ 48 % 2)
  else if pa < 0xC000000000000 then
    let k := (pa - 0xA000000000000) / 2 ^ 39
    if (Tab.get (false, 0) s.dev.peers k).1 then .peer k else .none
  else .none

/-- First byte of a cluster's window (R290). -/
def windowBase (cl : ClusterId) : Nat := 0x8000000000 + cl * 0x400000
/-- Scratchpad bank of an offset (R291). -/
def bankOf (off : Nat) : Nat := off / 128 % 32

/-! Lines and homes (R294, R295). -/

/-- Line number of a physical address. -/
def lineOf (pa : Nat) : Nat := pa / 128
/-- The xor of the n-bit fields of x, k of them. -/
def foldXor (n : Nat) : Nat → Nat → Nat
  | 0, _ => 0
  | k + 1, x => Nat.xor (x % 2 ^ n) (foldXor n k (x / 2 ^ n))
/-- Home slice H[6:0] of a line: its die is H[6], its index H[5:0] (R294). -/
def homeOf (line : Nat) : SliceId := Nat.xor (foldXor 7 6 line) (line / 2 ^ 42 % 8)
/-- Memory-side slice M[5:0] of a line (R294). -/
def memSideOf (line : Nat) : Nat := Nat.xor (foldXor 6 7 line) (line / 2 ^ 42 % 8)
/-- Serving slice of a line for a core of a die (R295). -/
def servingOf (die line : Nat) : SliceId := 64 * die + homeOf line % 64
/-- Die of the home. -/
def homeDie (line : Nat) : Nat := homeOf line / 64

/-- Slice whose counters and reservation table serve an address: the home, or the slice of the owner's quad (R66). -/
def State.pointSlice (s : State) (pa : Nat) : SliceId :=
  match s.region pa with
  | .scratch cl _ => s.quadOf cl
  | _ => homeOf (lineOf pa)

/-- A line's copy at the slice of a die. -/
def Line.sl (x : Line) (die : Nat) : SlLine := if die = 0 then x.s0 else x.s1
/-- Replace a line's copy at the slice of a die. -/
def Line.setSl (x : Line) (die : Nat) (y : SlLine) : Line := if die = 0 then { x with s0 := y } else { x with s1 := y }
/-- A line's copy at the slice of a die. -/
def State.sl (s : State) (line die : Nat) : SlLine := (s.line line).sl die
/-- Replace a line's copy at the slice of a die. -/
def State.setSl (s : State) (line die : Nat) (y : SlLine) : State := s.setLine line ((s.line line).setSl die y)
/-- The home slice's copy. -/
def State.home (s : State) (line : Nat) : SlLine := s.sl line (homeDie line)

/-! Distances (R297). -/

/-- Cycles for a request between a cluster and a slice, one way. -/
def State.toSlice (s : State) (cl : ClusterId) (k : SliceId) : Nat :=
  10 + s.distQuad cl k + (if cl / 256 = k / 64 then 0 else 30)
/-- Cycles for a request between a cluster and a scratchpad, one way. -/
def State.toBank (s : State) (cl owner : ClusterId) : Nat :=
  5 + s.dist cl owner + (if cl / 256 = owner / 256 then 0 else 30)
/-- Cycles for a request between two clusters, one way (R151). -/
def State.toCluster (s : State) (a b : ClusterId) : Nat :=
  10 + s.dist a b + (if a / 256 = b / 256 then 0 else 30)

/-! Full-empty bits (R298). -/

/-- The word is empty. -/
def State.isEmpty (s : State) (word : Nat) : Bool := s.empties.contains word
/-- Set a word's bit in HBM4 or scratchpad. -/
def State.setEmpty (s : State) (word : Nat) (e : Bool) : State :=
  { s with empties := if e then insertNat word s.empties else s.empties.filter (· != word) }

/-- A line as HBM4 holds it. -/
def State.hbmLine (s : State) (line : Nat) : LineData := BitVec.ofNat 1024 (leNat (Memory.read s.mem (128 * line) 128))
/-- Its full-empty bits. -/
def State.hbmFe (s : State) (line : Nat) : BitVec 16 :=
  BitVec.ofNat 16 ((List.range 16).foldr (fun i n => 2 * n + (if s.isEmpty (16 * line + i) then 0 else 1)) 0)
/-- Write a line and its bits back to HBM4 (R295). -/
def State.putHbm (s : State) (line : Nat) (d : LineData) (fe : BitVec 16) : State :=
  { s with
    mem := Memory.write s.mem (128 * line) (LineData.bytes d 0 128)
    empties := (List.range 16).foldl (fun l i =>
      if fe.getLsbD i then l.filter (· != 16 * line + i) else insertNat (16 * line + i) l) s.empties }
/-- The line that the memory-side slice answers with: its cached copy, or HBM4 (R296). -/
def State.memSide (s : State) (line : Nat) : LineData × BitVec 16 :=
  match (s.line line).msc with
  | some (d, fe, _) => (d, fe)
  | Option.none => (s.hbmLine line, s.hbmFe line)
/-- Lines of a memory-side slice (R296). -/
def mscLines : Nat := 262144

/-- A memory-side slice that is full writes a line back to HBM4 before it takes another; which line goes is a free value (R295,
R296; log entry 11). -/
def State.mscRoom (s : State) (line : Nat) : State :=
  let l := (s.lines.filter (fun e => memSideOf e.1 == memSideOf line && e.2.msc.isSome && e.1 != line)).map (·.1)
  if l.length < mscLines then s
  else
    let n := l.getD (Config.freeVictim s.draws % l.length) line
    let s := { s with draws := s.draws + 1 }
    match (s.line n).msc with
    | some (d, fe, true) => (s.putHbm n d fe).setLine n { s.line n with msc := Option.none }
    | _ => s.setLine n { s.line n with msc := Option.none }

/-- The memory-side slice takes a line (R295). -/
def State.putMemSide (s : State) (line : Nat) (d : LineData) (fe : BitVec 16) : State :=
  let s := s.mscRoom line
  s.setLine line { s.line line with msc := some (d, fe, true) }
/-- A read fills the memory-side cache (R296). -/
def State.fillMemSide (s : State) (line : Nat) : State :=
  match (s.line line).msc with
  | some _ => s
  | Option.none =>
    let s := s.mscRoom line
    s.setLine line { s.line line with msc := some (s.hbmLine line, s.hbmFe line, false) }

/-! The point of performance: the home's copy of a line, or the bank (R175, R291). -/

/-- Bytes read at the point of an address. -/
def State.pointRead (s : State) (pa n : Nat) : List Byte :=
  if pa < hbmBytes then LineData.bytes (s.home (lineOf pa)).data (pa % 128) n else Memory.read s.mem pa n
/-- Bytes written at the point of an address. -/
def State.pointWrite (s : State) (pa : Nat) (bs : List Byte) : State :=
  if pa < hbmBytes then
    let l := lineOf pa
    let h := s.home l
    s.setSl l (homeDie l) { h with data := LineData.put h.data (pa % 128) bs, st := .m }
  else { s with mem := Memory.write s.mem pa bs }
/-- The word at an address is full. -/
def State.pointFull (s : State) (pa : Nat) : Bool :=
  if pa < hbmBytes then (s.home (lineOf pa)).fe.getLsbD (pa % 128 / 8) else !s.isEmpty (pa / 8)
/-- Set the full-empty bit of the word at an address. -/
def State.pointSetFull (s : State) (pa : Nat) (full : Bool) : State :=
  if pa < hbmBytes then
    let l := lineOf pa
    let h := s.home l
    let b := 1#16 <<< (pa % 128 / 8)
    s.setSl l (homeDie l) { h with fe := if full then h.fe ||| b else h.fe &&& ~~~b, st := .m }
  else s.setEmpty (pa / 8) (!full)

/-! Bolt pages and refused writes (R271, R282). -/

/-- Width in bits of an element, and the row stride in bytes (R271). -/
def strideOf (fmt elems : Nat) : Nat := ((elems * fmtWidth fmt + 7) / 8 + 15) / 16 * 16
/-- Pool pages of a bolt (R271). -/
def pagesOf (fmt elems rows : Nat) : Nat := (rows * strideOf fmt elems + 4095) / 4096
/-- The bolt is OPEN and the weave has not sealed it: a seal of the weave under armed checkpointing waits for its commit with
the bolt closed to every write (R260, R278, R419). -/
def Bolt.isOpen (b : Bolt) : Bool := b.st == .open_ && b.later != 3
/-- A bolt's row stride. -/
def Bolt.stride (b : Bolt) : Nat := strideOf b.fmt.toNat b.elems

/-- The page of a bolt entry that is not FREE. -/
def Bolt.holds (b : Bolt) (page : Nat) : Bool := b.st != .free && b.page ≤ page && page < b.page + b.npages
/-- The entries of a controller, FREE or not, as numbers. -/
def Cluster.bolt (x : Cluster) (e : Nat) : Bolt := Tab.get {} x.bolts e
/-- The entries that a test names, ascending. -/
def Cluster.boltsIf (x : Cluster) (p : Bolt → Bool) : List Nat := (x.bolts.filter (fun e => p e.2)).map (·.1)

/-- The entry of a bolt that becomes FREE: its generation rises above every one that it has had (R272, R274). -/
def Bolt.freed (b : Bolt) : Bolt := { gen := (if b.gen.ult b.top then b.top else b.gen) + 1 }

/-- A write to a byte of scratchpad is refused: it lies in a pool page of no OPEN bolt (R282). -/
def Cluster.refuses (x : Cluster) (off : Nat) : Bool :=
  let page := off / 4096
  match x.bolts.find? (fun e => e.2.holds page) with
  | some (_, b) => !b.isOpen
  | Option.none => x.bpEn && x.bpBase.toNat ≤ page && page < x.bpBase.toNat + x.bpN.toNat

/-- The bank of a byte of scratchpad has performed no access in this cycle; other memory has no banks (R291). -/
def State.bankFree (s : State) (pa : Nat) : Bool :=
  match s.region pa with
  | .scratch cl off => !((s.cluster cl).bankUse.1 == s.cycle && (s.cluster cl).bankUse.2.contains (bankOf off))
  | _ => true
/-- The bank of a byte of scratchpad performs its access of this cycle (R291). -/
def State.useBank (s : State) (pa : Nat) : State :=
  match s.region pa with
  | .scratch cl off =>
    let x := s.cluster cl
    s.setCluster cl { x with bankUse := (s.cycle, bankOf off :: (if x.bankUse.1 = s.cycle then x.bankUse.2 else [])) }
  | _ => s

/-- The first byte of a run that is refused (R282). -/
def State.refusedByte (s : State) (pa n : Nat) : Option Nat :=
  ((List.range n).find? (fun i =>
    match s.region (pa + i) with
    | .scratch cl off => (s.cluster cl).refuses off
    | _ => false)).map (pa + ·)

end Sys2Proof.Machine
end

