-- ==== Sys2Proof/Machine/Home.lean ====
section
/-!
DEFINITION. What a home slice, a slice atomic unit or a scratchpad bank does with the requests of grains: loads, stores,
LR and SC, fetch-and-ops, full-empty forms, GADD, join cells and the slice atomics (R171, R175 to R188, R332, R333, R386 to
R390), and the replies that go back.
-/

namespace Sys2Proof.Machine

/-! Replies and acknowledgements (R142, R123, R475). -/

/-- Cycles from the point of an address back to a context's core (R297). -/
def State.backFrom (s : State) (c : CtxId) (pa : Nat) : Nat :=
  match s.region pa with
  | .scratch cl _ => s.toBank (clusterOf c) cl
  | _ => s.toSlice (clusterOf c) (homeOf (lineOf pa))

/-- Cycles between a walker and a slice, one way (R305, R297). -/
def walkerWay (w k : SliceId) : Nat := 10 + quadDist w k + (if w / 64 = k / 64 then 0 else 30)

/-- A reply goes back to the requester (R142). -/
def State.reply (s : State) (r : Req) (pa : Nat) (p : Reply) : State :=
  s.later (s.backFrom r.who pa) ordReply (.replyArrival r.who { p with bank := hbmBytes ≤ pa })

/-- A posted request's acknowledgement goes back from the point of an address (R123, R333). -/
def State.acknowledge (s : State) (r : Req) (pa : Nat) (a : Ack) : State :=
  s.later (s.backFrom r.who pa) ordAck (.storeAcknowledgement r.who r.id { a with bank := hbmBytes ≤ pa })

/-- Place of a byte among the bytes of a run of pieces. -/
def offsetIn : List Piece → Nat → Nat
  | [], _ => 0
  | p :: t, pa => if p.pa ≤ pa && pa < p.pa + p.len then pa - p.pa else p.len + offsetIn t pa

/-- The refusal of a whole request goes back: exact for a form that waits for its reply, late for a posted one (R475). -/
def State.refuse (s : State) (r : Req) (pa bad : Nat) : State :=
  let va := r.va + BitVec.ofNat 64 (r.done + offsetIn r.pieces bad)
  if r.posted then
    (s.acknowledge r pa { all := true }).later (s.backFrom r.who pa) ordReply (.lateRefusal r.who r.id r.ia va)
  else s.reply r pa { id := r.id, adv := false, conds := cRefused, trap := some (causeRefusal, 0, va) }

/-! Requests by kind. -/

/-- The operation writes the line for R177: every one but loads, LR and the reads of full-empty words and join cells. -/
def opWrites : MemOp → Bool
  | .load _ => false
  | .lr => false
  | .ldff => false
  | .ldfe => false
  | .jwait => false
  | _ => true

/-- The operation is one of the slice atomic unit's (R386). -/
def opAtUnit : MemOp → Bool
  | .fx _ => true
  | .topk => true
  | .binc => true
  | _ => false

/-- The operation is a full-empty form (R182). -/
def opFullEmpty : MemOp → Bool
  | .ldfe => true
  | .stfe => true
  | .ldff => true
  | .feset _ => true
  | _ => false

/-- The context whose own reservation a request leaves alone (R177). -/
def agentOf (r : Req) : Option CtxId := if r.via = .grain then some r.who else none

/-- The request carries a replay-safe number (R412). -/
def opNumbered : MemOp → Bool
  | .load _ => false
  | .store => false
  | .join => false
  | .jwait => false
  | _ => true

/-! The effect of each operation on its bytes. -/

/-- The new value of a fetch-and-op of major 0x16 by its function code, and its conditions (R179). -/
def fxNew (fn : BitVec 4) (old v c : W64) : W64 × Conds :=
  match fn.toNat with
  | 2 => (v, 0)
  | 3 => (old + v, 0)
  | 4 => (old &&& v, 0)
  | 5 => (old ||| v, 0)
  | 6 => (old ^^^ v, 0)
  | 7 => (if old.slt v then old else v, 0)
  | 8 => (if old.slt v then v else old, 0)
  | 9 => (if old.ult v then old else v, 0)
  | 10 => (if old.ult v then v else old, 0)
  | 11 => (if old == c then v else old, 0)
  | _ => let (x, k) := fadd {} (old.toNat % 2 ^ 32) (v.toNat % 2 ^ 32); (BitVec.ofNat 64 x, k)

/-- The first pair ranks above the second (R388). -/
def topkAbove (a b : Nat) : Bool :=
  if b = 0xFFFFFFFF then a != 0xFFFFFFFF
  else if a = 0xFFFFFFFF then false
  else
    let x := bf16.val (a % 65536)
    let y := bf16.val (b % 65536)
    if y.isNan then (if x.isNan then a / 65536 < b / 65536 else true)
    else if x.isNan then false
    else if fless y x then true
    else if fless x y then false
    else a / 65536 < b / 65536

/-- AMOTOPK on a record's eight pairs: the new pairs, the result for gD and the conditions (R388). -/
def topkApply (pairs : List Nat) (v : W64) : List Nat × W64 × Conds :=
  let new := v.toNat % 2 ^ 32
  let k := v.toNat / 2 ^ 32 % 8 + 1
  if (bf16.val (new % 65536)).isNan ∨ new / 65536 = 0xFFFF then
    (pairs, BitVec.ofNat 64 (2 ^ 63 + 8 * 2 ^ 32 + new), cInvalid)
  else
    match (List.range k).find? (fun p => topkAbove new (pairs.getD p 0xFFFFFFFF)) with
    | none => (pairs, BitVec.ofNat 64 (8 * 2 ^ 32 + new), 0)
    | some pos =>
      let l := (pairs.take pos ++ [new] ++ pairs.drop pos).take 8
      let drop := if k < 8 then l.getD k 0xFFFFFFFF else 0xFFFFFFFF
      (l.take k ++ List.replicate (8 - k) 0xFFFFFFFF, BitVec.ofNat 64 (pos * 2 ^ 32 + drop), 0)

/-- A join cell after a JOIN, and whether the caller goes on (R153). -/
def joinCell (w : W64) : W64 × Bool :=
  let n := w.toNat % 2 ^ 32
  if n = 0 then (w ||| 0x8000000000000000, false)
  else (w - 1, n == 1)

/-- What performing an operation gives: the state, the value returned, the grain's conditions and the home's. -/
structure Effect where
  s     : State
  val   : W64 := 0
  conds : Conds := 0
  /-- The caller of a JOIN ends. -/
  ends  : Bool := false
  /-- Bytes or a full-empty bit are written, so the operation may be refused at a bank (R282). -/
  wrote : Bool := false
  /-- The line's new write timestamp, and what the requester's L1 takes with it (R332, R333). -/
  wts   : W64 := 0
  upd   : Option Upd := none
  fill  : Option (Nat × LineData × W64) := none

/-- Sixty-four bits read at a point. -/
def State.point8 (s : State) (pa : Nat) : W64 := BitVec.ofNat 64 (leNat (s.pointRead pa 8))
/-- Sixty-four bits written at a point. -/
def State.putPoint8 (s : State) (pa : Nat) (v : W64) : State := s.pointWrite pa (leBytes 8 v.toNat)

/-- The reservation of a context for an address holds at its point (R177). -/
def State.resvHolds (s : State) (c : CtxId) (pa : Nat) : Bool :=
  (s.slice (s.pointSlice pa)).resv.any (fun r => r.who == c && r.addr == pa)

/-- The operation on one piece at its point; none when a full-empty form or a JWAIT cannot succeed (R175 to R188, R387,
R388). -/
def State.effect (s : State) (r : Req) (pa len : Nat) : Option Effect :=
  match r.op with
  | .load _ => some { s := s, val := BitVec.ofNat 64 (leNat (s.pointRead pa len)) }
  | .lr => some { s := s, val := s.point8 pa }
  | .store => some { s := s.pointWrite pa ((leBytes 8 r.val.toNat).drop r.done |>.take len), wrote := true }
  | .put =>
    let s := s.pointWrite pa ((leBytes 8 r.val.toNat).drop r.done |>.take len)
    some { s := if len = 8 ∧ pa % 8 = 0 then s.pointSetFull pa true else s, wrote := true }
  | .sc =>
    if s.resvHolds r.who pa then some { s := s.putPoint8 pa r.val, val := 0, wrote := true } else some { s := s, val := 1 }
  | .fx fn =>
    let old : W64 := BitVec.ofNat 64 (leNat (s.pointRead pa len))
    let (v, k) := fxNew fn old r.val r.cmp
    if fn = 11 ∧ old ≠ r.cmp then some { s := s, val := old, conds := k }
    else some { s := s.pointWrite pa (leBytes len v.toNat), val := old, conds := k, wrote := true }
  | .ldfe => if s.pointFull pa then some { s := s.pointSetFull pa false, val := s.point8 pa } else none
  | .ldff => if s.pointFull pa then some { s := s, val := s.point8 pa } else none
  | .stfe => if s.pointFull pa then none else some { s := (s.putPoint8 pa r.val).pointSetFull pa true, wrote := true }
  | .feset full => some { s := s.pointSetFull pa full, wrote := true }
  | .gadd tag =>
    let (v, k) := combine tag (leNat (s.pointRead pa len)) r.val.toNat
    some { s := s.pointWrite pa (leBytes len v), conds := k, wrote := true }
  | .join =>
    let (v, go) := joinCell (s.point8 pa)
    some { s := s.putPoint8 pa v, ends := !go, wrote := true }
  | .jwait => if (s.point8 pa).setWidth 32 = 0#32 then some { s := s } else none
  | .topk =>
    let pairs := (List.range 8).map (fun p => leNat (s.pointRead (pa + 4 * p) 4))
    let (l, v, k) := topkApply pairs r.val
    some { s := s.pointWrite pa (l.flatMap (leBytes 4)), val := v, conds := k, wrote := l != pairs }
  | .binc =>
    let old := s.point8 pa
    some { s := if old.ult r.val then s.putPoint8 pa (old + 1) else s, val := old, wrote := old.ult r.val }

/-- The timestamps of an access performed at the home: WTS := max(CT, RTS + 1), RTS := WTS (R333). -/
def State.stamp (s : State) (pa : Nat) (ct : W64) : State × W64 :=
  if pa < hbmBytes then
    let l := lineOf pa
    let h := s.home l
    let w := if ct.ult (h.rts + 1) then h.rts + 1 else ct
    let s := s.setSl l (homeDie l) { h with wts := w, rts := w }
    ({ s with dev := { s.dev with topTs := if s.dev.topTs.ult w then w else s.dev.topTs } }, w)
  else (s, 0)

/-- An operation takes its timestamps, and its reply what the L1 of its requester learns: the written bytes, or for an LR the
line under a lease from the home (R332, R333). A load at a bank has neither. -/
def State.stampOp (s : State) (r : Req) (p : Piece) (e : Effect) : Effect :=
  let l := lineOf p.pa
  let base := (s.home l).wts
  match r.op with
  | .load _ => e
  | .lr =>
    let (t, w) := e.s.stamp p.pa r.ct
    if p.pa < hbmBytes then
      let t := t.setSl l (homeDie l) { t.home l with rts := w + 63 }
      { e with s := t, wts := w, fill := some (l, (t.home l).data, w + 63) }
    else { e with s := t, wts := w }
  | _ =>
    let (t, w) := e.s.stamp p.pa r.ct
    { e with s := t, wts := w
             upd := if p.pa < hbmBytes then some { pa := p.pa, bytes := t.pointRead p.pa p.len, base := base, wts := w } else none }

/-- Reservations on the line of an address are lost to an access by another agent (R177). -/
def State.loseLine (s : State) (pa : Nat) (who : Option CtxId) : State :=
  s.endResv (s.pointSlice pa) (fun r => r.line == lineOf pa && some r.who != who)

/-- The kept results of a context at a slice, at most the last eight (R412). -/
def State.keepResult (s : State) (r : Req) (pa : Nat) (v : W64) : State :=
  if opNumbered r.op && (match r.via with
    | .grain => true
    | .port _ => true
    | _ => false) then
    let k := s.pointSlice pa
    let l := (Tab.get [] (s.slice k).kept r.who).filter (fun e => e.1 != r.num)
    s.setSlice k { s.slice k with kept := Tab.set (s.slice k).kept r.who ((l ++ [(r.num, v)]).drop (l.length + 1 - 8)) }
  else s

/-- The destination register is written by the operation's reply. -/
def opReturns : MemOp → Bool
  | .store => false
  | .put => false
  | .stfe => false
  | .feset _ => false
  | .gadd _ => false
  | .join => false
  | .jwait => false
  | _ => true

/-- The value an operation returns, as its instruction writes it (R116, R119). -/
def opResult : MemOp → W64 → W64
  | .load fn, v => loadExtend fn v
  | _, v => v

/-- Conditions of an operation count in the home's set, and a value-returning one's in the grain's too; those of a GADD at a
bank count in the grain's set alone (R66, R180, R188). -/
def State.countPoint (s : State) (r : Req) (pa : Nat) (k : Conds) : State :=
  match r.op with
  | .gadd _ => s
  | _ => s.countSlice (s.pointSlice pa) k

/-- What an operation's acknowledgement carries. -/
def Effect.ack (e : Effect) : Ack := { wts := e.wts, upd := e.upd }

/-- The line of scratchpad that a bank gives a fetch (R474). -/
def State.bankLine (s : State) (line : Nat) : LineData :=
  if 128 * line < hbmBytes then 0 else BitVec.ofNat 1024 (leNat (Memory.read s.mem (128 * line) 128))

/-- The reply or acknowledgement of an operation performed whole. -/
def State.answer (s : State) (r : Req) (pa : Nat) (e : Effect) : State :=
  match r.via, r.op with
  | .fetch, _ => s.later (s.backFrom r.who pa) ordReply (.fetchMissFill r.who (lineOf pa) (s.bankLine (lineOf pa)))
  | .walk w no, _ => s.later (walkerWay w (homeOf (lineOf pa))) ordReply (.walkComplete w no e.val)
  | .port p, _ => s.send (.portData p r.id (leBytes 8 e.val.toNat) s.cycle)
  | .grain, .gadd _ => (s.count r.who e.conds).acknowledge r pa e.ack
  | .grain, _ =>
    if r.posted then s.acknowledge r pa e.ack
    else s.reply r pa
      { id := r.id, rd := r.rd, wr := opReturns r.op, val := opResult r.op e.val, wts := e.wts, conds := e.conds,
        ends := e.ends, did := opWrites r.op || r.op == .ldfe, upd := e.upd, fill := e.fill, served := s.cycle }

/-- Some requests are parked on the word of an address. -/
def State.parkedOn (s : State) (word : Nat) : List Req :=
  let l := match s.region (8 * word) with
    | .scratch cl _ => (s.cluster cl).parked
    | _ => (s.slice (s.pointSlice (8 * word))).parked
  l.filter (fun r => (r.pieces.headD {}).pa / 8 == word)
/-- A parked request leaves its table. -/
def State.unpark (s : State) (pa id : Nat) : State :=
  match s.region pa with
  | .scratch cl _ => s.setCluster cl { s.cluster cl with parked := (s.cluster cl).parked.filter (fun r => r.id != id) }
  | _ =>
    let k := s.pointSlice pa
    s.setSlice k { s.slice k with parked := (s.slice k).parked.filter (fun r => r.id != id) }

/-- One pass over the requests parked on a word, each against the state left by the ones before it (R184). -/
def State.servePass (s : State) : List Req → State × Bool
  | [] => (s, false)
  | r :: t =>
    let p := r.pieces.headD {}
    match if r.op = .jwait then none else s.effect r p.pa p.len with
    | none => s.servePass t
    | some e =>
      let bad := if e.wrote then s.refusedByte p.pa p.len else none
      if bad.isSome then
        let (s, m) := ((s.unpark p.pa r.id).refuse r p.pa (bad.getD p.pa)).servePass t
        (s, m)
      else
      let e := s.stampOp r p { e with s := e.s.unpark p.pa r.id }
      let s := if opWrites r.op then e.s.loseLine p.pa (some r.who) else e.s
      let s := (s.keepResult r p.pa e.val).answer r p.pa e
      let (s, _) := s.servePass t
      (s, true)

/-- Passes are repeated until none succeeds; each success takes a request off the list, which bounds them (R184). -/
def State.serveParked (s : State) (word : Nat) : Nat → State
  | 0 => s
  | n + 1 =>
    let (s, more) := s.servePass (s.parkedOn word)
    if more then s.serveParked word n else s

/-- The words of a run of bytes. -/
def wordsOf (pa len : Nat) : List Nat := (List.range ((pa % 8 + len + 7) / 8)).map (pa / 8 + ·)

/-- A word's bit or bytes have changed: parked full-empty requests are served, and a JWAIT is woken in the next cycle when
COUNT is zero (R184, R171). -/
def State.settleWord (s : State) (word : Nat) : State :=
  let l := s.parkedOn word
  if l.isEmpty then s
  else
    let s := s.serveParked word (l.length + 1)
    if (s.parkedOn word).any (fun r => r.op == .jwait) ∧ (s.point8 (8 * word)).setWidth 32 = 0#32 then
      s.later 1 ordReply (.jwaitWake (8 * word))
    else s

/-- After bytes of a line have been written: reservations of others are lost, parked requests served (R177, R184). -/
def State.written (s : State) (pa len : Nat) (who : Option CtxId) : State :=
  (wordsOf pa len).foldl State.settleWord (s.loseLine pa who)

/-- The first byte of a write that is refused, in any of its pieces: such a write writes no byte anywhere (R121, R282, R475). -/
def State.refusedAny (s : State) (r : Req) : Option Nat := r.pieces.findSome? (fun p => s.refusedByte p.pa p.len)

/-- The later piece of a store goes to scratchpad with the first, so that no seal falls between them (R284; log entry 58). -/
def State.writeEarly (s : State) (r : Req) (done : Nat) : List Piece → State × Bool
  | [q] =>
    (match r.op, s.region q.pa with
    | .store, .scratch _ _ =>
      ((s.pointWrite q.pa ((leBytes 8 r.val.toNat).drop done |>.take q.len)).written q.pa q.len (agentOf r), true)
    | _, _ => (s, false))
  | _ => (s, false)

/-- A reservation ends with every SC of its holder, wherever the SC is performed (R177). -/
def State.endOwn (s : State) (r : Req) : State := if r.op = .sc then s.dropResv r.who else s

/-- The head piece of a request is performed at its point; the next piece then goes to its own point (R31, R316). -/
def State.perform (s : State) (r : Req) (next : State → Req → State) : State :=
  match r.pieces with
  | [] => s
  | p :: rest =>
    let k := s.pointSlice p.pa
    if r.early then s.acknowledge r p.pa {}
    else
    match if r.again && opNumbered r.op then (Tab.get [] (s.slice k).kept r.who).find? (fun e => e.1 == r.num) else none with
    | some (_, v) => s.answer r p.pa { s := s, val := v, wts := if p.pa < hbmBytes then (s.home (lineOf p.pa)).wts else 0 }
    | none =>
      match s.effect r p.pa p.len with
      | none => s
      | some e =>
        match if e.wrote then s.refusedAny r else none with
        | some bad => (s.endOwn r).refuse r p.pa bad
        | none =>
          let e := s.stampOp r p e
          let s := e.s.keepResult r p.pa e.val
          let s := (s.countPoint r p.pa e.conds).endOwn r
          let failed := r.op == MemOp.fx 11 && e.val != r.cmp
          let s := if opWrites r.op && !failed then s.written p.pa p.len (agentOf r)
            else if r.op = MemOp.ldfe then (wordsOf p.pa p.len).foldl State.settleWord s else s
          let got := r.got + e.val <<< (8 * r.done)
          match rest with
          | [] => s.answer r p.pa { e with s := s, val := if opReturns r.op && r.done != 0 then got else e.val }
          | _ =>
            let s := if r.posted then s.acknowledge r p.pa e.ack else s
            let (s, early) := s.writeEarly r (r.done + p.len) rest
            next s { r with pieces := rest, done := r.done + p.len, got := got, early := early }

/-! Pages that are not OWNED (R450). -/

/-- The page of an address is being lent, lent or recalled. -/
def State.lentAway (s : State) (pa : Nat) : Bool := pa < hbmBytes && (Tab.get {} s.dev.lends (pa / 65536)).st != 0

/-- An access of the device has reached such a page: its violation count rises, saturating. -/
def State.violate (s : State) (pa : Nat) : State :=
  let f := pa / 65536
  let l := Tab.get {} s.dev.lends f
  { s with dev := { s.dev with lends := Tab.set s.dev.lends f { l with viol := if l.viol = -1 then l.viol else l.viol + 1 } } }

/-- The head piece of a request is not performed: it reads zero and writes nothing, and a store-conditional fails (R450). Each
request of a merged packet is acknowledged (R390). -/
def State.unperformed (s : State) (r : Req) (next : State → Req → State) : State :=
  match r.pieces with
  | [] => s
  | p :: rest =>
    let s := (s.violate p.pa).endOwn r
    match rest with
    | [] =>
      let e : Effect := { s := s, val := if r.op = .sc then 1 else r.got }
      r.merged.foldl (fun s (id, who, _, _) => s.acknowledge { r with id := id, who := who } p.pa {}) (s.answer r p.pa e)
    | _ =>
      let s := if r.posted then s.acknowledge r p.pa {} else s
      next s { r with pieces := rest, done := r.done + p.len }

/-! Full-empty attempts (R182, R183). -/

/-- The table of parked requests at the home or bank of an address has room: 512 at a slice, 16 at a bank (R183). A JWAIT that stays
at a bank takes one of its places, and itself stays without a look at the room (DESIGN CHOICE, log entry 66). -/
def State.parkRoom (s : State) (pa : Nat) : Bool :=
  match s.region pa with
  | .scratch cl off =>
    ((s.cluster cl).parked.filter (fun r =>
      match s.region (r.pieces.headD {}).pa with
      | .scratch _ o => bankOf o == bankOf off
      | _ => false)).length < 16
  | _ => (s.slice (s.pointSlice pa)).parked.length < 512

/-- Leave a request parked at its home or bank, its grain Parked (R183, R171). -/
def State.parkAt (s : State) (r : Req) (pa : Nat) : State :=
  let s := match s.region pa with
    | .scratch cl _ => s.setCluster cl { s.cluster cl with parked := (s.cluster cl).parked ++ [r] }
    | _ =>
      let k := s.pointSlice pa
      s.setSlice k { s.slice k with parked := (s.slice k).parked ++ [r] }
  if (s.ctx r.who).why = .reply r.id then (s.park r.who .parked (.parked r.id)).watch r.who else s

/-- One attempt of a full-empty form at its point: it succeeds, or returns to the grain, or is left parked (R182, R183). -/
def State.attempt (s : State) (r : Req) : State :=
  let p := r.pieces.headD {}
  if (s.effect r p.pa p.len).isSome then s.perform r (fun s _ => s)
  else if !r.last then s.reply r p.pa { id := r.id, adv := false, again := true }
  else if s.parkRoom p.pa then s.parkAt r p.pa
  else s.later (s.backFrom r.who p.pa + 256) ordLate (.fullEmptyResend r)

/-! Reservations (R176 to R178). -/

/-- Whether an LR may be registered now: no younger reservation of another grain on its line, and room in the table (R177,
R178). -/
def State.lrReady (s : State) (r : Req) (pa : Nat) : Bool :=
  let t := (s.slice (s.pointSlice pa)).resv.filter (fun x => x.who != r.who)
  !t.any (fun x => x.line == lineOf pa && s.cycle < x.at_ + 512)
    && (t.length < 256 || t.any (fun x => x.at_ + 512 ≤ s.cycle))

/-- Register an LR's reservation, evicting the oldest of a full table, and perform its read (R176, R177). -/
def State.registerLr (s : State) (r : Req) : State :=
  let p := r.pieces.headD {}
  let k := s.pointSlice p.pa
  let s := s.dropResv r.who
  let s := if (s.slice k).resv.length < 256 then s
    else match (s.slice k).resv with
      | [] => s
      | o :: _ => s.endResv k (fun x => x == o)
  let s := s.setSlice k { s.slice k with
    resv := (s.slice k).resv ++ [{ who := r.who, line := lineOf p.pa, addr := p.pa, at_ := s.cycle }]
    lrWait := (s.slice k).lrWait.filter (fun q => q.id != r.id) }
  let s := s.setCtx r.who { s.ctx r.who with resv := some p.pa }
  s.perform r (fun s _ => s)

/-- An LR at its point: registered, or left waiting at the home (R178). -/
def State.arriveLr (s : State) (r : Req) : State :=
  let p := r.pieces.headD {}
  if s.lrReady r p.pa then s.registerLr r
  else
    let k := s.pointSlice p.pa
    let due := (s.slice k).resv.foldl (fun n x => if s.cycle < x.at_ + 512 then min n (x.at_ + 512) else n) (s.cycle + 512)
    let s := if (s.slice k).lrWait.any (fun q => q.id == r.id) then s
      else s.setSlice k { s.slice k with lrWait := (s.slice k).lrWait ++ [r] }
    if s.agenda.any (fun e => e.act == .ev (.reservationRegister k r)) then s
    else s.eventAt due ordLate (.reservationRegister k r)

/-- The waiting LR is tried again (R178). -/
def State.doReservationRegister (s : State) (k : SliceId) (r : Req) : State :=
  if (s.slice k).lrWait.any (fun q => q.id == r.id) then s.arriveLr r else s

def execReservationRegister (s : State) : Host.Outcome State Fault Refusal :=
  .next (match s.ev with
    | .reservationRegister k r => s.doReservationRegister k r
    | _ => s)

end Sys2Proof.Machine
end

