-- ==== Sys2Proof/Machine/Coherence.lean ====
section
/-!
DEFINITION. Coherence inside the device (R330 to R350, R476, R477): leases between the L1s and the level-2 slices, the
accumulate state, and the directory protocol between the dies, one meaning for each message.
-/

namespace Sys2Proof.Machine

/-! L1 data caches (R293, R330 to R335). -/

/-- A line of an L1. -/
def State.l1 (s : State) (k : CoreId) (line : Nat) : Option L1Line := Tab.find (s.core k).l1 line
/-- Replace a line of an L1. -/
def State.setL1 (s : State) (k : CoreId) (line : Nat) (x : L1Line) : State :=
  s.setCore k { s.core k with l1 := Tab.set (s.core k).l1 line x }
/-- Drop a line of an L1. -/
def State.dropL1 (s : State) (k : CoreId) (line : Nat) : State :=
  s.setCore k { s.core k with l1 := Tab.erase (s.core k).l1 line }

/-- Ticks that a die has counted (R331). -/
def State.ticks (s : State) (die : Nat) : W64 := if die = 0 then s.dev.tick0 else s.dev.tick1
/-- Logical time of a core (R330). -/
def State.ct (s : State) (k : CoreId) : W64 := (s.core k).ct + s.ticks (k / 2048)
/-- Logical time never decreases: CT := max(CT, w) (R330, R332, R333). -/
def State.raiseCt (s : State) (k : CoreId) (w : W64) : State :=
  if (s.ct k).ult w then s.setCore k { s.core k with ct := w - s.ticks (k / 2048) } else s

/-- Bytes of the operator-sized word i of a partial. -/
def partWord (p : Partial) (tag : BitVec 4) (i : Nat) : Nat := leNat (LineData.bytes p.data (4 * i) (gaddSize tag))
/-- Set the operator-sized word i of a partial. -/
def partSet (p : Partial) (tag : BitVec 4) (i v : Nat) : Partial :=
  { p with present := p.present ||| (1#32 <<< i), data := LineData.put p.data (4 * i) (leBytes (gaddSize tag) v) }

/-- The later of two logical times. -/
def maxTs (a b : W64) : W64 := if a.ult b then b else a

/-- Combine the present words of one partial into another; an absent word takes the value unchanged (R188, R337). -/
def partMerge (tag : BitVec 4) (into p : Partial) : Partial × List Conds :=
  (List.range 32).foldl (fun (acc : Partial × List Conds) i =>
    if p.present.getLsbD i then
      if acc.1.present.getLsbD i then
        let (v, k) := combine tag (partWord acc.1 tag i) (partWord p tag i)
        (partSet acc.1 tag i v, k :: acc.2)
      else (partSet acc.1 tag i (partWord p tag i), acc.2)
    else acc) (into, [])

/-- Fold holders' partials into a line's value in order, one rounding each (R338). -/
def foldLists (tag : BitVec 4) (v : LineData) (lists : List Partial) : LineData × List Conds :=
  lists.foldl (fun (acc : LineData × List Conds) p =>
    (List.range 32).foldl (fun (a : LineData × List Conds) i =>
      if p.present.getLsbD i then
        let (x, k) := combine tag (leNat (LineData.bytes a.1 (4 * i) (gaddSize tag))) (partWord p tag i)
        (LineData.put a.1 (4 * i) (leBytes (gaddSize tag) x), k :: a.2)
      else a) acc) (v, [])

/-- Conditions of several steps count in a slice's set (R66). -/
def State.countSlices (s : State) (k : SliceId) (cs : List Conds) : State := cs.foldl (fun s c => s.countSlice k c) s

/-- An L1 that evicts a line in A sends its partials to its die's serving slice, which combines them into SP (R337). -/
def State.evictPartial (s : State) (k : CoreId) (line : Nat) : State :=
  match s.l1 k line with
  | some x =>
    if x.st = .a then
      let d := k / 2048
      let y := s.sl line d
      let (sp, cs) := partMerge x.tag y.sp x.part
      let s := s.setSl line d { y with sp := sp }
      (s.countSlices (servingOf d line) cs).dropL1 k line
    else s
  | none => s

/-- The lines of an L1's set that hold a way, but for one line: a fill that is out holds none (R293, R334). -/
def Core.setLines (x : Core) (line : Nat) : Tab L1Line :=
  x.l1.filter (fun e => e.1 % 64 == line % 64 && e.1 != line && e.2.st != .iv)

/-- The lines of an L1's set that may be evicted (R293): not those that wait for a grant or send their partials. -/
def Core.setMates (x : Core) (line : Nat) : List Nat :=
  ((x.setLines line).filter (fun e => e.2.st == .v || e.2.st == .a)).map (·.1)

/-- A line can have a way in its L1's set of eight (R293). -/
def Core.hasWay (x : Core) (line : Nat) : Bool := (x.setLines line).length < 8 || !(x.setMates line).isEmpty

/-- Room for one more line in an L1's set of eight ways; which line goes is a free value (R293; log entry 8). -/
def State.l1Room (s : State) (k : CoreId) (line : Nat) : State :=
  let c := (s.core k).setMates line
  if ((s.core k).setLines line).length < 8 ∨ c.isEmpty then s
  else
    let v := c.getD (Config.freeVictim s.draws % c.length) line
    let s := { s with draws := s.draws + 1 }
    match s.l1 k v with
    | some x => if x.st = .a then s.evictPartial k v else s.dropL1 k v
    | none => s

/-- A fill is outstanding for a line that the L1 does not hold, or holds expired (R332, R334). -/
def State.expectL1 (s : State) (k : CoreId) (line : Nat) : State :=
  match s.l1 k line with
  | some x => if x.st = .v ∧ x.rts.ult (s.ct k) then s.setL1 k line { st := .iv } else s
  | none => s.setL1 k line { st := .iv }

/-- A fill installs a lease (R332). It installs none where the L1 has the line in the accumulate state or has every way of the
set there, where a copy that it holds is newer, or where the leases have been dropped since it was granted (R186, R322). -/
def State.installL1 (s : State) (k : CoreId) (line : Nat) (d : LineData) (wts rts : W64) (served : Nat) : State :=
  let fresh := (s.core k).dropAt < served || served = 0
  match s.l1 k line with
  | some x =>
    if x.st = .iv then
      (if fresh && (s.core k).hasWay line then (s.l1Room k line).setL1 k line { st := .v, data := d, wts := wts, rts := rts }
       else s.dropL1 k line)
    else if x.st = .v ∧ fresh ∧ !wts.ult x.wts then s.setL1 k line { st := .v, data := d, wts := wts, rts := rts }
    else s
  | none => if fresh && (s.core k).hasWay line then (s.l1Room k line).setL1 k line { st := .v, data := d, wts := wts, rts := rts } else s

/-- The L1 takes what an operation at the home has made of a line that it holds: the written bytes, WTS, and RTS := WTS (R293,
R333). An expired copy is absent, and one that another write has overtaken since it was granted holds other bytes that are no
longer the line's: neither takes anything, and the rise of CT to WTS ends the second (R332; log entry 16). -/
def State.takeUpd (s : State) (k : CoreId) (u : Upd) : State :=
  match s.l1 k (lineOf u.pa) with
  | some x =>
    if x.st = .v ∧ !x.rts.ult (s.ct k) ∧ x.wts = u.base then
      s.setL1 k (lineOf u.pa) { x with data := LineData.put x.data (u.pa % 128) u.bytes, wts := u.wts, rts := u.wts }
    else s
  | none => s

/-! Messages between the slices and the directory: 20 cycles each (R476). -/

/-- Place of a message of a die's slice in its cycle (R346). -/
def ordSlice (die : Nat) : Nat := 20 + die
/-- Place of a port's request in its cycle (R346). -/
def ordPort (p : Nat) : Nat := 30 + p
/-- Place of a directory's message in its cycle. -/
def ordDir : Nat := 60

/-- A slice's message to the directory. -/
def State.toDir (s : State) (die : Nat) (e : Ev) : State := s.later 20 (ordSlice die) e
/-- A directory's message to a slice. -/
def State.fromDir (s : State) (e : Ev) : State := s.later 20 ordDir e

/-- Ways of a set of a slice, and sets: 16 MiB of lines (R15, R336; log entry 11). -/
def sliceWays : Nat := 16
/-- Sets of a slice. -/
def sliceSets : Nat := 8192
/-- Set of a line at its slices (log entry 11). -/
def sliceSet (line : Nat) : Nat := line / 64 % sliceSets

/-- Lines of a slice's set that hold a way. -/
def State.held2 (s : State) (k : SliceId) (set : Nat) : List Nat :=
  (s.lines.filter (fun e => homeOf e.1 % 64 == k % 64 && sliceSet e.1 == set && (e.2.sl (k / 64)).st != .i)).map (·.1)

/-- A slice whose set is full evicts a line: dirty by WB, clean by PUT; with every line pinned, AEV for the line longest in A.
Which line goes is a free value, and none goes that has a request out (R336, R348; log entry 11). -/
def State.sliceRoom (s : State) (die line : Nat) : State :=
  let k := servingOf die line
  let l := (s.held2 k (sliceSet line)).filter (· != line)
  if l.length < sliceWays then s
  else
    let free := l.filter (fun n =>
      let x := s.sl n die
      x.ask == 0 && x.fillAt == 0 && (x.st == .s || x.st == .e || x.st == .m || x.st == .o))
    match free with
    | [] =>
      let pinned := l.filter (fun n => (s.sl n die).st == .a)
      (match pinned with
      | [] => s
      | n :: t =>
        let old := t.foldl (fun a b => if (s.sl b die).since < (s.sl a die).since then b else a) n
        s.toDir die (.aev old die))
    | _ =>
      let n := free.getD (Config.freeVictim s.draws % free.length) line
      let s := { s with draws := s.draws + 1 }
      let x := s.sl n die
      if x.st = .m ∨ x.st = .o then
        (s.setSl n die { x with st := .miW }).toDir die (.wb n x.data x.fe x.wts x.rts)
      else (s.setSl n die { x with st := .siP }).toDir die (.putMsg n die x.rts)

/-- The data that a directory's fill carries, from the memory-side cache or, 180 cycles later, from HBM4 (R297). -/
def State.fillDelay (s : State) (line : Nat) : Nat := if (s.line line).msc.isSome then 0 else 180

/-- The directory sends DATA to a slice. -/
def State.sendData (s : State) (line die : Nat) (g : Grant) : State :=
  let t := s.fillDelay line
  let s := s.fillMemSide line
  let (d, fe) := s.memSide line
  let x := s.line line
  let rts := if g = .s then x.rts else if x.rts.ult x.maxRts then x.maxRts else x.rts
  s.later (20 + t) ordDir (.dataMsg line die g d fe x.wts rts)

/-! Serving loads, stores and joins at a slice (R332 to R336). -/

/-- The slice's copy can be read. -/
def SlLine.readable (x : SlLine) : Bool := x.st == .s || x.st == .e || x.st == .m || x.st == .o
/-- The home may write its copy. -/
def SlLine.writable (x : SlLine) : Bool := x.st == .e || x.st == .m

/-- The slice asks the directory for what its waiting requests need (R345, R348). -/
def State.slAsk (s : State) (line die : Nat) : State :=
  let x := s.sl line die
  if x.ask ≠ 0 ∨ x.fillAt ≠ 0 then s
  else if !x.stores.isEmpty ∧ !x.writable then
    match x.st with
    | .i => (s.setSl line die { x with st := .imD, ask := 2 }).toDir die (.rdx line)
    | .s => (s.setSl line die { x with st := .smG, ask := 2 }).toDir die (.upg line)
    | .o => (s.setSl line die { x with ask := 2 }).toDir die (.upg line)
    | .a => (s.setSl line die { x with ask := 2 }).toDir die (.rdx line)
    | _ => s
  else if !x.loads.isEmpty ∧ !x.readable then
    match x.st with
    | .i => (s.setSl line die { x with st := .isD, ask := 1 }).toDir die (.rds line die (x.loads.headD {}).ct)
    | .a => (s.setSl line die { x with ask := 1 }).toDir die (.rds line die (x.loads.headD {}).ct)
    | _ => s
  else
    match x.joins with
    | [] => s
    | (_, tag) :: _ =>
      match x.st with
      | .i => (s.setSl line die { x with st := .iaG, ask := 3 }).toDir die (.ajn line die tag)
      | .s => (s.setSl line die { x with st := .saG, ask := 3 }).toDir die (.ajn line die tag)
      | .e => (s.setSl line die { x with ask := 3 }).toDir die (.ajn line die tag)
      | .m => (s.setSl line die { x with ask := 3 }).toDir die (.ajn line die tag)
      | .o => (s.setSl line die { x with ask := 3 }).toDir die (.ajn line die tag)
      | .a => (s.setSl line die { x with ask := 3 }).toDir die (.ajn line die tag)
      | _ => s

/-- Die whose slice serves a load: the core's own, or the home's for a prefetch to the home alone (R124, R295). -/
def loadDie (r : Req) (line : Nat) : Nat :=
  match r.via with
  | .walk w _ => w / 64
  | _ => if r.posted && r.last then homeDie line else dieOf r.who

/-- A load's piece goes to its serving slice (R295). -/
def State.sendLoad (s : State) (r : Req) : State :=
  let line := lineOf (r.pieces.headD {}).pa
  s.later (s.toSlice (clusterOf r.who) (servingOf (loadDie r line) line)) ordLate (.servingSliceLoad r)

/-- A readable copy serves a load with a lease of at most 64 values of the requester's CT (R332). A fetch and a walker keep no
copy under a lease: the line goes to the instruction cache, the entry to its walk (R474, R305). -/
def State.serveLoad (s : State) (r : Req) : State :=
  let p := r.pieces.headD {}
  let line := lineOf p.pa
  let die := loadDie r line
  let x := s.sl line die
  let e := (if x.wts.ult r.ct then r.ct else x.wts) + 63
  let back := s.toSlice (clusterOf r.who) (servingOf die line)
  match r.via with
  | .fetch => s.later back ordReply (.fetchMissFill r.who line x.data)
  | .walk w no => s.later (walkerWay w (servingOf die line)) ordReply
      (.walkComplete w no (BitVec.ofNat 64 (leNat (LineData.bytes x.data (p.pa % 128) p.len))))
  | .port n => s.send (.portData n r.id (LineData.bytes x.data (p.pa % 128) p.len) s.cycle)
  | .grain =>
  if r.posted && r.last then s
  else
    let s := s.setSl line die { x with rts := if x.rts.ult e then e else x.rts }
    let fill := some (line, x.data, e)
    if r.posted then s.later back ordReply (.replyArrival r.who { side := true, wts := x.wts, fill := fill, served := s.cycle })
    else
      let v : W64 := BitVec.ofNat 64 (leNat (LineData.bytes x.data (p.pa % 128) p.len))
      let got := r.got + v <<< (8 * r.done)
      match r.pieces with
      | _ :: q :: t =>
        let s := s.later back ordReply (.replyArrival r.who { side := true, wts := x.wts, fill := fill, served := s.cycle })
        s.sendLoad { r with pieces := q :: t, done := r.done + p.len, got := got }
      | _ =>
        s.later back ordReply (.replyArrival r.who
          { id := r.id, rd := r.rd, wr := true, val := opResult r.op got, wts := x.wts, fill := fill, served := s.cycle
            born := some r.born })

/-- A store or atomic goes to its home (R295, R297). -/
def State.sendHome (s : State) (r : Req) : State :=
  let line := lineOf (r.pieces.headD {}).pa
  s.later (s.toSlice (clusterOf r.who) (homeOf line)) (1000 + r.who)
    (if opFullEmpty r.op then .fullEmptyAtHome r else .homeStore r)

/-- A slice's atomic unit is free in this cycle (R386). -/
def State.unitFree (s : State) (k : SliceId) : Bool := (s.slice k).atomAt ≤ s.cycle
/-- The unit performs its operation of this cycle (R386). -/
def State.useUnit (s : State) (k : SliceId) : State := s.setSlice k { s.slice k with atomAt := s.cycle + 1 }

/-- The other requests of a merged packet, in packet order: an AMOFADD is applied, each on its own; the value that the router
has combined for any other has been applied with the first, and each is acknowledged with what that left (R389, R390). -/
def State.doMergedRest (s : State) (r : Req) (base : W64) : State :=
  let p := r.pieces.headD {}
  r.merged.foldl (fun s (id, who, v, num) =>
    let q := { r with id := id, who := who, num := num, val := v, merged := [] }
    if r.op = .fx 12 then s.perform q (fun s _ => s)
    else
      let w := (s.home (lineOf p.pa)).wts
      (s.keepResult q p.pa 0).acknowledge q p.pa
        { wts := w, upd := some { pa := p.pa, bytes := s.pointRead p.pa p.len, base := base, wts := w } }) s

/-- The slice atomic unit performs one operation a cycle; requests that find it busy wait in arrival order (R386). -/
def State.doSliceAtomicOp (s : State) (r : Req) : State :=
  let p := r.pieces.headD {}
  let k := s.pointSlice p.pa
  if !s.unitFree k then s.eventAt (s.slice k).atomAt 500 (.sliceAtomicOp r)
  else if !(s.home (lineOf p.pa)).writable then
    let h := s.home (lineOf p.pa)
    (s.setSl (lineOf p.pa) (homeDie (lineOf p.pa)) { h with stores := h.stores ++ [r] }).slAsk (lineOf p.pa) (homeDie (lineOf p.pa))
  else
    let base := (s.home (lineOf p.pa)).wts
    (((s.useUnit k).perform r (fun s _ => s)).doMergedRest r base)

/-- A request at its home whose line the home may write (R175, R182, R333). -/
def State.atHome (s : State) (r : Req) : State :=
  if opAtUnit r.op then s.soon (.sliceAtomicOp r)
  else if r.op = .lr then s.arriveLr r
  else if opFullEmpty r.op then s.attempt r
  else s.perform r State.sendHome

/-- A request reaches its home: performed, or held until the home may write the line (R333, R334). -/
def State.arriveHome (s : State) (r : Req) : State :=
  let line := lineOf (r.pieces.headD {}).pa
  let d := homeDie line
  let h := s.sl line d
  if s.lentAway (128 * line) then s.unperformed r State.sendHome
  else if h.writable && h.stores.isEmpty && h.fillAt = 0 then s.atHome r
  else (s.setSl line d { h with stores := h.stores ++ [r] }).slAsk line d

/-- Requests held at a slice are performed or served when its copy allows it (R334, R476). -/
def State.drainLine (s : State) (line die : Nat) : State :=
  let x := s.sl line die
  let s := if x.writable then
      x.stores.foldl State.atHome (s.setSl line die { x with stores := [] })
    else s
  let x := s.sl line die
  let s := if x.readable then
      x.loads.foldl State.serveLoad (s.setSl line die { x with loads := [] })
    else s
  s.slAsk line die

/-- A load at its serving slice (R332). -/
def State.doServingSliceLoad (s : State) (r : Req) : State :=
  let line := lineOf (r.pieces.headD {}).pa
  let die := loadDie r line
  let x := s.sl line die
  if s.lentAway (128 * line) then (if r.posted && r.via == .grain then s.violate (128 * line) else s.unperformed r State.sendLoad)
  else if x.readable && x.fillAt = 0 then s.serveLoad r
  else (s.setSl line die { x with loads := x.loads ++ [r] }).slAsk line die

/-- Two posted requests of one operation, address and slot, neither ordered, become one packet of at most eight (R389). They lie
in one output queue in one cycle: that of the last router before their home, which both reach in the same cycle (DESIGN CHOICE, log
entry 66). -/
def State.doRouterMerge (s : State) (a b : Nat) : State :=
  let find (n : Nat) := s.agenda.find? (fun e => match e.act with
    | .ev (.homeStore r) => r.id == n
    | _ => false)
  match find a, find b with
  | some ea, some eb =>
    match ea.act, eb.act with
    | .ev (.homeStore ra), .ev (.homeStore rb) =>
      let commutes : Bool := match ra.op with
        | .fx fn => 3 ≤ fn.toNat && fn.toNat ≤ 12 && fn != 11
        | _ => false
      if a ≠ b ∧ ea.due = eb.due ∧ s.cycle < ea.due ∧ ra.via = .grain ∧ rb.via = .grain ∧ commutes ∧ ra.op = rb.op ∧ ra.pieces = rb.pieces ∧ ra.slot = rb.slot ∧ ra.posted ∧ rb.posted
          ∧ !ra.aq ∧ !ra.rl ∧ !rb.aq ∧ !rb.rl ∧ ra.merged.length + rb.merged.length + 2 ≤ 8 then
        let isAdd := ra.op == .fx 12
        let v := match ra.op with
          | .fx fn => if fn = 3 then ra.val + rb.val else (fxNew fn ra.val rb.val 0).1
          | _ => ra.val
        let m := { ra with
          val := if isAdd then ra.val else v
          merged := ra.merged ++ [(rb.id, rb.who, rb.val, rb.num)] ++ rb.merged }
        let s := s.unschedule (fun e => e == ea || e == eb)
        s.eventAt ea.due ea.ord (.homeStore m)
      else s
    | _, _ => s
  | _, _ => s

/-! The accumulate state at the L1 and the slice (R335 to R339). -/

/-- Logical time above every lease and write timestamp of a line (R324, R350; log entry 59). -/
def State.leaseTop (s : State) (line : Nat) : W64 :=
  let x := s.line line
  [x.rts, x.wts, x.s0.rts, x.s1.rts].foldl maxTs x.maxRts

/-- A GADD combines into its L1's partial, and its store count falls (R188). Its place in the order of the line is above every
lease granted on it, so that a load which the GADD precedes finds no lease to read (R324, R325; log entry 59). -/
def State.combineL1 (s : State) (k : CoreId) (line : Nat) (x : L1Line) (r : Req) : State :=
  let p := r.pieces.headD {}
  let i := p.pa % 128 / 4
  let (v, c) := if x.part.present.getLsbD i then combine x.tag (partWord x.part x.tag i) r.val.toNat
    else (r.val.toNat, 0)
  let w := maxTs (s.ct k) (s.leaseTop line + 1)
  let s := s.setL1 k line { x with part := partSet x.part x.tag i v }
  let s := { s with dev := { s.dev with topTs := maxTs s.dev.topTs w } }
  let s := s.count r.who c
  s.now (.storeAcknowledgement r.who r.id { wts := w })

/-- The L1 joins under a tag: a V copy is dropped, and the join goes to the die's serving slice (R335). With every way of the set
waiting for a grant or sending partials, the GADDs stay in the store path. -/
def State.joinL1 (s : State) (k : CoreId) (line : Nat) (tag : BitVec 4) (wait : List Req) : State :=
  if !(s.core k).hasWay line then s.setCore k { s.core k with gadds := (s.core k).gadds ++ wait }
  else
    let s := (s.l1Room k line).setL1 k line { st := .ia, tag := tag, wait := wait }
    s.later (s.toSlice (coreCluster k) (servingOf (k / 2048) line)) ordLate (.accumJoin k line tag)

/-- Waiting GADDs go on in issue order once the line is in A: those under its tag combine, the first under another sends the
partials away and joins anew (R335). -/
def State.l1Go (s : State) (k : CoreId) (line : Nat) : List Req → State
  | [] => s
  | r :: t =>
    match s.l1 k line, r.op with
    | some x, .gadd tag =>
      if x.tag = tag then (s.combineL1 k line x r).l1Go k line t
      else (s.evictPartial k line).joinL1 k line tag (r :: t)
    | _, _ => s

/-- A GADD to HBM4 at its core (R335). -/
def State.gaddL1 (s : State) (r : Req) (tag : BitVec 4) : State :=
  let k := coreOf r.who
  let line := lineOf (r.pieces.headD {}).pa
  match s.l1 k line with
  | some x =>
    match x.st with
    | .a => if x.tag = tag then s.combineL1 k line x r else (s.evictPartial k line).joinL1 k line tag [r]
    | .v => s.joinL1 k line tag [r]
    | .iv => s.joinL1 k line tag [r]
    | _ => s.setL1 k line { x with wait := x.wait ++ [r] }
  | none => s.joinL1 k line tag [r]

/-- GADDs that waited for a way of their set go on, in issue order (R334). -/
def State.retryGadds (s : State) (k : CoreId) : State :=
  let l := (s.core k).gadds
  l.foldl (fun s r => match r.op with
    | .gadd tag => s.gaddL1 r tag
    | _ => s) (s.setCore k { s.core k with gadds := [] })

/-- The slice grants a join to a core (R335, R336). -/
def State.grantJoin (s : State) (line die : Nat) (core : CoreId) (tag : BitVec 4) : State :=
  let x := s.sl line die
  let s := s.setSl line die { x with holders := x.holders ||| (1#256 <<< (coreCluster core % 256)) }
  s.later (s.toSlice (coreCluster core) (servingOf die line)) ordReply (.accumGrant core line tag)

/-- A join reaches the serving slice: granted at once in A under its tag, or held behind what is before it (R335, R340). -/
def State.doAccumJoin (s : State) (core : CoreId) (line : Nat) (tag : BitVec 4) : State :=
  let die := core / 2048
  let x := s.sl line die
  if s.lentAway (128 * line) then
    -- the combines write nothing, and are acknowledged (R450)
    let back := s.toSlice (coreCluster core) (servingOf die line)
    match s.l1 core line with
    | some y =>
      (y.wait.foldl (fun s r => (s.violate (128 * line)).later back ordAck (.storeAcknowledgement r.who r.id {}))
        (s.dropL1 core line)).retryGadds core
    | none => s
  else if x.st = .a ∧ x.tag = tag ∧ x.joins.isEmpty then s.grantJoin line die core tag
  else (s.setSl line die { x with joins := x.joins ++ [(core, tag)] }).slAsk line die

/-- A grant reaches the core: the line is in A with no partial, and the waiting GADDs go on (R335). -/
def State.doAccumGrant (s : State) (core : CoreId) (line : Nat) (tag : BitVec 4) : State :=
  match s.l1 core line with
  | some x =>
    if x.st = .ia ∧ x.tag = tag then
      ((s.setL1 core line { st := .a, tag := tag }).l1Go core line x.wait).retryGadds core
    else s
  | none => s

/-- An L1 evicts a line in A (R337). -/
def State.doPartialEvict (s : State) (core : CoreId) (line : Nat) : State := s.evictPartial core line

/-- What the slice becomes when it has left A, by the request it has out (R338, R348). -/
def afterRecall (ask : BitVec 2) : SlState := if ask = 1 then .isD else if ask = 2 then .imD else if ask = 3 then .iaG else .i

/-- The last answer is in: PLIST goes with SP first, then the cores ascending, and the slice leaves A (R338). -/
def State.finishRecall (s : State) (line die : Nat) (discard : Bool) : State :=
  let x := s.sl line die
  let l := if discard then [] else (0, x.sp) :: x.answers
  let s := s.setSl line die { x with st := afterRecall x.ask, sp := {}, holders := 0, answers := [], asked := [] }
  (s.toDir die (.plist line die l)).slAsk line die

/-- A recalled core leaves A and sends its partials or NONE; it is in AR until they have reached the slice, and GADDs that come
meanwhile wait (R334, R338; log entry 59). -/
def State.doCoreRecall (s : State) (core : CoreId) (line : Nat) (discard : Bool) : State :=
  let die := core / 2048
  let (s, part) : State × Partial := match s.l1 core line with
    | some y => if y.st = L1State.a then (s.setL1 core line { st := .ar, tag := y.tag }, y.part) else (s, {})
    | none => (s, {})
  s.later (s.toSlice (coreCluster core) (servingOf die line)) (ordSlice die) (.coreRecall core line discard (some part))

/-- The answer of a recalled core reaches the slice; the core is in I, and GADDs that waited there join anew (R338). -/
def State.doRecallAnswer (s : State) (core : CoreId) (line : Nat) (discard : Bool) (part : Partial) : State :=
  let die := core / 2048
  let s := match s.l1 core line with
    | some y =>
      if y.st = L1State.ar then
        (match y.wait with
        | [] => (s.dropL1 core line).retryGadds core
        | r :: t => match r.op with
          | .gadd tag => (s.dropL1 core line).joinL1 core line tag (r :: t)
          | _ => s.dropL1 core line)
      else s
    | none => s
  let x := s.sl line die
  if !x.asked.contains core then s
  else
    let s := s.setSl line die { x with
      asked := x.asked.filter (· != core)
      answers := if part.present = 0 then x.answers else Tab.set x.answers core part }
    if (s.sl line die).asked.isEmpty then s.finishRecall line die discard else s

/-- RCL reaches a slice: every core of every marked cluster is recalled (R338, R476). -/
def State.doRcl (s : State) (line die : Nat) (discard : Bool) : State :=
  let x := s.sl line die
  let cls := (List.range 256).filter (fun c => x.holders.getLsbD c)
  let cores := cls.flatMap (fun c => (List.range 8).map (fun i => (256 * die + c) * 8 + i))
  let s := s.setSl line die { x with st := .ar, asked := cores, answers := [] }
  if cores.isEmpty then s.finishRecall line die discard
  else cores.foldl (fun s k =>
    s.later (s.toSlice (coreCluster k) (servingOf die line)) ordReply (.coreRecall k line discard none)) s

/-! Messages at the slices (R348 to R350). -/

/-- DATA: CMP goes back at once; the fill is installed 20 cycles later (R348, R476). -/
def State.doDataMsg (s : State) (line die : Nat) (g : Grant) (d : LineData) (fe : BitVec 16) (wts rts : W64) : State :=
  let x := s.sl line die
  if x.fillAt = s.cycle ∧ s.cycle ≠ 0 then
    let s := s.sliceRoom die line
    let x := s.sl line die
    let y := { x with fillAt := 0, ask := 0 }
    let y := if x.st = .m then y
      else { y with st := (if g = .s then .s else if g = .e then .e else .m), data := d, fe := fe, wts := wts, rts := rts }
    (s.setSl line die y).drainLine line die
  else
    let s := s.setSl line die { x with fillAt := s.cycle + 20 }
    (s.toDir die (.cmp line)).later 20 ordDir (.dataMsg line die g d fe wts rts)

/-- GNT: the upgrade is granted, and the stores held behind it are performed (R348, R350). -/
def State.doGnt (s : State) (line : Nat) (maxRts : W64) : State :=
  let d := homeDie line
  let x := s.sl line d
  let s := s.setSl line d { x with st := .m, ask := 0, rts := if x.rts.ult maxRts then maxRts else x.rts }
  (s.toDir d (.cmp line)).drainLine line d

/-- AGNT: the slice holds A under the tag and grants its waiting joins (R335). -/
def State.doAgnt (s : State) (line die : Nat) (tag : BitVec 4) : State :=
  let x := s.sl line die
  let js := x.joins.takeWhile (fun j => j.2 == tag)
  let s := (s.sliceRoom die line).setSl line die { x with st := .a, tag := tag, since := s.cycle, ask := 0, joins := x.joins.drop js.length }
  let s := js.foldl (fun s j => s.grantJoin line die j.1 tag) s
  (s.toDir die (.cmp line)).slAsk line die

/-- FWS: h sends the line to p, or its data with FACK to the directory for a port, and keeps it (R348, R477). -/
def State.doFws (s : State) (line : Nat) (a : Agent) : State :=
  let d := homeDie line
  let x := s.sl line d
  let dirty := x.st == .m || x.st == .o
  let st := match a with
    | .slice _ => if x.st = .miW ∨ x.st = .siP then x.st else if dirty then .o else .s
    | .port _ => if x.st = .miW ∨ x.st = .siP then x.st else .s
  let s := match a with
    | .slice die => s.fromDir (.dataMsg line die .s x.data x.fe x.wts x.rts)
    | .port _ => s
  let s := s.setSl line d { x with st := st }
  s.toDir d (.fack line (if dirty then some (x.data, x.fe) else none) (x.st == .miW || x.st == .siP) x.wts x.rts)

/-- FWB: h writes back if dirty and invalidates (R348). -/
def State.doFwb (s : State) (line : Nat) : State :=
  let d := homeDie line
  let x := s.sl line d
  if x.st = .miW ∨ x.st = .siP then s.toDir d (.fack line none true x.wts x.rts)
  else
    let dirty := x.st == .m || x.st == .o
    let st := if x.ask = 3 then SlState.iaG else if x.ask = 2 then .imD else if x.ask = 1 then .isD else .i
    let s := s.setSl line d { x with st := st }
    (s.toDir d (.fack line (if dirty then some (x.data, x.fe) else none) false x.wts x.rts)).slAsk line d

/-- INV: an S copy goes (R348). -/
def State.doInvMsg (s : State) (line die : Nat) : State :=
  let x := s.sl line die
  let st := match x.st with
    | .s => if x.ask = 3 then SlState.iaG else .i
    | .smG => .imD
    | .saG => .iaG
    | other => other
  ((s.setSl line die { x with st := st }).toDir die (.iack line die x.rts)).slAsk line die

/-- WBACK and PUTACK: the eviction is complete (R348). -/
def State.doWback (s : State) (line die : Nat) : State :=
  let x := s.sl line die
  if x.st = .miW ∨ x.st = .siP then (s.setSl line die { x with st := .i }).slAsk line die else s

/-- MRG: the home's atomic unit folds V with the lists, in its turn, and the home holds the result in M with
WTS = RTS = max(MAXRTS, RTS of h) + 1 (R338, R350, R386, R456, R476). -/
def State.doMrg (s : State) (line : Nat) (v : LineData) (fe : BitVec 16) (lists : List (Nat × Partial)) (maxRts : W64) : State :=
  let d := homeDie line
  if !s.unitFree (homeOf line) then s.eventAt (s.slice (homeOf line)).atomAt 500 (.mrg line v fe lists maxRts)
  else
    let s := (s.useUnit (homeOf line)).sliceRoom d line
    let x := s.sl line d
    let (acc, cs) := foldLists (s.line line).tag v (lists.map (·.2))
    let m := maxTs x.rts maxRts
    let s := s.setSl line d { x with st := .m, data := acc, fe := fe, wts := m + 1, rts := m + 1 }
    let s := { s with dev := { s.dev with topTs := maxTs s.dev.topTs (m + 1) } }
    let s := s.countSlices (homeOf line) cs
    let s := s.loseLine (128 * line) none
    (s.toDir d (.cmp line)).drainLine line d

/-! The directory (R346, R347, R349, R477). -/

/-- Sharer or holder bit of a die. -/
def Line.sh (x : Line) (die : Nat) : Bool := if die = 0 then x.sh0 else x.sh1
/-- Set a die's bit. -/
def Line.setSh (x : Line) (die : Nat) (b : Bool) : Line := if die = 0 then { x with sh0 := b } else { x with sh1 := b }
/-- The dies whose bit is set. -/
def Line.sharers (x : Line) : List Nat := [0, 1].filter x.sh

/-- The directory sends INV to some dies and waits for their IACKs (R347). -/
def State.invalidate (s : State) (line : Nat) (dies : List Nat) : State :=
  let x := s.line line
  let s := s.setLine line { x with txn := x.txn.map (fun t => { t with iacks := dies }) }
  dies.foldl (fun s d => s.fromDir (.invMsg line d)) s

/-- What a WB carries: data, full-empty bits, WTS and RTS. -/
def writeBackOf : DirReq → Option (LineData × BitVec 16 × W64 × W64)
  | .wb d fe w r => some (d, fe, w, r)
  | _ => none

/-- The requests that wait for a line, at its memory-side slice and then in the bridge (R346). -/
def State.waitingFor (s : State) (line : Nat) : List DirReq :=
  (s.line line).queue ++ (s.dev.bridge.filter (fun e => e.1 == line)).map (·.2)

/-- A WB that already waits behind a transaction is absorbed into it, as the transaction comes to wait on h (R346, R349). -/
def State.absorbWb (s : State) (line : Nat) : State :=
  match (s.waitingFor line).findSome? writeBackOf with
  | none => s
  | some (d, fe, w, r) =>
    let s := s.putMemSide line d fe
    let y := s.line line
    let s := s.setLine line { y with
      wts := w, rts := r, txn := y.txn.map (fun t => { t with absorbed := true }),
      queue := y.queue.filter (fun q => (writeBackOf q).isNone) }
    { s with dev := { s.dev with bridge := s.dev.bridge.filter (fun e => e.1 != line || (writeBackOf e.2).isNone) } }

/-- The directory sends a forward to h and waits for its FACK. -/
def State.forward (s : State) (line : Nat) (e : Ev) : State :=
  let x := s.line line
  ((s.setLine line { x with txn := x.txn.map (fun t => { t with fack := true }) }).absorbWb line).fromDir e

/-- The directory recalls every die of the A set (R338). -/
def State.recallAll (s : State) (line : Nat) (discard : Bool) : State :=
  let x := s.line line
  let s := s.setLine line { x with txn := x.txn.map (fun t => { t with plists := x.sharers }) }
  x.sharers.foldl (fun s d => s.fromDir (.rcl line d discard)) s

/-- The request is an AJN under the line's own tag. -/
def DirReqSameTag (x : Line) : DirReq → Bool
  | .ajn _ t => x.tag == t
  | _ => false
/-- The request is the line step of a CDISC on a covered line (R338). -/
def dirDiscards : DirReq → Bool
  | .lineStep op covered _ => op == 2 && covered
  | _ => false

/-- The directory acts on the request of its transaction: it sends what the request needs first (R347, R477). -/
def State.dirAct (s : State) (line : Nat) : State :=
  let x := s.line line
  let h := homeDie line
  let p := 1 - h
  match x.txn with
  | none => s
  | some t =>
    match x.st with
    | .a => if DirReqSameTag x t.req then s else s.recallAll line (dirDiscards t.req)
    | .i => s
    | .s =>
      match t.req with
      | .upg => s.invalidate line (x.sharers.filter (· != h))
      | .rdx => s.invalidate line x.sharers
      | .ajn _ _ => s.invalidate line x.sharers
      | .portWrite _ _ _ _ => s.invalidate line x.sharers
      | _ => s
    | .o =>
      match t.req with
      | .rds (.slice d) _ => if d = h then s else s.forward line (.fws line (.slice d))
      | .upg => s.invalidate line (if x.sh p then [p] else [])
      | .rdx => s.invalidate line (if x.sh p then [p] else [])
      | .ajn _ _ => (s.invalidate line (if x.sh p then [p] else [])).forward line (.fwb line)
      | .portRead n _ _ _ => s.forward line (.fws line (.port n))
      | .portWrite _ _ _ _ => (s.invalidate line (if x.sh p then [p] else [])).forward line (.fwb line)
      | _ => s
    | _ =>
      match t.req with
      | .rds (.slice d) _ => if d = h then s else s.forward line (.fws line (.slice d))
      | .ajn _ _ => s.forward line (.fwb line)
      | .portRead n _ _ _ => s.forward line (.fws line (.port n))
      | .portWrite _ _ _ _ => s.forward line (.fwb line)
      | _ => s

/-- The transaction awaits nothing more before its final action. -/
def Txn.clear (t : Txn) : Bool := t.looked && t.iacks.isEmpty && !t.fack && t.plists.isEmpty && !t.cmp && !t.merge

/-- The bytes of a port write reach the line at the memory-side slice; its timestamps rise above every lease (R477), and not
below those of the port's earlier writes, which precede it (R323; log entry 60); a whole word written becomes full (R298). -/
def State.portBytes (s : State) (port line off : Nat) (bs : List Byte) : State :=
  let (d, fe) := s.memSide line
  let full := (List.range 16).foldl (fun (m : BitVec 16) i =>
    if off ≤ 8 * i && 8 * i + 8 ≤ off + bs.length then m ||| (1#16 <<< i) else m) 0
  let x := s.line line
  let w := maxTs (maxTs (maxTs x.maxRts x.wts) x.rts + 1) (Tab.get 0 s.dev.portTs port)
  let s := s.putMemSide line (LineData.put d off bs) (fe ||| full)
  let s := s.setLine line { s.line line with wts := w, rts := w }
  let s := { s with dev := { s.dev with topTs := maxTs s.dev.topTs w, portTs := Tab.set s.dev.portTs port w } }
  let s := s.loseLine (128 * line) none
  -- requests parked on a word that became full are attempted anew at the home (R184)
  ((s.slice (homeOf line)).parked.filter (fun r => lineOf (r.pieces.headD {}).pa == line
      && full.getLsbD ((r.pieces.headD {}).pa % 128 / 8))).foldl
    (fun s r => (s.unpark (r.pieces.headD {}).pa r.id).soon (.fullEmptyAtHome r)) s

/-- One line of a range operation is done; the last one ends it (R310, R449, R451). -/
def State.batchDone (s : State) (batch line : Nat) : State :=
  match Tab.find s.ranges batch with
  | none => s
  | some o =>
    if o.left > 1 then { s with ranges := Tab.set s.ranges batch { o with left := o.left - 1 } }
    else
      let s := { s with ranges := Tab.erase s.ranges batch }
      let s := match o.lend with
        | some f =>
          let l : Lend := Tab.get {} s.dev.lends f
          let s := { s with dev := { s.dev with lends := Tab.set s.dev.lends f { l with st := 2 } } }
          if l.kind then s.dieOut 0 (s.peerChip l.peer.toNat) (.lent f) else s.send (.lent f)
        | none => s
      match o.who with
      | some (c, d) => s.later (s.toSlice (clusterOf c) (homeOf line)) ordReply (.replyArrival c { id := batch, rd := d, wr := true, val := o.res, did := true })
      | none => s.soon .ckctlFlushDone

/-- A line step acts on one line as one indivisible step: 0 CFLUSH, 1 CINV, 2 CDISC (R309). -/
def State.lineStepNow (s : State) (line : Nat) (op : BitVec 2) (covered : Bool) (batch : Nat) : State :=
  let h := homeDie line
  let discard := op == 2 && covered
  let x := s.sl line h
  let before := if discard then s.hbmFe line else 0
  let latest := if x.st = .m ∨ x.st = .o then x.fe else (s.memSide line).2
  -- dirty copies go down to HBM4
  let s := if discard then s
    else
      let s := if x.st = .m ∨ x.st = .o then s.putMemSide line x.data x.fe else s
      let s := if x.st = .m ∨ x.st = .o then
          s.setLine line { s.line line with wts := x.wts, rts := x.rts } else s
      match (s.line line).msc with
      | some (d, fe, true) => (s.putHbm line d fe).setLine line { s.line line with msc := some (d, fe, false) }
      | _ => s
  let s := if discard ∨ op ≠ 0 then
      -- every copy goes
      let drop (st : SlState) : SlState := match st with
        | .s => .i
        | .e => .i
        | .m => .i
        | .o => .i
        | .a => .i
        | .smG => .imD
        | .saG => .iaG
        | other => other
      let y := s.line line
      let mx := [y.s0.rts, y.s1.rts].foldl (fun (a b : W64) => if a.ult b then b else a) y.maxRts
      let s := s.setLine line { y with
        st := .i, sh0 := false, sh1 := false, maxRts := mx, msc := none
        s0 := { y.s0 with st := drop y.s0.st }
        s1 := { y.s1 with st := drop y.s1.st } }
      let s := { s with cores := Tab.mapVal (fun c => { c with l1 := c.l1.filter (fun l => l.1 != line || l.2.st == L1State.ia || l.2.st == L1State.ar) }) s.cores }
      match (Tab.find s.ranges batch).bind (·.who) with
      | some (c, _) =>
        let k := coreOf c
        let s := s.setCore k { s.core k with icache := Tab.erase (s.core k).icache line }
        s.loseLine (128 * line) (some c)
      | none => s.loseLine (128 * line) none
    else
      -- copies stay, now clean
      let y := s.line line
      let x := y.sl h
      if x.st = .m then s.setSl line h { x with st := .e }
      else if x.st = .o then (s.setSl line h { x with st := .s }) |> fun s =>
        s.setLine line ((({ s.line line with st := .s }).setSh h true))
      else s
  -- a discarded word takes the bit of the level below, a change of state for parked requests (R298)
  let s := if discard ∧ before ≠ latest then
      ((s.slice (homeOf line)).parked.filter (fun r => lineOf (r.pieces.headD {}).pa == line)).foldl
        (fun s r => (s.unpark (r.pieces.headD {}).pa r.id).soon (.fullEmptyAtHome r)) s
    else s
  let s := (s.slAsk line 0).slAsk line 1
  s.batchDone batch line

/-! Ports (R11, R447, R478). Ports 0 and 1 are the host's; Camsum port c is port 2 + c. -/

/-- IO die of a port (R11). -/
def ioDieOfPort (port : Nat) : Nat :=
  if port = 0 then 0 else if port = 1 then 2
  else if port < 7 then 0 else if port < 12 then 1 else if port < 16 then 2 else 3
/-- IO die of a memory-side slice (R11, R294). -/
def ioDieOfSlice (m : Nat) : Nat := m / 16
/-- HBM4 stack of a line (R11, R294). -/
def stackOf (line : Nat) : Nat := memSideOf line / 8

/-- The device answers the host outside Thatch's region: start-up is over and no alarm has been raised (R460, R470). -/
def State.answers (s : State) : Bool := s.thatch.ready && !s.thatch.alarmed

/-- Device address of a port's access: ports 0 and 1 are the host's, whose window B maps at WBBASE; a peer's is physical
(R444, R447). -/
def State.portPa (s : State) (port addr : Nat) : Nat := if port < 2 then s.dev.wbbase.toNat + addr else addr

/-- Cycles of an access inside the device, one way (R478); a peer's has no time stated. -/
def State.hostWay (s : State) (port pa : Nat) : Nat :=
  if 2 ≤ port then 0
  else match s.region pa with
    | .scratch cl _ => 100 + s.dist (256 * (cl / 256)) cl
    | _ => if ioDieOfSlice (memSideOf (lineOf pa)) = ioDieOfPort port then 40 else 70

/-- An access is a write that the port keeps in order with its other ordered writes and its reads (R447). -/
def evInOrder : Ev → Bool
  | .hostPortWrite _ _ _ relaxed _ => !relaxed
  | .hostScratchpadAccess _ _ (some _) _ _ relaxed _ => !relaxed
  | _ => false

/-- An access is a write with relaxed ordering. -/
def evRelaxed : Ev → Bool
  | .hostPortWrite _ _ _ relaxed _ => relaxed
  | .hostScratchpadAccess _ _ (some _) _ _ relaxed _ => relaxed
  | _ => false

/-- Address of an access. -/
def evAddr : Ev → Nat
  | .hostPortRead _ a _ _ _ => a
  | .hostPortWrite _ a _ _ _ => a
  | .hostScratchpadAccess _ a _ _ _ _ _ => a
  | _ => 0

/-- An access leaves its port. At a bank it comes after the grains and engines of the cycle (R291). -/
def State.portSend (s : State) (port : Nat) (e : Ev) : State :=
  let pa := s.portPa port (evAddr e)
  let s := s.later (s.hostWay port pa) (if pa < hbmBytes then ordPort port else 165500) e
  if evInOrder e then { s with dev := { s.dev with portBusy := Tab.set s.dev.portBusy port 1 } } else s

/-- A host port receives an access. An ordered write, and a read, wait until the port's earlier ordered writes have been
performed; a write with relaxed ordering passes all but those of its own line (R447, R323). -/
def State.portReceive (s : State) (port pa : Nat) (e : Ev) : State :=
  let q := Tab.get [] s.dev.portQ port
  let wait : Bool := if evRelaxed e then q.any (fun x => lineOf (s.portPa port (evAddr x)) == lineOf pa)
    else !q.isEmpty || Tab.get 0 s.dev.portBusy port != 0
  if port < 2 ∧ wait then { s with dev := { s.dev with portQ := Tab.set s.dev.portQ port (q ++ [e]) } }
  else s.portSend port e

/-- Accesses that wait at a port leave it up to the next ordered write. -/
def State.portNext (s : State) (port : Nat) : List Ev → State
  | [] => { s with dev := { s.dev with portQ := Tab.erase s.dev.portQ port } }
  | e :: t =>
    if evInOrder e then ({ s with dev := { s.dev with portQ := Tab.set s.dev.portQ port t } } : State).portSend port e
    else (s.portSend port e).portNext port t

/-- A write of a port has been performed: its completion goes back, and what waited for it leaves the port (R447, R478). -/
def State.portDone (s : State) (port pa : Nat) (relaxed : Bool) : State :=
  let s := s.send (.portDone port (s.cycle + s.hostWay port pa))
  if relaxed then s
  else
    let s : State := { s with dev := { s.dev with portBusy := Tab.erase s.dev.portBusy port } }
    s.portNext port (Tab.get [] s.dev.portQ port)

/-- The transaction ends: evictions absorbed by it are acknowledged (R349). -/
def State.endTxn (s : State) (line : Nat) : State :=
  let x := s.line line
  match x.txn with
  | none => s
  | some t =>
    let s := s.setLine line { x with txn := none }
    let s := if t.absorbed then s.fromDir (.wback line (homeDie line)) else s
    t.absorbedPut.foldl (fun s d => s.fromDir (.wback line d)) s

/-- The transaction waits for its requester's CMP. -/
def State.awaitCmp (s : State) (line : Nat) : State :=
  let x := s.line line
  s.setLine line { x with txn := x.txn.map (fun t => { t with cmp := true }) }

/-- Requests that a memory-side slice holds waiting (R346). -/
def State.waitingAt (s : State) (m : Nat) : Nat :=
  s.lines.foldl (fun n e => if memSideOf e.1 = m then n + e.2.queue.length else n) 0

/-- The memory-side slice of a line has no place for a waiting request, or others wait in the bridge before it (R346). -/
def State.bridgeFull (s : State) (line : Nat) : Bool :=
  256 ≤ s.waitingAt (memSideOf line) || s.dev.bridge.any (fun e => memSideOf e.1 == memSideOf line)

/-- A requester opens a transaction, or waits in arrival order: at the memory-side slice, or in the bridge while that holds 256
waiting requests (R346, R476). -/
def State.dirArrive (s : State) (line : Nat) (q : DirReq) (ord : Nat) (e : Ev) : State :=
  let x := s.line line
  match x.txn with
  | some t =>
    if t.req = q ∧ t.at_ = s.cycle ∧ !t.looked then
      (s.setLine line { x with txn := some { t with looked := true } }).dirAct line
    else if s.bridgeFull line then { s with dev := { s.dev with bridge := s.dev.bridge ++ [(line, q)] } }
    else s.setLine line { x with queue := x.queue ++ [q] }
  | none =>
    if s.dev.bridge.any (fun b => b.1 == line) then { s with dev := { s.dev with bridge := s.dev.bridge ++ [(line, q)] } }
    else (s.setLine line { x with txn := some { req := q, at_ := s.cycle + 20 } }).later 20 ord e

/-- The final action of a transaction that awaits nothing more (R347, R477): replies, and the line's next state. -/
def State.dirDone (s : State) (line : Nat) : State :=
  let x := s.line line
  let h := homeDie line
  let p := 1 - h
  match x.txn with
  | none => s
  | some t =>
    let toA (d : Nat) (tag : BitVec 4) : State :=
      let y := { s.line line with st := .a, tag := tag, sh0 := d == 0, sh1 := d == 1 }
      ((s.setLine line y).awaitCmp line).fromDir (.agnt line d tag)
    let toM (s : State) : State := s.setLine line ({ s.line line with st := .m, sh0 := false, sh1 := false })
    let gnt : State := ((toM s).awaitCmp line).fromDir (.gnt line x.maxRts)
    let dataM : State := ((toM s).awaitCmp line).sendData line h .m
    match t.req with
    | .rds (.slice d) _ =>
      match x.st with
      | .i =>
        if d = h then ((s.setLine line { x with st := .e }).awaitCmp line).sendData line h .e
        else ((s.setLine line (({ x with st := .s }).setSh p true)).awaitCmp line).sendData line p .s
      | .s => ((s.setLine line (x.setSh d true)).awaitCmp line).sendData line d .s
      | .a => s
      | _ =>
        if d = h then
          let y := s.sl line h
          (s.awaitCmp line).fromDir (.dataMsg line h .m y.data y.fe y.wts y.rts)
        else
          -- the line has gone from h to p by FWS; h's FACK has said whether it was dirty
          let gone := t.absorbed || t.absorbedPut.contains h
          let y := if gone then ({ x with st := .s }).setSh p true
            else if t.dirty then ({ x with st := .o }).setSh p true
            else (({ x with st := .s }).setSh p true).setSh h true
          (s.setLine line y).awaitCmp line
    | .rds (.port _) _ => s.endTxn line
    | .upg => if x.st = .s ∧ x.sh h ∨ x.st = .o then gnt else dataM
    | .rdx => dataM
    | .ajn d tag =>
      match x.st with
      | .a => ((s.setLine line (x.setSh d true)).awaitCmp line).fromDir (.agnt line d tag)
      | _ => toA d tag
    | .aev _ => s.endTxn line
    | .put d r =>
      let y := (x.setSh d false)
      let y := { y with
        maxRts := if y.maxRts.ult r then r else y.maxRts
        st := match x.st with
          | .s => if y.sh0 || y.sh1 then .s else .i
          | .e => if d = h then .i else .e
          | .m => if d = h then .i else .m
          | other => other }
      ((s.setLine line y).endTxn line).fromDir (.wback line d)
    | .wb d fe w r =>
      let s := s.putMemSide line d fe
      let x := s.line line
      let y := { x with wts := w, rts := r, st := if x.st = .o ∧ x.sh p then .s else .i }
      ((s.setLine line y).endTxn line).fromDir (.wback line h)
    | .portRead port id off len =>
      let y := match x.st with
        | .e => ({ x with st := .s }).setSh h true
        | .m => ({ x with st := .s }).setSh h true
        | .o => ({ x with st := .s }).setSh h true
        | _ => x
      let y := if t.absorbed ∨ t.absorbedPut.contains h then
          { y.setSh h false with st := if y.sh p then .s else .i } else y
      let s := (s.setLine line y).fillMemSide line
      let (d, _) := s.memSide line
      (s.send (.portData port id (LineData.bytes d off len) (s.cycle + s.hostWay port (128 * line)))).endTxn line
    | .portWrite port off bs relaxed =>
      let s := s.setLine line { x with st := .i, sh0 := false, sh1 := false }
      ((s.portBytes port line off bs).portDone port (128 * line) relaxed).endTxn line
    | .lineStep op covered batch =>
      let busy (d : Nat) : Bool := let st := (s.sl line d).st; st == .miW || st == .siP || (s.sl line d).fillAt != 0
      if busy 0 ∨ busy 1 then
        (s.endTxn line).later 1 (ordDir + 1) (.lineStep line op covered batch)
      else
        let s := if x.st = .a then
            s.setLine line { x with st := .i, sh0 := false, sh1 := false } else s
        (s.lineStepNow line op covered batch).endTxn line

/-- The transaction goes on if it awaits nothing more; when one ends, the next waiting request is acted on (R346, R476). -/
def State.dirGo (s : State) (line : Nat) : Nat → State
  | 0 => s
  | n + 1 =>
    let x := s.line line
    match x.txn with
    | some t =>
      if t.clear then
        let s := s.dirDone line
        if (s.line line).txn.isNone then s.dirGo line n else s
      else s
    | none =>
      match x.queue with
      | [] => s
      | q :: rest =>
        let s := s.setLine line { x with queue := rest, txn := some { req := q, at_ := s.cycle, looked := true } }
        (s.dirAct line).dirGo line n

/-- A request leaves the bridge for a place that has become free at its memory-side slice (R346). -/
def State.fromBridge (s : State) (m : Nat) : State :=
  match s.dev.bridge.find? (fun e => memSideOf e.1 == m) with
  | some (line, q) =>
    if s.waitingAt m < 256 then
      let x := s.line line
      ({ s with dev := { s.dev with bridge := s.dev.bridge.erase (line, q) } } : State).setLine line { x with queue := x.queue ++ [q] }
    else s
  | none => s

/-- A line's transaction goes on as far as it can, with what its queue holds and what the bridge then brings (R346). -/
def State.goLine (s : State) (line : Nat) : State :=
  let s := s.dirGo line (2 * (s.line line).queue.length + 4)
  if s.dev.bridge.isEmpty then s
  else
    let m := memSideOf line
    let next := (s.dev.bridge.find? (fun e => memSideOf e.1 == m)).map (·.1)
    let s := s.fromBridge m
    match next with
    | some n => s.dirGo n (2 * (s.line n).queue.length + 4)
    | none => s

/-- A request message at the directory. -/
def State.dirRequest (s : State) (line : Nat) (q : DirReq) (ord : Nat) (e : Ev) : State :=
  (s.dirArrive line q ord e).goLine line

/-- WB: dirty eviction, absorbed by a transaction that waits on h (R346, R349). -/
def State.doWb (s : State) (line : Nat) (d : LineData) (fe : BitVec 16) (wts rts : W64) : State :=
  let x := s.line line
  match x.txn with
  | some t =>
    if t.fack then
      let s := s.putMemSide line d fe
      s.setLine line { s.line line with wts := wts, rts := rts, txn := some { t with absorbed := true } }
    else s.dirRequest line (.wb d fe wts rts) (ordSlice (homeDie line)) (.wb line d fe wts rts)
  | none => s.dirRequest line (.wb d fe wts rts) (ordSlice (homeDie line)) (.wb line d fe wts rts)

/-- PUT: clean eviction, absorbed by a transaction that waits on the slice (R346). -/
def State.doPutMsg (s : State) (line die : Nat) (rts : W64) : State :=
  let x := s.line line
  match x.txn with
  | some t =>
    if t.iacks.contains die ∨ (t.fack ∧ die = homeDie line) then
      s.setLine line { x with
        maxRts := if x.maxRts.ult rts then rts else x.maxRts
        txn := some { t with absorbedPut := t.absorbedPut ++ [die] } }
    else s.dirRequest line (.put die rts) (ordSlice die) (.putMsg line die rts)
  | none => s.dirRequest line (.put die rts) (ordSlice die) (.putMsg line die rts)

/-- AEV: absorbed when the line is being merged already, else a merge under R338 (R336, R346). -/
def State.doAev (s : State) (line die : Nat) : State :=
  match (s.line line).txn with
  | some t => if t.plists.contains die then s else s.dirRequest line (.aev die) (ordSlice die) (.aev line die)
  | none => s.dirRequest line (.aev die) (ordSlice die) (.aev line die)

/-- FACK: the data of a dirty h comes to the memory-side slice (R347, R349). -/
def State.doFack (s : State) (line : Nat) (data : Option (LineData × BitVec 16)) (inWb : Bool) (wts rts : W64) : State :=
  let x := s.line line
  match x.txn with
  | none => s
  | some t =>
    let keep := match t.req with
      | .rds (.slice _) _ => true
      | _ => false
    let s := match data with
      | some (d, fe) => if keep ∨ inWb then s else s.putMemSide line d fe
      | none => s
    let y := s.line line
    let y := if inWb then y else { y with wts := wts, rts := rts, maxRts := if y.maxRts.ult rts then rts else y.maxRts }
    (s.setLine line { y with txn := some { t with fack := false, dirty := data.isSome } }).goLine line

/-- IACK: a copy is gone, and the directory keeps the highest RTS (R350). -/
def State.doIack (s : State) (line die : Nat) (rts : W64) : State :=
  let x := s.line line
  match x.txn with
  | none => s
  | some t =>
    (s.setLine line { x with
      maxRts := if x.maxRts.ult rts then rts else x.maxRts
      txn := some { t with iacks := t.iacks.filter (· != die) } }).goLine line

/-- PLIST: when every die has answered, MRG goes to the home, unless the partials are discarded (R338). -/
def State.doPlist (s : State) (line die : Nat) (lists : List (Nat × Partial)) : State :=
  let x := s.line line
  match x.txn with
  | none => s
  | some t =>
    let t := { t with
      plists := t.plists.filter (· != die)
      lists := if die = 0 then lists ++ t.lists else t.lists ++ lists }
    let s := s.setLine line { x with txn := some t }
    if !t.plists.isEmpty then s
    else if dirDiscards t.req then s.goLine line
    else
      let s := s.setLine line { s.line line with txn := some { t with merge := true, lists := [] } }
      let (v, fe) := s.memSide line
      s.fromDir (.mrg line v fe t.lists x.maxRts)

/-- CMP: after a merge the request is processed anew from M; else the transaction ends and the next is acted on (R338,
R346). -/
def State.doCmp (s : State) (line : Nat) : State :=
  let x := s.line line
  match x.txn with
  | none => s
  | some t =>
    if t.merge then
      let s := s.setLine line { x with st := .m, sh0 := false, sh1 := false, txn := some { t with merge := false } }
      (s.dirAct line).goLine line
    else if t.cmp then
      let h := homeDie line
      let gone := t.absorbed || t.absorbedPut.contains h
      let y := if gone then (if x.st = .o then { x with st := .s } else if x.st = .m ∨ x.st = .e then { x with st := .i } else x) else x
      let y := if gone ∧ y.st ≠ .a then y.setSh h false else y
      ((s.setLine line y).endTxn line).goLine line
    else s

/-- A port's access to memory of the device; the host's is aborted while the device does not answer, and where there is no such
memory (R460, R470). -/
def State.portAccess (s : State) (port : Nat) (there : Bool) (go : State) : State :=
  if (port < 2 && !s.answers) || !there then s.send (.abort port) else go

/-- A port's read of a line: as the port receives it, and at the line's memory-side slice (R477, R478). -/
def State.doHostPortRead (s : State) (port addr len id : Nat) (there : Bool) : State :=
  let pa := s.portPa port addr
  let e : Ev := .hostPortRead port addr len id true
  if there then s.dirRequest (lineOf pa) (.portRead port id (pa % 128) len) (ordPort port) e
  else s.portAccess port (s.region pa == .hbm) (s.portReceive port pa e)

/-- A port's write of bytes of a line: as the port receives it, and at the line's memory-side slice (R477, R478). -/
def State.doHostPortWrite (s : State) (port addr : Nat) (bs : List Byte) (relaxed there : Bool) : State :=
  let pa := s.portPa port addr
  let e : Ev := .hostPortWrite port addr bs relaxed true
  if there then s.dirRequest (lineOf pa) (.portWrite port (pa % 128) bs relaxed) (ordPort port) e
  else s.portAccess port (s.region pa == .hbm) (s.portReceive port pa e)

/-! One meaning for each message and event. -/

def execRds (s : State) : Host.Outcome State Fault Refusal :=
  .next (match s.ev with
    | .rds line d ct => s.dirRequest line (.rds (.slice d) ct) (ordSlice d) (.rds line d ct)
    | _ => s)
def execRdx (s : State) : Host.Outcome State Fault Refusal :=
  .next (match s.ev with
    | .rdx line => s.dirRequest line .rdx (ordSlice (homeDie line)) (.rdx line)
    | _ => s)
def execUpg (s : State) : Host.Outcome State Fault Refusal :=
  .next (match s.ev with
    | .upg line => s.dirRequest line .upg (ordSlice (homeDie line)) (.upg line)
    | _ => s)
def execAjn (s : State) : Host.Outcome State Fault Refusal :=
  .next (match s.ev with
    | .ajn line d t => s.dirRequest line (.ajn d t) (ordSlice d) (.ajn line d t)
    | _ => s)
def execAev (s : State) : Host.Outcome State Fault Refusal :=
  .next (match s.ev with
    | .aev line d => s.doAev line d
    | _ => s)
def execPutMsg (s : State) : Host.Outcome State Fault Refusal :=
  .next (match s.ev with
    | .putMsg line d r => s.doPutMsg line d r
    | _ => s)
def execWb (s : State) : Host.Outcome State Fault Refusal :=
  .next (match s.ev with
    | .wb line d fe w r => s.doWb line d fe w r
    | _ => s)
def execDataMsg (s : State) : Host.Outcome State Fault Refusal :=
  .next (match s.ev with
    | .dataMsg line d g x fe w r => s.doDataMsg line d g x fe w r
    | _ => s)
def execGnt (s : State) : Host.Outcome State Fault Refusal :=
  .next (match s.ev with
    | .gnt line m => s.doGnt line m
    | _ => s)
def execAgnt (s : State) : Host.Outcome State Fault Refusal :=
  .next (match s.ev with
    | .agnt line d t => s.doAgnt line d t
    | _ => s)
def execFws (s : State) : Host.Outcome State Fault Refusal :=
  .next (match s.ev with
    | .fws line a => s.doFws line a
    | _ => s)
def execFwb (s : State) : Host.Outcome State Fault Refusal :=
  .next (match s.ev with
    | .fwb line => s.doFwb line
    | _ => s)
def execFack (s : State) : Host.Outcome State Fault Refusal :=
  .next (match s.ev with
    | .fack line d b w r => s.doFack line d b w r
    | _ => s)
def execInvMsg (s : State) : Host.Outcome State Fault Refusal :=
  .next (match s.ev with
    | .invMsg line d => s.doInvMsg line d
    | _ => s)
def execIack (s : State) : Host.Outcome State Fault Refusal :=
  .next (match s.ev with
    | .iack line d r => s.doIack line d r
    | _ => s)
def execRcl (s : State) : Host.Outcome State Fault Refusal :=
  .next (match s.ev with
    | .rcl line d b => s.doRcl line d b
    | _ => s)
def execPlist (s : State) : Host.Outcome State Fault Refusal :=
  .next (match s.ev with
    | .plist line d l => s.doPlist line d l
    | _ => s)
def execMrg (s : State) : Host.Outcome State Fault Refusal :=
  .next (match s.ev with
    | .mrg line v fe l m => s.doMrg line v fe l m
    | _ => s)
def execWback (s : State) : Host.Outcome State Fault Refusal :=
  .next (match s.ev with
    | .wback line d => s.doWback line d
    | _ => s)
def execCmp (s : State) : Host.Outcome State Fault Refusal :=
  .next (match s.ev with
    | .cmp line => s.doCmp line
    | _ => s)
def execHostPortRead (s : State) : Host.Outcome State Fault Refusal :=
  .next (match s.ev with
    | .hostPortRead p a n id t => s.doHostPortRead p a n id t
    | _ => s)
def execHostPortWrite (s : State) : Host.Outcome State Fault Refusal :=
  .next (match s.ev with
    | .hostPortWrite p a b r t => s.doHostPortWrite p a b r t
    | _ => s)
def execLineStep (s : State) : Host.Outcome State Fault Refusal :=
  .next (match s.ev with
    | .lineStep line op c b => s.dirRequest line (.lineStep op c b) ordDir (.lineStep line op c b)
    | _ => s)
def execAccumJoin (s : State) : Host.Outcome State Fault Refusal :=
  .next (match s.ev with
    | .accumJoin k line t => s.doAccumJoin k line t
    | _ => s)
def execAccumGrant (s : State) : Host.Outcome State Fault Refusal :=
  .next (match s.ev with
    | .accumGrant k line t => s.doAccumGrant k line t
    | _ => s)
def execPartialEvict (s : State) : Host.Outcome State Fault Refusal :=
  .next (match s.ev with
    | .partialEvict k line => s.doPartialEvict k line
    | _ => s)
def execCoreRecall (s : State) : Host.Outcome State Fault Refusal :=
  .next (match s.ev with
    | .coreRecall k line b none => s.doCoreRecall k line b
    | .coreRecall k line b (some p) => s.doRecallAnswer k line b p
    | _ => s)

/-- The region is outside the device. -/
def Region.outside : Region → Bool
  | .host _ => true
  | .peer _ => true
  | _ => false

/-- An access to a peer to which no route leads ends at once: a store is acknowledged, and anything else takes free bytes
(R430, R445; log entry 63). -/
def State.peerAbsent (s : State) (r : Req) : State :=
  let a := s.freeBytes 8
  match r.op with
  | .store => r.pieces.foldl (fun s _ => s.later 1 ordAck (.storeAcknowledgement r.who r.id { bank := true })) s
  | _ =>
    let v := opResult r.op (BitVec.ofNat 64 (leNat (a.2.take (r.pieces.map (·.len)).sum)))
    if r.posted then a.1.later 1 ordAck (.storeAcknowledgement r.who r.id { bank := true })
    else a.1.later 1 ordReply (.replyArrival r.who { id := r.id, rd := r.rd, wr := opReturns r.op, val := v, did := opWrites r.op })

/-- An access to an external window leaves the device, in as many requests as it has lines. The answer comes from outside
(R445; log entry 9). An atomic for a peer carries its context and its replay-safe number (R412). -/
def State.external (s : State) (r : Req) : State :=
  let core := 4096 * s.dev.chip.toNat + coreOf r.who
  let gone : Bool := match s.region (r.pieces.headD {}).pa with
    | .peer k => (s.portFor core (4096 * s.peerChip k) 0).isNone
    | _ => false
  if gone then s.peerAbsent r
  else
    (r.pieces.foldl (fun (a : State × Nat) p =>
      let s := a.1
      let bytes := ((leBytes 8 r.val.toNat).drop a.2).take p.len
      (match s.region p.pa, r.op with
      | .host port, .load _ => s.send (.hostLoad port p.pa p.len r.id)
      | .host port, .store => s.send (.hostStore port p.pa bytes)
      | .host port, .fx fn => s.send (.hostAtomic port fn p.pa r.val r.cmp r.id)
      | .peer k, .load _ => s.linkOut core (s.peerChip k) r.id (.load p.pa p.len r.id) (some r)
      | .peer k, .store => s.linkOut core (s.peerChip k) r.id (.store p.pa bytes r.id) (some r)
      | .peer k, .fx fn =>
        s.linkOut core (s.peerChip k) r.id (.atomic (s.ctxNumber r.who) r.num fn p.pa r.val r.cmp r.id) (some r)
      | _, _ => s, a.2 + p.len)) (s, 0)).1

/-- A store or atomic at its home slice; one of a twill pair for an external window leaves the device here (R333, R423). -/
def State.doHomeStore (s : State) (r : Req) : State :=
  if (s.region (r.pieces.headD {}).pa).outside then s.external r else s.arriveHome r

def execHomeStore (s : State) : Host.Outcome State Fault Refusal :=
  .next (match s.ev with
    | .homeStore r => s.doHomeStore r
    | _ => s)
def execServingSliceLoad (s : State) : Host.Outcome State Fault Refusal :=
  .next (match s.ev with
    | .servingSliceLoad r => s.doServingSliceLoad r
    | _ => s)
def execSliceAtomicOp (s : State) : Host.Outcome State Fault Refusal :=
  .next (match s.ev with
    | .sliceAtomicOp r => s.doSliceAtomicOp r
    | _ => s)
def execRouterMerge (s : State) : Host.Outcome State Fault Refusal :=
  .next (match s.ev with
    | .routerMerge a b => s.doRouterMerge a b
    | _ => s)
/-- CT_TICK: every core of the die adds 1 to its logical time (R331). -/
def State.doCtTick (s : State) (die : Nat) : State :=
  { s with dev := if die = 0 then { s.dev with tick0 := s.dev.tick0 + 1 } else { s.dev with tick1 := s.dev.tick1 + 1 } }

def execCtTick (s : State) : Host.Outcome State Fault Refusal :=
  .next (match s.ev with
    | .ctTick d => s.doCtTick d
    | _ => s)

end Sys2Proof.Machine
end

