-- ==== Sys2Proof/Machine/Translate.lean ====
section
/-!
DEFINITION. Address translation (R300 to R307, R311): the walk of a slot's tables, the TLBs, walkers, translation faults,
and the coherent reads and writes of units that keep no lease: walkers, engines and records (log entry 10).
-/

namespace Sys2Proof.Machine

/-! Coherent accesses of units that keep no lease (R295, R305). -/

/-- The latest value of a line of HBM4 with its full-empty bits: the home's copy, or the memory-side slice's, with the
partials of a line in A folded in (R63). -/
def State.latest (s : State) (line : Nat) : LineData × BitVec 16 :=
  let x := s.line line
  let h := s.home line
  if h.readable ∨ h.st = .miW then (h.data, h.fe)
  else
    let (v, fe) := s.memSide line
    if x.st = .a then
      let part (d : Nat) : List Partial := if x.sh d then
          (s.sl line d).sp :: ((List.range 2048).filterMap (fun i => match s.l1 (2048 * d + i) line with
            | some y => if y.st = L1State.a then some y.part else none
            | none => none))
        else []
      ((foldLists x.tag v (part 0 ++ part 1)).1, fe)
    else (v, fe)

/-- Bytes read at device scope (R305). -/
def State.cohRead (s : State) (pa n : Nat) : List Byte :=
  if pa < hbmBytes then
    (List.range ((pa % 128 + n + 127) / 128)).flatMap (fun i =>
      let line := lineOf pa + i
      let lo := max pa (128 * line)
      let hi := min (pa + n) (128 * line + 128)
      if s.lentAway lo then List.replicate (hi - lo) 0 else LineData.bytes (s.latest line).1 (lo % 128) (hi - lo))
  else Memory.read s.mem pa n
/-- Eight bytes read at device scope. -/
def State.cohRead8 (s : State) (pa : Nat) : W64 := BitVec.ofNat 64 (leNat (s.cohRead pa 8))
/-- The word at an address is full, as read at device scope. -/
def State.cohFull (s : State) (pa : Nat) : Bool :=
  if pa < hbmBytes then (s.latest (lineOf pa)).2.getLsbD (pa % 128 / 8) else !s.isEmpty (pa / 8)

/-- The write timestamp of the latest value of a line. -/
def State.latestWts (s : State) (pa : Nat) : W64 :=
  if pa < hbmBytes then (if (s.home (lineOf pa)).readable then (s.home (lineOf pa)).wts else (s.line (lineOf pa)).wts) else 0

/-- A copy in an L1 has been overtaken: its line has been written since the lease was granted, or GADDs combine into it (R324). -/
def State.overtaken (s : State) (line : Nat) (wts : W64) : Bool := wts.ult (s.latestWts (128 * line)) || (s.line line).st == .a

/-- Copies in an L1 that a later write has overtaken go, and so do fills on their way: an acquire whose message carries no
timestamp leaves no older value to read (R317, R320; log entry 16). -/
def State.dropStale (s : State) (k : CoreId) : State :=
  s.setCore k { s.core k with
    dropAt := s.cycle
    l1 := (s.core k).l1.filter (fun e => e.2.st != L1State.v || !s.overtaken e.1 e.2.wts) }

/-- Nothing about a line is on its way between its slices and its directory. -/
def State.lineQuiet (s : State) (line : Nat) : Bool :=
  let x := s.line line
  let q (y : SlLine) : Bool := (y.readable || y.st == .i) && y.ask == 0 && y.fillAt == 0
  x.txn.isNone && x.queue.isEmpty && x.st != .a && q x.s0 && q x.s1
/-- Lines of a run of bytes. -/
def linesOf (pa n : Nat) : List Nat := (List.range ((pa % 128 + n + 127) / 128)).map (lineOf pa + ·)
/-- Every line of a run of HBM4 bytes is quiet, and in scratchpad every bank has a turn left in this cycle (R291). A line in the
accumulate state is not ready: it is merged first (R339). -/
def State.cohReady (s : State) (pa n : Nat) : Bool :=
  (linesOf pa n).all (fun l => if pa < hbmBytes then s.lineQuiet l || s.lentAway (128 * l) else s.bankFree (128 * l))

/-- A unit's access to a line in the accumulate state, which has nothing out for it yet, starts its merge by an RDS of the home
slice (R338, R339). -/
def State.mergeLine (s : State) (line : Nat) : State :=
  let h := homeDie line
  let x := s.sl line h
  if (s.line line).st = .a ∧ x.ask = 0 ∧ x.fillAt = 0 ∧ (x.st = .a ∨ x.st = .i) ∧ !s.lentAway (128 * line) then
    (s.setSl line h { x with ask := 1, st := if x.st = .a then .a else .isD }).toDir h (.rds line h 0)
  else s
/-- What a unit that must wait for a run of bytes sets off. -/
def State.nudge (s : State) (pa n : Nat) : State :=
  if pa < hbmBytes then (linesOf pa n).foldl State.mergeLine s else s
/-- A unit's access to a run of bytes takes the turns of the banks it meets (R291). -/
def State.takeTurns (s : State) (pa n : Nat) : State := (linesOf pa n).foldl (fun s l => s.useBank (128 * l)) s
/-- A read at the home by a unit without a logical time of its own keeps every later write of the line above each time given so
far (R332; log entry 16). -/
def State.markRead (s : State) (pa n : Nat) : State :=
  if pa < hbmBytes then
    (linesOf pa n).foldl (fun s l =>
      let x := s.line l
      let s := s.setLine l { x with maxRts := maxTs x.maxRts s.dev.topTs, rts := maxTs x.rts s.dev.topTs }
      let h := s.home l
      s.setSl l (homeDie l) { h with rts := maxTs h.rts s.dev.topTs }) s
  else s.takeTurns pa n

/-- The home takes a quiet line in M as one step, and the partner's copy goes (R347). -/
def State.takeM (s : State) (line : Nat) : State :=
  let x := s.line line
  let h := homeDie line
  if x.st = .m ∧ (x.sl h).st = .m then s
  else
    let (d, fe) := s.latest line
    let mx := [x.s0.rts, x.s1.rts].foldl (fun (a b : W64) => if a.ult b then b else a) x.maxRts
    let gone (y : SlLine) : SlLine := { y with st := .i, sp := {}, holders := 0 }
    let y := { x with st := .m, sh0 := false, sh1 := false, maxRts := mx, s0 := gone x.s0, s1 := gone x.s1 }
    s.setLine line (y.setSl h { y.sl h with st := .m, data := d, fe := fe, rts := mx, wts := if mx.ult x.wts then x.wts else mx })

/-- Bytes written at device scope as one step on a quiet line, or at a bank (R333, R291). The writer is a unit whose place in the
order of the line is above every time given so far (log entry 16). -/
def State.cohWrite1 (s : State) (pa : Nat) (bs : List Byte) (ct : W64) (who : Option CtxId) : State :=
  if s.lentAway pa then s.violate pa
  else
  let s := if pa < hbmBytes then s.takeM (lineOf pa) else s.useBank pa
  (((s.pointWrite pa bs).stamp pa (maxTs ct s.dev.topTs)).1).written pa bs.length who

/-- Split a run of bytes at line boundaries. -/
def splitLines (pa : Nat) (n : Nat) : List Piece :=
  (List.range ((pa % 128 + n + 127) / 128)).map (fun i =>
    let lo := max pa (128 * (lineOf pa + i))
    { pa := lo, len := min (pa + n) (128 * (lineOf pa + i) + 128) - lo })

/-- A run of bytes written at device scope, line by line (R31). -/
def State.cohWrite (s : State) (pa : Nat) (bs : List Byte) (ct : W64) (who : Option CtxId) : State :=
  (splitLines pa bs.length).foldl (fun s p => s.cohWrite1 p.pa ((bs.drop (p.pa - pa)).take p.len) ct who) s

/-- Set the full-empty bit of a word at device scope. -/
def State.cohSetFull (s : State) (pa : Nat) (full : Bool) : State :=
  if s.lentAway pa then s
  else
  let s := if pa < hbmBytes then s.takeM (lineOf pa) else s
  (s.pointSetFull pa full).settleWord (pa / 8)

/-- A run of bytes written at device scope at a logical time by an agent whose whole 8-byte words become full (R298). -/
def State.cohPutAt (s : State) (pa : Nat) (bs : List Byte) (ct : W64) : State :=
  let s := s.cohWrite pa bs ct none
  ((wordsOf pa bs.length).filter (fun w => pa ≤ 8 * w && 8 * w + 8 ≤ pa + bs.length)).foldl (fun s w => s.cohSetFull (8 * w) true) s

/-- As cohPutAt, with no logical time of its own. -/
def State.cohPut (s : State) (pa : Nat) (bs : List Byte) : State := s.cohPutAt pa bs 0

/-! Page tables (R303, R306). -/

/-- Fault classes of R306. -/
def clsNomap : BitVec 8 := 1
/-- NOPERM. -/
def clsNoperm : BitVec 8 := 2
/-- USER. -/
def clsUser : BitVec 8 := 3
/-- BADPTE. -/
def clsBadpte : BitVec 8 := 4
/-- NOPA. -/
def clsNopa : BitVec 8 := 5
/-- BSWIN. -/
def clsBswin : BitVec 8 := 6

/-- VA[63:48] are all equal to VA[47] (R303). -/
def canonical (va : W64) : Bool := (va.toInt >>> 47) == 0 || (va.toInt >>> 47) == -1

/-- Bytes mapped by a leaf of a level: 1 GiB, 2 MiB, 64 KiB. -/
def levelSize (level : Nat) : Nat := if level = 1 then 2 ^ 30 else if level = 2 then 2 ^ 21 else 2 ^ 16
/-- Index into a level's table. -/
def levelIndex (level : Nat) (va : Nat) : Nat :=
  match level with
  | 0 => va / 2 ^ 39 % 512
  | 1 => va / 2 ^ 30 % 512
  | 2 => va / 2 ^ 21 % 512
  | _ => va / 2 ^ 16 % 32

/-- Where a walk ended: a leaf with its entry's address, or a class (R306). -/
structure WalkResult where
  ent   : Option TlbEnt := none
  leaf  : Nat := 0
  cls   : BitVec 8 := 0

/-- The address field of an entry. -/
def ppnOf (e : W64) : Nat := e.toNat / 256 % 2 ^ 44 * 256

/-- What an entry of a level says. -/
inductive LevelEnd where
  | fail (cls : BitVec 8)
  | table (pa : Nat)
  | leaf (e : TlbEnt)

/-- An entry of a level, checked in the order of R306; n is how many bytes of HBM4 there are. -/
def levelEnd (n : Nat) (slot : BitVec 4) (va level : Nat) (e : W64) : LevelEnd :=
  let isLeaf := e.getLsbD 1
  if !e.getLsbD 0 then .fail clsNomap
  else if e.toNat / 2 ^ 52 ≠ 0 ∨ (isLeaf ∧ level = 0) ∨ (!isLeaf ∧ level = 3)
      ∨ (!isLeaf ∧ e.toNat / 4 % 64 ≠ 0)
      ∨ (!isLeaf ∧ level < 2 ∧ ppnOf e % 4096 ≠ 0)
      ∨ (isLeaf ∧ ppnOf e % levelSize level ≠ 0) then .fail clsBadpte
  else if isLeaf then .leaf {
    slot := slot, va := va / levelSize level * levelSize level, pa := ppnOf e
    size := if level = 1 then 2 else if level = 2 then 1 else 0
    d := e.getLsbD 7, mig := e.getLsbD 6, u := e.getLsbD 5, x := e.getLsbD 4, w := e.getLsbD 3, r := e.getLsbD 2 }
  else if ppnOf e ≥ n then .fail clsNopa
  else .table (ppnOf e)

/-- Read the entries of a walk from a level's table, checking each in the order of R306. -/
def State.walkFrom (s : State) (slot : BitVec 4) (va : Nat) : Nat → Nat → Nat → WalkResult
  | 0, _, _ => { cls := clsNomap }
  | fuel + 1, level, table =>
    let pa := table + 8 * levelIndex level va
    match levelEnd s.hbmLen slot va level (s.cohRead8 pa) with
    | .fail k => { cls := k }
    | .leaf e => { leaf := pa, ent := some e }
    | .table t => s.walkFrom slot va fuel (level + 1) t

/-- The walk of a virtual address in a slot's space, from its root (R300, R303, R306). -/
def State.walk (s : State) (slot : BitVec 4) (va : W64) : WalkResult :=
  let (en, root) := s.dev.asroot.getD slot.toNat (false, 0)
  if !canonical va ∨ !en then { cls := clsNomap }
  else if 4096 * root.toNat ≥ s.hbmLen then { cls := clsNopa }
  else s.walkFrom slot (va.toNat % 2 ^ 48) 4 0 (4096 * root.toNat)

/-! TLBs (R305). -/

/-- Bytes that an entry's page has. -/
def TlbEnt.bytes (e : TlbEnt) : Nat := if e.size = 2 then 2 ^ 30 else if e.size = 1 then 2 ^ 21 else 2 ^ 16
/-- The entry maps an address of a slot. -/
def TlbEnt.maps (e : TlbEnt) (slot : BitVec 4) (va : Nat) : Bool :=
  e.slot == slot && e.va ≤ va % 2 ^ 48 && va % 2 ^ 48 < e.va + e.bytes
/-- Physical address of a byte of the page. -/
def TlbEnt.phys (e : TlbEnt) (va : Nat) : Nat := e.pa + va % e.bytes

/-- Install an entry in a TLB of n entries; the entry that goes when it is full is a free value (R305; log entry 8). -/
def installTlb (n draw : Nat) (e : TlbEnt) (l : List TlbEnt) : List TlbEnt :=
  let l := l.filter (fun x => !(x.slot == e.slot && x.va == e.va && x.size == e.size))
  if l.length < n then l ++ [e] else l.eraseIdx (Config.freeVictim draw % l.length) ++ [e]

/-- Install in a core TLB. -/
def State.fillCore (s : State) (k : CoreId) (e : TlbEnt) : State :=
  let n := (s.core k).tlb.length
  let s := s.setCore k { s.core k with tlb := installTlb 64 s.draws e (s.core k).tlb }
  if n < 64 then s else { s with draws := s.draws + 1 }
/-- Install in a cluster TLB. -/
def State.fillCluster (s : State) (k : ClusterId) (e : TlbEnt) : State :=
  let n := (s.cluster k).tlb.length
  let s := s.setCluster k { s.cluster k with tlb := installTlb 4096 s.draws e (s.cluster k).tlb }
  if n < 4096 then s else { s with draws := s.draws + 1 }

/-- Job slot of a context: STSLOT for a steward (R302). -/
def State.slotOf (s : State) (c : CtxId) : BitVec 4 :=
  if isSteward c then (s.core (coreOf c)).stslot else (s.ctx c).slot
/-- Privilege of a context: the steward is always privileged (R24). -/
def State.privOf (s : State) (c : CtxId) : Bool := isSteward c || (s.ctx c).priv

/-- Permissions that an access needs (R306). -/
inductive Need where
  | r | w | rw | x
  /-- LDFE and LDFF: R and W, without the dirty request of R304. -/
  | fe
  deriving DecidableEq, Repr

/-- The access needs W, so it sets D (R304). -/
def Need.dirties : Need → Bool
  | .w => true
  | .rw => true
  | _ => false
/-- KIND of TFLT (R307). -/
def Need.kind : Need → BitVec 2
  | .r => 0
  | .x => 2
  | _ => 1

/-- The checks of a leaf on one byte, in the order of R306; class 0 passes. -/
def State.checkLeaf (s : State) (e : TlbEnt) (priv : Bool) (need : Need) (pa : Nat) : BitVec 8 :=
  let reg := s.region pa
  let perm := match need with
    | .r => e.r
    | .w => e.w
    | .rw => e.r && e.w
    | .fe => e.r && e.w
    | .x => e.x
  if reg = .none then clsNopa
  else if !priv && !e.u then clsUser
  else if !perm then clsNoperm
  else match reg with
    | .bstore _ _ => clsBswin
    | _ => 0

/-- What a look-up of the TLBs gives an access. -/
inductive Look where
  | hit (pa : Nat) (e : TlbEnt)
  | fault (cls : BitVec 8)
  /-- In the cluster TLB only. -/
  | near (e : TlbEnt)
  | miss
  /-- The page's D is 0 and the access writes (R304). -/
  | clean

/-- Page number of the walkers (VA[47:16]). -/
def pageOf (va : W64) : Nat := va.toNat % 2 ^ 48 / 2 ^ 16

/-- Where a context's translation of an address is. -/
inductive Found where
  | core (e : TlbEnt)
  | near (e : TlbEnt)
  /-- No walk is needed: the address cannot be mapped, or the walk that the context waited for has failed. -/
  | failed (cls : BitVec 8)
  | miss

/-- The TLBs in the order of R305, and what the context's latest walk left. -/
def State.found (s : State) (c : CtxId) (va : W64) : Found :=
  let slot := s.slotOf c
  if !canonical va then .failed clsNomap
  else
    match (s.core (coreOf c)).tlb.find? (fun e => e.maps slot va.toNat) with
    | some e => .core e
    | none =>
      match (s.cluster (clusterOf c)).tlb.find? (fun e => e.maps slot va.toNat) with
      | some e => .near e
      | none =>
        match (s.ctx c).walked with
        | some (p, k) => if p = pageOf va then .failed (k.setWidth 8) else .miss
        | none => if (s.dev.asroot.getD slot.toNat (false, 0)).1 then .miss else .failed clsNomap

/-- Look an address up for a context (R305, R306). -/
def State.look (s : State) (c : CtxId) (va : W64) (need : Need) : Look :=
  match s.found c va with
  | .core e =>
    let pa := e.phys va.toNat
    let k := s.checkLeaf e (s.privOf c) need pa
    if k ≠ 0 then .fault k
    else if need.dirties && !e.d then
      -- a dirty walk that has failed has found the entry changed since the TLB took it (R304)
      match (s.ctx c).walked with
      | some (p, k) => if p = pageOf va then .fault (k.setWidth 8) else .clean
      | none => .clean
    else .hit pa e
  | .near e => .near e
  | .failed k => .fault k
  | .miss => .miss

/-- The walker of an address (R305). -/
def walkerOf (slot : BitVec 4) (va : W64) : SliceId :=
  let v := va.toNat % 2 ^ 48
  Nat.xor (Nat.xor (Nat.xor (Nat.xor (v / 2 ^ 21 % 128) (v / 2 ^ 28 % 128)) (v / 2 ^ 35 % 128)) (v / 2 ^ 42)) slot.toNat

/-- The context sends a walk request and waits (R305). -/
def State.askWalk (s : State) (c : CtxId) (va : W64) (dirty fetch : Bool) : State :=
  let slot := s.slotOf c
  let w := walkerOf slot va
  ((s.setCtx c { s.ctx c with walked := none }).wait c (.walk fetch)).later (s.toSlice (clusterOf c) w) ordLate (.walkRequest w c slot va dirty)

/-- A walk leaves its walker: its result, a leaf or a class, goes to each requester, whose TLBs take a leaf as it arrives, and the
next queued walk starts. The results of a walk that a TLBINV has reached are installed nowhere (R305, R311). -/
def State.endWalk (s : State) (w : SliceId) (q : WalkReq) (res : Except (BitVec 8) TlbEnt) (next : State → WalkReq → State) : State :=
  let s := s.setSlice w { s.slice w with walks := (s.slice w).walks.filter (fun x => x.no != q.no) }
  let s := if q.void then s
    else match res with
      | .ok e => q.who.foldl (fun s c => s.setCtx c { s.ctx c with leaf := some e }) s
      | .error k => q.who.foldl (fun s c => s.setCtx c { s.ctx c with walked := some (q.page, k.setWidth 4) }) s
  let s := q.who.foldl (fun s c => s.later (s.toSlice (clusterOf c) w) ordReply (.replyArrival c { adv := false })) s
  match (s.slice w).walkQ with
  | [] => s
  | n :: rest => next (s.setSlice w { s.slice w with walkQ := rest }) n

/-- The walker reads a level's entry by a load at its die's serving slice (R305). -/
def State.readEntry (s : State) (w : SliceId) (q : WalkReq) : State :=
  s.later (walkerWay w (servingOf (w / 64) (lineOf q.entry))) ordLate (.servingSliceLoad
    { op := .load 6, pieces := [{ pa := q.entry, len := 8 }], posted := true, via := .walk w q.no })

/-- The walker sets D by one FXOR at the entry's home (R304). -/
def State.setEntryD (s : State) (w : SliceId) (q : WalkReq) : State :=
  s.later (walkerWay w (homeOf (lineOf q.entry))) ordLate (.homeStore
    { op := .fx 5, pieces := [{ pa := q.entry, len := 8 }], val := 0x80, posted := true, via := .walk w q.no })

/-- A walk starts at its walker with the root of its slot, or fails there at once; up to n walks that wait then start too
(R300, R301, R305). -/
def State.startWalk (s : State) (w : SliceId) (q : WalkReq) : Nat → State
  | 0 => s
  | n + 1 =>
    let (en, root) := s.dev.asroot.getD q.slot.toNat (false, 0)
    let q := { q with started := true, no := s.token, entry := 4096 * root.toNat + 8 * levelIndex 0 (q.page * 2 ^ 16) }
    let s := s.tick1.setSlice w { s.slice w with walks := (s.slice w).walks ++ [q] }
    if !en then s.endWalk w q (.error clsNomap) (fun s q => s.startWalk w q n)
    else if 4096 * root.toNat ≥ s.hbmLen then s.endWalk w q (.error clsNopa) (fun s q => s.startWalk w q n)
    else s.readEntry w q

/-- A walk request joins a walk in flight of its slot and page, starts one, or queues in arrival order; a full queue sends it back
(R305). A dirty request that has joined a walk without one asks again with the result. -/
def State.doWalkRequest (s : State) (w : SliceId) (c : CtxId) (slot : BitVec 4) (va : W64) (dirty : Bool) : State :=
  let x := s.slice w
  let same (q : WalkReq) : Bool := q.slot == slot && q.page == pageOf va && !q.void && q.who.length < 64
  if x.walks.any same then
    s.setSlice w { x with walks := x.walks.map (fun q => if same q then { q with who := q.who ++ [c] } else q) }
  else
    let q : WalkReq := { slot := slot, page := pageOf va, dirty := dirty, who := [c] }
    if x.walks.length < 32 then s.startWalk w q (x.walkQ.length + 1)
    else if x.walkQ.length < 512 then s.setSlice w { x with walkQ := x.walkQ ++ [q] }
    else s.later 256 ordLate (.walkResend w c slot va dirty)

/-- A request that found the queue full is sent again (R305). -/
def State.doWalkResend (s : State) (w : SliceId) (c : CtxId) (slot : BitVec 4) (va : W64) (dirty : Bool) : State :=
  s.doWalkRequest w c slot va dirty

/-- An entry has reached its walker, or D has been set: the walk goes on at the next level, sets D, or ends (R304 to R306,
R311). -/
def State.doWalkComplete (s : State) (w : SliceId) (no : Nat) (entry : W64) : State :=
  match (s.slice w).walks.find? (fun q => q.no == no) with
  | none => s
  | some q =>
    let finish (s : State) (r : Except (BitVec 8) TlbEnt) : State :=
      s.endWalk w q r (fun s n => s.startWalk w n ((s.slice w).walkQ.length + 1))
    let again (s : State) (p : WalkReq) : State :=
      s.setSlice w { s.slice w with walks := (s.slice w).walks.map (fun x => if x.no == no then p else x) }
    match q.ent with
    | some e => finish s (.ok { e with d := true })
    | none =>
      match levelEnd s.hbmLen q.slot (q.page * 2 ^ 16) q.level entry with
      | .fail k => finish s (.error k)
      | .table t =>
        let p := { q with level := q.level + 1, entry := t + 8 * levelIndex (q.level + 1) (q.page * 2 ^ 16) }
        (again s p).readEntry w p
      | .leaf e => if q.dirty && !q.void then (again s { q with ent := some e }).setEntryD w q else finish s (.ok e)

/-! Translation faults (R306, R307). -/

/-- A translation fault of a context: NOMAP parks it for the steward, or traps in a steward; any other class is an exact
trap (R306, R307). -/
def State.tfault (s : State) (c : CtxId) (kind : BitVec 2) (va : W64) (cls : BitVec 8) : State :=
  let x := { s.ctx c with walked := none }
  let s := s.setCtx c x
  if cls = clsNomap ∧ !isSteward c then
    let k := coreOf c
    let s := (s.park c .parked .tfault).watch c
    let s := s.setCore k { s.core k with tfQ := (s.core k).tfQ ++ [{ ctx := ctxNo c, slot := s.slotOf c, kind := kind, va := va }] }
    s.stewardEvent k
  else s.takeTrap c { cause := causeTrans, cls := cls, tia := x.pc, tepc := x.pc, tval := va }

/-- The context waits for 4 cycles, and its core TLB then takes an entry of the cluster TLB (R305). -/
def State.nearFill (s : State) (c : CtxId) (e : TlbEnt) (fetch : Bool) : State :=
  let id := s.token
  ((s.tick1.setCtx c { s.ctx c with leaf := some e }).wait c (.reply id)).later 4 ordReply (.replyArrival c { id := id, adv := false, go := some fetch })

/-- The twin of a context has the translation too; where it has not, the context tries again in its next slot, so that the two
send their requests together (R423). -/
def State.twinFinds (s : State) (c : CtxId) (va : W64) (need : Need) : Bool :=
  match s.twin c with
  | none => true
  | some c2 => match s.look c2 va need with
    | .miss => false
    | .clean => false
    | _ => true

/-- Translate one byte for an access of the running context, and go on with its physical address; a miss waits for a walk, a
fault is taken (R121, R305). -/
def State.translate (s : State) (va : W64) (need : Need) (k : State → Nat → TlbEnt → State) : State :=
  let c := s.cur
  match s.look c va need with
  | .hit pa e => if s.twinFinds c va need then k s pa e else s
  | .fault cls => s.tfault c need.kind va cls
  | .near e => s.nearFill c e (need == .x)
  | .miss => s.askWalk c va false (need == .x)
  | .clean => s.askWalk c va true false

/-- Translate a run of at most two pages, lower page first, into physical pieces by line (R31). -/
def State.translateRun (s : State) (va : W64) (n : Nat) (need : Need) (k : State → List Piece → TlbEnt → State) : State :=
  let first := min n (2 ^ 16 - va.toNat % 2 ^ 16)
  s.translate va need (fun s pa e =>
    if n ≤ first then k s (splitLines pa n) e
    else s.translate (va + BitVec.ofNat 64 first) need (fun s pb _ =>
      k s (splitLines pa first ++ splitLines pb (n - first)) e))

/-- Translate at once, with the walk done in place and its result installed: the look-ups of range instructions, ATRANS,
records and engines (R310, R312; log entry 10). Answers the address or the class. -/
def State.translateNow (s : State) (slot : BitVec 4) (priv : Bool) (va : W64) (need : Need) : Except (BitVec 8) (Nat × TlbEnt) :=
  match (s.walk slot va).ent with
  | none => .error (s.walk slot va).cls
  | some e =>
    let pa := e.phys va.toNat
    let k := s.checkLeaf e priv need pa
    if k ≠ 0 then .error k else .ok (pa, e)

/-- As translateNow for a context: through its TLBs first (R310, R312). -/
def State.translateCtx (s : State) (c : CtxId) (va : W64) (need : Need) : State × Except (BitVec 8) (Nat × TlbEnt) :=
  let slot := s.slotOf c
  if !canonical va then (s, .error clsNomap)
  else
    let look := ((s.core (coreOf c)).tlb.find? (fun e => e.maps slot va.toNat)).orElse
      (fun _ => (s.cluster (clusterOf c)).tlb.find? (fun e => e.maps slot va.toNat))
    let res := match look with
      | some e => Except.ok e
      | none => match (s.walk slot va).ent with
        | some e => .ok e
        | none => .error (s.walk slot va).cls
    match res with
    | .error k => (s, .error k)
    | .ok e =>
      let pa := e.phys va.toNat
      let k := s.checkLeaf e (s.privOf c) need pa
      if k ≠ 0 then (s, .error k)
      else ((s.fillCluster (clusterOf c) e).fillCore (coreOf c) e, .ok (pa, e))

/-- The leaf of an address can take D in this cycle (R304). -/
def State.dirtyReady (s : State) (slot : BitVec 4) (va : W64) : Bool := s.cohReady (s.walk slot va).leaf 8
/-- What a unit that must wait for the leaf of an address sets off (R339). -/
def State.nudgeLeaf (s : State) (slot : BitVec 4) (va : W64) : State := s.nudge (s.walk slot va).leaf 8
/-- A write through translation by a unit or a remote agent sets D in the leaf (R304, R452). -/
def State.setDirty (s : State) (slot : BitVec 4) (va : W64) : State :=
  let r := s.walk slot va
  match r.ent with
  | some e => if e.d then s else s.cohWrite1 r.leaf (leBytes 8 (s.cohRead8 r.leaf ||| 0x80).toNat) 0 none
  | none => s

/-! Rows that share a word: the operation is named by a register (R382, R393, R408, R419, R422, R449). -/

/-- The row that FREC's OP names (R408); a value with no row keeps the first, whose meaning answers BADOP. -/
def frecRow (op : Nat) (d a b : BitVec 4) : Instr :=
  match op with
  | 1 => .frecSkip d a b
  | 2 => .frecGoto d a b
  | 4 => .frecSave d a b
  | 5 => .frecLoad d a b
  | 8 => .frecLresume d a b
  | 9 => .frecLdrop d a b
  | 10 => .frecLend d a b
  | 11 => .frecLring d a b
  | 12 => .frecGpre d a b
  | 13 => .frecGrest d a b
  | _ => .frecResume d a b

/-- The row of a decoded instruction, by the register that names its operation. -/
def State.refine (s : State) (i : Instr) : Instr :=
  match i with
  | .tgdone d a b => if (s.rd b).getLsbD 0 then .tgdoneRequeue d a b else i
  | .wbind d a b => if (s.rd b).getLsbD 0 then .wbindUnbind d a b else i
  | .rlendLend d a b =>
    match ((s.rd b).extractLsb' 0 2).toNat with
    | 1 => .rlendRecall d a b
    | 2 => .rlendQuery d a b
    | _ => i
  | .ckptArm d a =>
    match ((s.rd a).extractLsb' 0 2).toNat with
    | 1 => .ckptDisarm d a
    | 2 => .ckptQuery d a
    | _ => i
  | .twilCouple d a => if (s.rd a).getLsbD 4 then i else .twilUncouple d a
  | .frecResume d a b => frecRow ((s.rd a).extractLsb' 0 4).toNat d a b
  | _ => i

/-! Fetch (R33, R474). -/

/-- Word k of a line. -/
def LineData.word (d : LineData) (k : Nat) : W32 := d.extractLsb' (32 * (k % 32)) 32

/-- Cycles that a line takes to be read from a core (R297, R474). -/
def State.fetchTime (s : State) (c : CtxId) (pa : Nat) : Nat :=
  match s.region pa with
  | .scratch cl _ => 2 * s.toBank (clusterOf c) cl
  | _ =>
    let line := lineOf pa
    let die := dieOf c
    2 * s.toSlice (clusterOf c) (servingOf die line)
      + (if (s.sl line die).readable then 0 else 80 + (if (s.line line).msc.isSome then 0 else 180))

/-- A fetch that misses leaves the rotation until its line arrives; a line of HBM4 is read as a load reads it (R474). -/
def State.fetchMiss (s : State) (c : CtxId) (pa : Nat) : State :=
  let s := s.wait c .fetch
  let line := lineOf pa
  match s.region pa with
  | .host port => s.send (.hostLoad port (128 * line) 128 c)
  | .peer k =>
    let core := 4096 * s.dev.chip.toNat + coreOf c
    if (s.portFor core (4096 * s.peerChip k) 0).isNone then
      let a := s.freeBytes 128
      a.1.later 1 ordReply (.fetchMissFill c line (BitVec.ofNat 1024 (leNat a.2)))
    else s.tick1.linkOut core (s.peerChip k) s.token (.load (128 * line) 128 c)
  | .hbm => s.sendLoad { who := c, op := .load 6, pieces := [{ pa := 128 * line, len := 8 }], slot := s.slotOf c, via := .fetch }
  | .scratch cl _ => s.later (s.toBank (clusterOf c) cl) (1000 + c) (.bankAccess
      { who := c, op := .load 6, pieces := [{ pa := 128 * line, len := 8 }], slot := s.slotOf c, via := .fetch })
  | _ => s.later 1 ordReply (.fetchMissFill c line 0)

/-- The word at PC, as the core's caches hold it. -/
def State.fetched (s : State) (c : CtxId) (pa : Nat) : Option W32 :=
  ((Tab.find (s.core (coreOf c)).icache (lineOf pa))).map (fun d => LineData.word d (pa / 4))

/-- What waited for its translation goes on in the cycle in which the translation is there: an access is performed, and a fetch
that misses reads its line; a word already in the instruction cache waits for its context's slot (R304, R305, R474). -/
def State.goOn (s : State) (c : CtxId) (fetch : Bool) : State :=
  match s.look c (s.ctx c).pc .x with
  | .hit pa _ =>
    match s.fetched c pa with
    | none => if fetch then s.fetchMiss c pa else s
    | some w =>
      match decodeWord w with
      | some i => if fetch || (s.ctx c).uerr.isSome then s else s.nowFor c 0 (({ s with cur := c } : State).refine i)
      | none => s
  | _ => s

def execWalkRequest (s : State) : Host.Outcome State Fault Refusal :=
  .next (match s.ev with
    | .walkRequest w c slot va d => s.doWalkRequest w c slot va d
    | _ => s)
def execWalkComplete (s : State) : Host.Outcome State Fault Refusal :=
  .next (match s.ev with
    | .walkComplete w no e => s.doWalkComplete w no e
    | _ => s)
def execWalkResend (s : State) : Host.Outcome State Fault Refusal :=
  .next (match s.ev with
    | .walkResend w c slot va d => s.doWalkResend w c slot va d
    | _ => s)

end Sys2Proof.Machine
end

