-- ==== Sys2Proof/Machine/Access.lean ====
section
/-!
DEFINITION. How a grain's accesses leave its core: the port with its twill compare, the holds of program order, store count,
range scoreboard and job footprints, and the requests themselves (R31, R120 to R123, R299, R317, R333, R362, R423).
-/

namespace Sys2Proof.Machine

/-! The port of a core (R423). -/

/-- Put a request's event or instruction on its way. -/
def State.sendTwin (s : State) (c : CtxId) (q : TwinReq) : State :=
  match q.instr with
  | some i => s.schedule (s.cycle + q.delay) q.ord c q.stage i
  | none => s.later q.delay q.ord q.ev

/-- The twill pair that a context belongs to, as its place in the even core's list. -/
def State.setTwill (s : State) (even : CoreId) (n : Nat) (f : Twill → Twill) : State :=
  s.setCore even { s.core even with twills := (s.core even).twills.map (fun t => if t.ctx == n then f t else t) }

/-- A request leaves through the port: at once, or compared with the twin's first (R423). -/
def State.port (s : State) (c : CtxId) (q : TwinReq) : State :=
  match s.twin c with
  | none => s.sendTwin c q
  | some _ =>
    let k := coreOf c
    let even := k - k % 2
    let n := ctxNo c
    let x := s.ctx c
    let q := { q with ia := if x.st = CtxState.waiting then x.pc else x.pc - 4 }
    let s := s.setTwill even n (fun t => if k % 2 = 0 then { t with even := t.even ++ [q] } else { t with odd := t.odd ++ [q] })
    match (s.core even).twills.find? (fun t => t.ctx == n) with
    | some t =>
      if t.even.isEmpty ∨ t.odd.isEmpty then s.later 16 ordLate (.twillTimeout even n q.id)
      else s.soon (.twillCompare even n)
    | none => s

/-! Holds (R122, R123, R299, R317, R333, R362). -/

/-- Two runs of bytes overlap. -/
def overlaps (a n b m : Nat) : Bool := a < b + m && b < a + n

/-- Some byte of some piece lies in some other run. -/
def pieceMeets (p : Piece) (l : List (Nat × Nat)) : Bool := l.any (fun q => overlaps p.pa p.len q.1 q.2)

/-- An access of the running context that R317 orders after an unacknowledged store of it: one class, one byte, or a
release, or a resumption from a trap since (R317, R321, R333). -/
def Ctx.orderedAfterStore (x : Ctx) (cls : BitVec 4) (release : Bool) (ps : List Piece) : Bool :=
  x.pend.any (fun p => release || p.all || (!p.copy && (p.cls == cls || ps.any (fun q => pieceMeets q (p.pieces.map (fun z => (z.pa, z.len)))))))

/-- An access that overlaps a copy of the cluster's range scoreboard: a load its write range, any other either (R299). -/
def State.meetsScoreboard (s : State) (c : CtxId) (isLoad : Bool) (ps : List Piece) : Bool :=
  (s.cluster (clusterOf c)).sb.any (fun b =>
    ps.any (fun p => pieceMeets p ((b.dsts ++ (if isLoad then [] else b.srcs)).map (fun z => (z.pa, z.len)))))

/-- An access that a job of the context not yet retired keeps back (R327, R362). -/
def Ctx.meetsJob (x : Ctx) (isLoad : Bool) (va n : Nat) : Bool :=
  x.jobs.any (fun j => j.fps.any (fun (b, m, _, w) => (w || !isLoad) && overlaps va n b m))

/-- What an access is, before it is sent. -/
structure Acc where
  op     : MemOp
  rd     : BitVec 4 := 0
  va     : W64 := 0
  size   : Nat := 8
  val    : W64 := 0
  cmp    : W64 := 0
  cls    : BitVec 4 := 0
  aq     : Bool := false
  rl     : Bool := false
  posted : Bool := false
  last   : Bool := false
  deriving DecidableEq, Repr

/-- The access is a load for the holds of a job: it writes nothing (R362). -/
def opIsLoad : MemOp → Bool
  | .load _ => true
  | .lr => true
  | .ldff => true
  | .jwait => true
  | _ => false

/-- The access is a load or LR for the range scoreboard; a full-empty form is none (R299). -/
def opIsPlainLoad : MemOp → Bool
  | .load _ => true
  | .lr => true
  | .jwait => true
  | _ => false

/-- The access must wait out of the rotation (R122, R123, R333). -/
def State.mustHold (s : State) (c : CtxId) (a : Acc) (ps : List Piece) : Bool :=
  let x := s.ctx c
  x.orderedAfterStore a.cls a.rl ps || s.meetsScoreboard c (opIsPlainLoad a.op) ps || x.meetsJob (opIsLoad a.op) a.va.toNat a.size
    || (a.posted && 8 ≤ x.pend.length)

/-- Where a request goes first: delay, place in the cycle, and event (R291, R295, R297). -/
def State.route (s : State) (r : Req) : Nat × Nat × Ev :=
  let p := r.pieces.headD {}
  match s.region p.pa with
  | .scratch cl _ =>
    (s.toBank (clusterOf r.who) cl, 1000 + r.who, if opFullEmpty r.op then .fullEmptyAtHome r else .bankAccess r)
  | _ =>
    let line := lineOf p.pa
    match r.op with
    | .load _ => (s.toSlice (clusterOf r.who) (servingOf (loadDie r line) line), ordLate, .servingSliceLoad r)
    | _ => (s.toSlice (clusterOf r.who) (homeOf line), 1000 + r.who,
        if opFullEmpty r.op then .fullEmptyAtHome r else .homeStore r)

/-- A code of an operation, for the compare of twins. -/
def opCode : MemOp → Nat
  | .load fn => fn.toNat
  | .lr => 8
  | .store => 9
  | .put => 60
  | .sc => 10
  | .fx fn => 16 + fn.toNat
  | .ldfe => 32
  | .stfe => 33
  | .ldff => 34
  | .feset b => 35 + b.toNat
  | .gadd t => 40 + t.toNat
  | .join => 56
  | .jwait => 57
  | .topk => 58
  | .binc => 59

/-- What a twill pair compares of a request (R423). -/
def reqSig (r : Req) : List Nat :=
  [opCode r.op, r.va.toNat, (r.pieces.map (·.len)).sum, r.cls.toNat, r.aq.toNat, r.rl.toNat, r.val.toNat, r.cmp.toNat]

/-- A request sent on its way by its context (R423). -/
def State.sendReq (s : State) (r : Req) : State :=
  let (d, o, e) := s.route r
  s.port r.who { sig := reqSig r, id := r.id, delay := d, ord := o, ev := e }

/-- The whole access hits its core's L1 (R332). -/
def State.l1Hits (s : State) (k : CoreId) (ps : List Piece) : Bool :=
  ps.all (fun p => p.pa < hbmBytes && match s.l1 k (lineOf p.pa) with
    | some x => x.st == .v && !x.rts.ult (s.ct k)
    | none => false)

/-- Bytes that an L1 gives, and CT := max(CT, WTS) for each line (R332). -/
def State.l1Load (s : State) (k : CoreId) (ps : List Piece) : State × W64 :=
  let (s, v, _) := ps.foldl (fun (acc : State × W64 × Nat) p =>
    match acc.1.l1 k (lineOf p.pa) with
    | some x =>
      let b : W64 := BitVec.ofNat 64 (leNat (LineData.bytes x.data (p.pa % 128) p.len))
      (acc.1.raiseCt k x.wts, acc.2.1 + b <<< (8 * acc.2.2), acc.2.2 + p.len)
    | none => acc) (s, 0, 0)
  (s, v)

/-- The request of an access. -/
def State.reqOf (s : State) (c : CtxId) (a : Acc) (ps : List Piece) (id : Nat) : Req :=
  let x := s.ctx c
  { id := id, who := c, op := a.op, pieces := ps, va := a.va, val := a.val, cmp := a.cmp, rd := a.rd, posted := a.posted
    cls := a.cls, aq := a.aq, rl := a.rl, ct := s.ct (coreOf c), ia := x.pc, num := x.num, tries := x.feTries
    last := a.last, slot := s.slotOf c, born := x.born.getD s.cycle }

/-- The external window takes the access (R445). -/
def externalOk : Region → MemOp → Bool
  | .host _, .load _ => true
  | .host _, .store => true
  | .host _, .fx fn => fn == 2 || fn == 3 || fn == 11
  | .peer _, .load _ => true
  | .peer _, .store => true
  | .peer _, .fx _ => true
  | _, _ => false

/-- Send an access whose bytes are translated and not held: the context goes on past a posted one and waits for any other
(R122, R123, R180, R188). -/
def State.launchAcc (s : State) (a : Acc) (ps : List Piece) : State :=
  let c := s.cur
  let k := coreOf c
  let id := s.token
  let s := s.tick1
  let p := ps.headD {}
  let r := s.reqOf c a ps id
  let s := if opNumbered a.op then s.setCtx c { s.ctx c with num := (s.ctx c).num + 1 } else s
  let s := if a.posted then
      let x := s.ctx c
      s.setCtx c { x.adv with
        feTries := 0, stay := none, born := none
        pend := x.pend ++ [{ id := id, cls := a.cls, va := a.va, len := a.size, pieces := ps }] }
    else (s.setCtx c { s.ctx c with born := none, acc := some (a.va, a.size, id) }).wait c (.reply id)
  if (s.region p.pa).outside then
    (match s.twin c with
    | none => s.external r
    | some _ => s.port c { sig := reqSig r, id := id, delay := 0, ord := ordLate, ev := .homeStore r })
  else
    match a.op with
    | .gadd tag =>
      if p.pa < hbmBytes then
        (match s.twin c with
        | none => s.gaddL1 r tag
        | some _ => s.port c { sig := reqSig r, id := id, delay := 0, ord := ordLate, ev := .homeStore r })
      else s.sendReq r
    | .load fn =>
      if (s.bothOf c).all (fun c => s.l1Hits (coreOf c) ps) then
        let (s, v) := s.l1Load k ps
        s.setCtx c { ((s.ctx c).wr a.rd (loadExtend fn v)).adv with st := .issuing, why := .none, stay := none }
      else (ps.foldl (fun s p => if p.pa < hbmBytes then s.expectL1 k (lineOf p.pa) else s) s).sendReq r
    | _ => s.sendReq r

/-- The access after translation: an exact trap for a form its window does not take, a hold, or its sending. -/
def State.goAcc (s : State) (a : Acc) (ps : List Piece) : State :=
  let c := s.cur
  if ps.any (fun p => (s.region p.pa).outside && !externalOk (s.region p.pa) a.op) then
    s.trapMe causeTrans clsNoperm a.va
  else if s.mustHold c a ps then s.wait c .held
  else s.launchAcc a ps

/-- The cycle of an access's first issue is kept while it is held or waits for its translation (R399). -/
def State.noteIssue (s : State) : State := s.setMe { s.me with born := some (s.me.born.getD s.cycle) }

/-- An access of the running context from its issue: prefix, alignment, translation, holds (R118, R164, R385 in their common
order). -/
def State.access (s : State) (i : Instr) (need : Need) (align : Bool) (a : Acc) : State :=
  s.plain i (fun s =>
    if (align ∧ !aligned a.va a.size) ∨ wraps a.va a.size then s.trapMe causeMisaccess 0 a.va
    else s.noteIssue.translateRun a.va a.size need (fun s ps _ => s.goAcc a ps))

/-! Migration on an access (R159 to R161). -/

/-- Slice whose quad an access's home lies in. -/
def State.homeQuad (s : State) (pa : Nat) : SliceId :=
  match s.region pa with
  | .scratch cl _ => s.quadOf cl
  | _ => homeOf (lineOf pa)

/-- An ordinary load or store migrates when its page has MIG, its home lies in another quad, and the grain may roam (R159). -/
def State.migrates (s : State) (c : CtxId) (e : TlbEnt) (pa : Nat) : Bool :=
  let x := s.ctx c
  e.mig && x.roam && x.gang.isNone && 1 ≤ ctxNo c && ctxNo c ≤ 14 && pa < hbmBytes
    && s.homeQuad pa != s.quadOf (clusterOf c) && x.stay != some x.pc

/-- The migration procedure begins: the store count drains, a load's request goes out under its tag, and the home's mesh stop
is asked for a context, in the order of its askers' context numbers (R146, R160). -/
def State.beginMigration (s : State) (a : Acc) (ps : List Piece) : State :=
  let c := s.cur
  let k := coreOf c
  let pa := (ps.headD {}).pa
  if !(s.ctx c).pend.isEmpty then s.wait c .held
  else
    let id := s.token
    let s := s.tick1
    let isLoad := opIsLoad a.op
    let r := s.reqOf c a ps id
    let s := s.wait c (.reply id)
    let s := if isLoad then
        (s.setCtx c { s.ctx c with load := some r }).setCore k { s.core k with
          fwds := (s.core k).fwds ++ [{ id := id, dst := c, req := some r }] }
      else s
    let s := if isLoad then s.sendReq r else s
    let h := s.homeQuad pa
    s.later (s.toSlice (clusterOf c) h) (1000 + c)
      (.migrationGrant c h (if isLoad then some id else none) a.rd (if isLoad then (s.ctx c).pc + 4 else (s.ctx c).pc))

/-- An ordinary load or store (R119 to R123, R159). -/
def State.ordinary (s : State) (i : Instr) (need : Need) (a : Acc) : State :=
  s.plain i (fun s =>
    if wraps a.va a.size then s.trapMe causeMisaccess 0 a.va
    else s.noteIssue.translateRun a.va a.size need (fun s ps e =>
      if s.migrates s.cur e (ps.headD {}).pa ∧ !s.mustHold s.cur a ps then s.beginMigration a ps else s.goAcc a ps))

/-! Replies, acknowledgements and refusals at the core (R142, R123, R475). -/

/-- The active message of context 15 ends, and the next is taken (R137, R145). -/
def State.endMessage (s : State) (k : CoreId) : State :=
  let c := k * 16 + 15
  let s := s.setCtx c { s.ctx c with msg := none }
  (s.wait c .event).soon (.messageTake k)

/-- What IDLE does once the store count is zero, by context (R137); PC is past the instruction already. -/
def State.idleAct (s : State) (c : CtxId) : State :=
  if ctxNo c = 0 then s.wait c .event
  else if ctxNo c = 15 then s.endMessage (coreOf c)
  else s.endCtx c

/-! The end of a message at context 15 (R437, R412). -/

/-- A status goes back to the sender of a remote operation: over the mesh, or out of the chip (R437). -/
def State.statusBack (s : State) (m : Msg) (code : BitVec 8) (val : W64) : State :=
  if m.src / 65536 = s.dev.chip.toNat then
    s.later (s.toCluster (m.core % 4096 / 8) (m.src % 65536 / 128)) ordReply
      (.remoteStatusArrival (m.src % 65536) m.id code val none)
  else s.linkBack (m.core % 4096 + 4096 * s.dev.chip.toNat) (m.src / 65536) (.status m.src m.id code val)

/-- The last 8 results of a sender are kept at the core that performed them (R412). -/
def State.keepFor (s : State) (k : CoreId) (src : Nat) (num : BitVec 8) (code : BitVec 8) (val : W64) : State :=
  let l := (Tab.get [] (s.core k).rkept src).filter (fun e => e.1 != num)
  s.setCore k { s.core k with rkept := Tab.set (s.core k).rkept src ((l ++ [(num, code, val)]).drop (l.length + 1 - 8)) }
/-- The result of a remote operation is kept (R412). -/
def State.keepRemote (s : State) (k : CoreId) (m : Msg) (code : BitVec 8) (val : W64) : State := s.keepFor k m.src m.num code val

/-- A message has been performed: its status goes back, and context 15 takes the next (R145, R436). -/
def State.finishMsg (s : State) (k : CoreId) (m : Msg) (code : BitVec 8) (val : W64) : State :=
  ((s.keepRemote k m code val).statusBack m code val).endMessage k

/-- A refused remote write counts in EVC6 of the Loom of the cluster that owns the page (R282). -/
def State.countRefused (s : State) (pa : Nat) : State :=
  match s.region pa with
  | .scratch cl _ => s.countLoom cl 6 1
  | _ => s

/-- The reply to a remote atomic that context 15 has sent (R439). -/
def State.atomicReply (s : State) (c : CtxId) (m : Msg) (r : Reply) : State :=
  let pa := match (s.ctx c).load with
    | some q => (q.pieces.headD {}).pa
    | none => 0
  let s := s.setCtx c { s.ctx c with load := none }
  match r.trap with
  | some _ => (s.countRefused pa).finishMsg (coreOf c) m 1 0
  | none => s.finishMsg (coreOf c) m 0 r.val

/-- The remote atomic that a context performs, when it does. -/
def Ctx.atomicMsg (x : Ctx) : Option Msg :=
  match x.msg with
  | some m => (match m.kind with
    | .atomic _ _ _ _ => some m
    | _ => none)
  | none => none

/-- What a reply does to the context that waits for it. -/
def State.applyReply (s : State) (c : CtxId) (r : Reply) : State :=
  match (s.ctx c).atomicMsg with
  | some m => s.atomicReply c m r
  | none =>
  match r.trap with
  | some (cause, cls, va) =>
    let s := s.count c r.conds
    let x := s.ctx c
    s.takeTrap c { cause := cause, cls := cls, tia := x.pc, tepc := x.pc, tval := va }
  | none =>
    if r.again then
      (s.setCtx c { s.ctx c with feTries := (s.ctx c).feTries + 1 }).wake c
    else
      let s := s.count c r.conds
      let x := s.ctx c
      let x := if r.wr then x.wr r.rd r.val else x
      let x := if r.adv then { x.adv with feTries := 0, stay := none, load := none } else x
      let x := { x with leaf := none, born := if r.adv then none else x.born }
      let x := { x with srcBytes := x.srcBytes ++ r.bytes }
      let go := match x.why with
        | .walk f => some f
        | _ => r.go
      let leaf := (s.ctx c).leaf
      let s := (s.setCtx c x).wake c
      let s := match leaf, r.go with
        | some e, some _ => s.fillCore (coreOf c) e
        | some e, none => (s.fillCluster (clusterOf c) e).fillCore (coreOf c) e
        | none, _ => s
      let s := match go with
        | some f => s.goOn c f
        | none => s
      if r.ends then s.idleAct c else s

/-- The bytes of a unit's read of an external window have come (R445). -/
def State.takeRead (s : State) (r : Reply) : State :=
  { s with dev := { s.dev with reads := s.dev.reads.map (fun e => if e.1 == r.id then (e.1, some r.bytes) else e) } }

/-- The time of an L1-miss load is a sample while MONCFG.SRC is 2 (R399). -/
def State.sampleLoad (s : State) (c : CtxId) (r : Reply) : State :=
  match r.born with
  | some b =>
    if (s.cluster (clusterOf c)).mon.src = 2 ∧ (s.ctx c).awaits r.id then
      s.now (.monitorSample (clusterOf c) (BitVec.ofNat 32 (s.cycle - b)))
    else s
  | none => s

/-- The gang that keeps a reply for its restore: a member at a boundary, or one that is saved, waits for it (R413). -/
def State.keeper (s : State) (c : CtxId) (id : Nat) : Option Nat :=
  (s.dev.gangs.find? (fun e =>
    (match Tab.find e.2.ctxs c with
      | some x => x.awaits id
      | none => false)
    || ((s.ctx c).gang == some e.1 && s.heldBack c && (s.ctx c).awaits id))).map (·.1)

/-- What a core's L1 and logical time take of a reply: the bytes an operation has written, the rise of CT, the drop of overtaken
leases by an acquire that brings no timestamp, and the fill (R332, R333; log entry 16). -/
def State.takeReply (s : State) (k : CoreId) (r : Reply) : State :=
  let s := match r.upd with
    | some u => s.takeUpd k u
    | none => s
  let s := s.raiseCt k r.wts
  let s := if r.bank then s.dropStale k else s
  match r.fill with
  | some (line, d, rts) => s.installL1 k line d r.wts rts r.served
  | none => s

/-- A reply at the core: CT and the L1 take what it carries, and its context goes on. A reply for a migrated load goes to its
forwarding entry, one that comes in a freeze is held, and one that nothing waits for is dropped (R142, R161, R332, R421). -/
def State.doReplyArrival (s : State) (c : CtxId) (r : Reply) : State :=
  let k := coreOf c
  if s.dev.reads.any (fun e => e.1 == r.id) then s.takeRead r
  else if (s.keeper c r.id).isSome then s.keepEvent ((s.keeper c r.id).getD 0) (.replyArrival c r)
  else if (s.core k).frozen s.cycle then s.setCore k { s.core k with heldReplies := (s.core k).heldReplies ++ [(c, r)] }
  else if !r.side && r.id ≠ 0 && (s.core k).fwds.any (fun f => f.id == r.id) then s.now (.migratedReply c r)
  else
    let s := s.takeReply k r
    if r.side then s
    else
      let s := s.sampleLoad c r
      let twin := s.twin c
      let s := if (s.ctx c).awaits r.id then s.applyReply c r else s
      match twin with
      | some c2 =>
        if (s.ctx c2).awaits r.id then
          (s.takeReply (coreOf c2) r).applyReply c2 r
        else s
      | none => s

/-- A store of a context discarded since is acknowledged (R174). -/
def State.ackOrphan (s : State) (c : CtxId) (id : Nat) (all : Bool) : State :=
  { s with orphans := s.orphans.filterMap (fun o =>
      if o.1 == c && o.2.1 == id then (if all || o.2.2 ≤ 1 then none else some (c, id, o.2.2 - 1)) else some o) }

/-- One context's count takes an acknowledgement: the L1's copy takes the bytes, CT the timestamp, and an empty count lets
what waits for it go on (R123, R137, R189, R333). An acknowledgement without a timestamp drops overtaken leases (log entry 16). -/
def State.ackOne (s : State) (c : CtxId) (id : Nat) (a : Ack) : State :=
  let k := coreOf c
  let x := s.ctx c
  match x.pend.find? (fun p => p.id == id) with
  | none => s.ackOrphan c id a.all
  | some p =>
    let s := s.takeReply k { wts := a.wts, upd := a.upd, bank := a.bank }
    let rest := if a.all then [] else p.pieces.drop 1
    let pend := if rest.isEmpty then x.pend.filter (fun y => y.id != id)
      else x.pend.map (fun y => if y.id == id then { y with pieces := rest } else y)
    let s := s.setCtx c { s.ctx c with pend := pend }
    match x.why with
    | .held => s.wake c
    | .drain i => if pend.isEmpty then s.nowFor c 0 i else s
    | _ => s

/-- An acknowledgement at the core (R123). In a freeze it is held like a reply (R421). -/
def State.doStoreAcknowledgement (s : State) (c : CtxId) (id : Nat) (a : Ack) : State :=
  let k := coreOf c
  if (s.core k).frozen s.cycle then s.eventAt (s.core k).thaw ordAck (.storeAcknowledgement c id a)
  else
    let s := s.ackOne c id a
    match s.twin c with
    | some c2 => s.ackOne c2 id a
    | none => s

/-- A context that waits, which a late refusal can end (R475). -/
def Ctx.waits (x : Ctx) : Bool := x.st == .issuing || x.st == .waiting || x.st == .parked || x.st == .dispatchWait

/-- The request that an event carries. -/
def reqIn : Ev → Option Req
  | .homeStore r => some r
  | .servingSliceLoad r => some r
  | .fullEmptyAtHome r => some r
  | .fullEmptyResend r => some r
  | .bankAccess r => some r
  | .sliceAtomicOp r => some r
  | .reservationRegister _ r => some r
  | _ => none

/-- An entry of the agenda is a request of a context that waits for its reply, not yet performed. -/
def Entry.requestOf (e : Entry) (c : CtxId) : Bool :=
  match e.act with
  | .run _ => e.who == c && e.stage != 0
  | .ev v => match reqIn v with
    | some r => r.who == c && !r.posted
    | none => false
  | .issue => false

/-- The BOPENs of a context that wait for pool room are withdrawn: the next of their queue is served, and the pressure on an empty
queue ends (R279, R288). -/
def State.withdrawOpens (s : State) (c : CtxId) : State :=
  s.clusters.foldl (fun (s : State) e =>
    if e.2.openQ.any (fun q => q.who == some c) then
      let q := e.2.openQ.filter (fun b => b.who != some c)
      let s := s.setCluster e.1 { s.cluster e.1 with openQ := q }
      if q.isEmpty then s.unschedule (fun x => x.act == .ev (.pressureSeal e.1)) else s.later 0 160001 (.bopenServe e.1)
    else s) s

/-- Withdraw what a context has at other units and waits for: requests on their way or waiting, a parked request, a
translation fault, a unit's wait (R183, R307, R288, R381, R396, R364, R475). -/
def State.withdraw (s : State) (c : CtxId) : State :=
  let k := coreOf c
  let keep (l : List Req) : List Req := l.filter (fun r => r.who != c || r.posted)
  let s := (s.unschedule (fun e => e.requestOf c)).withdrawOpens c
  let s := s.setCore k { s.core k with tfQ := (s.core k).tfQ.filter (fun f => f.ctx != ctxNo c) }
  { s with
    slices := Tab.mapVal (fun y => { y with
      parked := keep y.parked
      lrWait := keep y.lrWait
      atomQ := keep y.atomQ
      resv := y.resv.map (fun r => if r.who == c then { r with wrs := false } else r)
      win := { y.win with pulls := y.win.pulls.filter (fun p => p.who != c) } }) s.slices
    lines := Tab.mapVal (fun y => { y with
      s0 := { y.s0 with loads := keep y.s0.loads, stores := keep y.s0.stores }
      s1 := { y.s1 with loads := keep y.s1.loads, stores := keep y.s1.stores } }) s.lines
    clusters := Tab.mapVal (fun y => { y with
      parked := keep y.parked
      bwaits := y.bwaits.filter (fun b => b.1 != c)
      sbWait := y.sbWait.filter (· != c) }) s.clusters
    dev := { s.dev with
      ewaits := s.dev.ewaits.filter (fun e => e.2.1 != c)
      th0 := { s.dev.th0 with waits := s.dev.th0.waits.filter (fun w => w.1 != c) }
      th1 := { s.dev.th1 with waits := s.dev.th1.waits.filter (fun w => w.1 != c) } } }

/-- Address of the instruction that a context has come to: its WRS while it waits in one (R181, R475). -/
def Ctx.here (x : Ctx) : W64 := match x.why with
  | .wrs _ => x.pc - 4
  | _ => x.pc

/-- The late refusals that have reached a context become one trap, with TIA and TVAL of the earliest refused (R475). -/
def State.takeLate (s : State) (c : CtxId) : State :=
  let x := s.ctx c
  match x.late with
  | [] => s
  | l :: t =>
    let e := t.foldl (fun (a b : Late) => if b.id < a.id then b else a) l
    let s := s.withdraw c
    let s := s.setCtx c { s.ctx c with late := [] }
    s.takeTrap c { cause := causeRefusal, tia := e.ia, tepc := x.here, tval := e.va }

/-- The reply to a request of the context that has been performed is on its way, or that of a remote operation (log entry 14). -/
def State.performedFor (s : State) (c : CtxId) : Bool :=
  s.agenda.any (fun e => match e.act with
    | .ev (.replyArrival k r) => k == c && r.did && (s.ctx c).awaits r.id
    | .ev (.lineStep _ _ _ b) => (s.ctx c).awaits b
    | .ev (.rforkResume k id _ _) => k == c && (s.ctx c).awaits id
    | .ev (.spawnArrival r) => r.from_ == s.ctxNumber c && (s.ctx c).awaits r.id
    | _ => false) || s.sent.any (fun o => o.who == c && !o.posted)

/-- A refusal of a posted write reaches the core (R475): EVC6 counts it, and after every refusal of the cycle has come the
trap is taken; token 0 marks that point. A member at the boundary of a pre-emption takes it at the restore (R413). -/
def State.doLateRefusal (s : State) (c : CtxId) (id : Nat) (ia va : W64) : State :=
  let k := coreOf c
  if (s.core k).frozen s.cycle then s.eventAt (s.core k).thaw ordReply (.lateRefusal c id ia va)
  else if id = 0 then
    (match (if s.heldBack c then (s.ctx c).gang else none) with
    | some g => if (s.gang g).kept.contains (.lateRefusal c 0 0 0) then s else s.keepEvent g (.lateRefusal c 0 0 0)
    | none => if (s.ctx c).waits ∧ !s.performedFor c then s.takeLate c else s)
  else
    let s := s.count c cRefused
    let s := s.setCtx c { s.ctx c with late := (s.ctx c).late ++ [{ id := id, ia := ia, va := va }] }
    s.later 0 (ordReply + 1) (.lateRefusal c 0 0 0)

/-! Banks (R291, R171, R182). -/

/-- A bank performs one access a cycle; a request that finds it used waits in arrival order (R291). -/
def State.atBank (s : State) (pa : Nat) (e : Ev) (go : State → State) : State :=
  if s.bankFree pa then go (s.useBank pa) else s.later 1 500 e

/-- A request's next piece goes to its own point. -/
def State.sendNext (s : State) (r : Req) : State :=
  let (d, o, e) := s.route r
  s.later d o e

/-- A scratchpad bank performs an access (R291). -/
def State.doBankAccess (s : State) (r : Req) : State :=
  let p := r.pieces.headD {}
  s.atBank p.pa (.bankAccess r) (fun s =>
    match r.op with
    | .lr => s.arriveLr r
    | .jwait => if (s.point8 p.pa).setWidth 32 = 0#32 then s.perform r State.sendNext else s.parkAt r p.pa
    | _ => s.perform r State.sendNext)

/-- A full-empty form at its home or bank (R182). -/
def State.doFullEmptyAtHome (s : State) (r : Req) : State :=
  let p := r.pieces.headD {}
  match s.region p.pa with
  | .scratch _ _ => s.atBank p.pa (.fullEmptyAtHome r) (fun s => s.attempt r)
  | _ => s.arriveHome r

/-- An attempt that found the park table full is sent again (R183). -/
def State.doFullEmptyResend (s : State) (r : Req) : State :=
  if (s.ctx r.who).awaits r.id then s.sendNext r else s

/-- The bank replies to the JWAITs parked on a cell whose COUNT has become zero (R171). -/
def State.doJwaitWake (s : State) (pa : Nat) : State :=
  if (s.point8 pa).setWidth 32 = 0#32 then
    ((s.parkedOn (pa / 8)).filter (fun r => r.op == .jwait)).foldl
      (fun s r => (s.unpark pa r.id).reply r pa { id := r.id }) s
  else s

def execReplyArrival (s : State) : Host.Outcome State Fault Refusal :=
  .next (match s.ev with
    | .replyArrival c r => s.doReplyArrival c r
    | _ => s)
def execStoreAcknowledgement (s : State) : Host.Outcome State Fault Refusal :=
  .next (match s.ev with
    | .storeAcknowledgement c id w => s.doStoreAcknowledgement c id w
    | _ => s)
def execLateRefusal (s : State) : Host.Outcome State Fault Refusal :=
  .next (match s.ev with
    | .lateRefusal c id ia va => s.doLateRefusal c id ia va
    | _ => s)
def execBankAccess (s : State) : Host.Outcome State Fault Refusal :=
  .next (match s.ev with
    | .bankAccess r => s.doBankAccess r
    | _ => s)
def execFullEmptyAtHome (s : State) : Host.Outcome State Fault Refusal :=
  .next (match s.ev with
    | .fullEmptyAtHome r => s.doFullEmptyAtHome r
    | _ => s)
def execFullEmptyResend (s : State) : Host.Outcome State Fault Refusal :=
  .next (match s.ev with
    | .fullEmptyResend r => s.doFullEmptyResend r
    | _ => s)
def execJwaitWake (s : State) : Host.Outcome State Fault Refusal :=
  .next (match s.ev with
    | .jwaitWake pa => s.doJwaitWake pa
    | _ => s)

end Sys2Proof.Machine
end

