-- ==== Sys2Proof/Machine/Csr.lean ====
section
/-!
DEFINITION. The control and status registers by number: what a read gives, which contexts may write, and what a write does
under the access codes of each map (R6, R22, R25, R138, R139).
-/

namespace Sys2Proof.Machine

/-- State code of R143. -/
def CtxState.code : CtxState → Nat
  | .stopped => 0
  | .held => 1
  | .issuing => 2
  | .waiting => 3
  | .parked => 4
  | .dispatchWait => 5
  | .ended => 6
  | .trapped => 7
  | .migrating => 8

/-- State code of R226. -/
def LoomState.code : LoomState → Nat
  | .stopped => 0
  | .running => 1
  | .snext => 2
  | .link => 3
  | .frozen => 4
  | .trapped => 5

/-- A value from its fields, each as a low bit and a number. -/
def fields (l : List (Nat × Nat)) : W64 := BitVec.ofNat 64 (l.foldl (fun a p => a + p.2 * 2 ^ p.1) 0)

/-- GSR as it reads (R22). -/
def State.gsr (s : State) (c : CtxId) : W64 :=
  let x := s.ctx c
  fields [(28, x.ocls.toNat), (20, x.ferc.toNat), (8, x.pfmt.toNat), (2, x.pp.toNat), (0, (s.privOf c).toNat)]

/-- CMASK as it reads (R22). -/
def Ctx.cmask (x : Ctx) : W64 := fields [(16, x.dead.toNat / 2 * 2), (0, x.tmask.toNat)]

/-- CORENO as it reads (R26). -/
def State.coreno (s : State) (c : CtxId) : W64 := fields [(32, (s.ctx c).lgn.toNat), (0, s.ctxNumber c)]

/-- RMST as it reads (R437). -/
def Ctx.rmst (x : Ctx) : W64 := fields [(32, x.pfail.toNat), (0, x.last.toNat)]

/-- CTXST of a core (R145). -/
def State.ctxst (s : State) (k : CoreId) : W64 :=
  fields ((coreCtxs k).map (fun c => (4 * ctxNo c, (s.ctx c).st.code)))

/-- The context whose trap record is shown (R404). -/
def State.shown (s : State) (k : CoreId) : Option CtxId :=
  if (s.core k).own then some (stewardOf k) else (s.core k).trapQ.head?.map (k * 16 + ·)

/-- TCAUSE of a core (R404). -/
def State.tcauseReg (s : State) (k : CoreId) : W64 :=
  match s.shown k with
  | none => 0
  | some c =>
    let x := s.ctx c
    fields [(63, 1), (40, x.tclass.toNat), (16, (s.slotOf c).toNat), (8, x.tcause.toNat), (4, x.epriv.toNat), (0, ctxNo c)]

/-- A value of the shown record. -/
def State.shownVal (s : State) (k : CoreId) (f : Ctx → W64) : W64 :=
  match s.shown k with
  | none => 0
  | some c => f (s.ctx c)

/-- SSTAT as a context reads it (R406). -/
def State.sstat (s : State) (c : CtxId) : W64 :=
  let x := s.core (coreOf c)
  fields [(2, (isClusterSteward c && (s.loom (clusterOf c)).k.lfValid).toNat), (1, x.inh.toNat), (0, x.eie.toNat)]

/-- TFLT of a core (R307). -/
def Core.tflt (x : Core) : W64 :=
  match x.tfQ with
  | [] => 0
  | f :: _ => fields [(63, 1), (12, f.slot.toNat), (10, f.kind.toNat), (4, f.ctx)]

/-- BPOOL of a cluster (R268). -/
def Cluster.bpool (x : Cluster) : W64 := fields [(31, x.bpEn.toNat), (16, x.bpN.toNat), (0, x.bpBase.toNat)]

/-- Pool pages held by bolts. -/
def Cluster.pagesHeld (x : Cluster) : Nat := (x.bolts.map (fun e => if e.2.st = .free then 0 else e.2.npages)).sum

/-- BPSTAT of a cluster (R269). -/
def Cluster.bpstat (x : Cluster) : W64 :=
  let nOpen := (x.boltsIf (fun b => b.st == .open_)).length
  let nBusy := (x.boltsIf (fun b => b.st != .open_ && b.st != .free)).length
  fields [(32, x.bpN.toNat - x.pagesHeld), (24, min 255 x.openQ.length), (16, nOpen), (8, nBusy), (0, 64 - (nOpen + nBusy))]

/-- LSR of a Loom (R226). -/
def Loom.lsr (x : Loom) (cycle : Nat) : W64 :=
  fields [(28, x.k.mpfmt.toNat), (16, x.k.vpfmt.toNat), (15, x.k.mpp.toNat), (14, x.k.vpp.toNat), (8, x.k.dbgp.toNat)
        , (4, x.k.coll.toNat), (0, if x.frozen cycle then 4 else x.st.code)]

/-- LFREC of a Loom (R409). -/
def Loom.lfrec (x : Loom) : W64 :=
  fields [(63, x.k.lfValid.toNat), (32, x.k.lfSeq.toNat), (16, x.k.lfAddr.toNat), (12, x.k.lfPerf.toNat), (10, x.k.lfSlot.toNat)
        , (0, x.k.lfCause.toNat)]

/-- MONCFG of a cluster (R399). -/
def Monitor.cfg (m : Monitor) : W64 := fields [(40, m.shift.toNat), (8, m.base.toNat), (4, m.frz.toNat), (0, m.src.toNat)]
/-- MONFLG of a cluster (R399). -/
def Monitor.flg (m : Monitor) : W64 := fields [(17, m.cntSat.toNat), (16, m.sumSat.toNat), (0, m.binSat.toNat)]

/-- ASROOTn as it reads (R300). -/
def State.asrootReg (s : State) (n : Nat) : W64 :=
  let (en, root) := s.dev.asroot.getD n (false, 0)
  fields [(63, en.toNat), (12, root.toNat)]

/-- DOMCFG as it reads (R429). -/
def Device.domcfg (d : Device) : W64 :=
  fields [(48, d.sync.toNat), (32, d.dom.toNat), (24, d.inc.toNat), (12, d.nchm1.toNat), (0, d.chip.toNat)]

/-- Domain time: the core clock runs at 1 GHz, so a cycle is a nanosecond (R431, R16). -/
def State.dtimeNow (s : State) : W64 := s.dev.dtime + BitVec.ofNat 64 s.cycle

/-- The value of a CSR as a context reads it; none for a number that no chapter assigns (R138, R139). -/
def State.csr (s : State) (c : CtxId) (n : Nat) : Option W64 :=
  let x := s.ctx c
  let k := coreOf c
  let core := s.core k
  let cl := s.cluster (clusterOf c)
  let l := s.loom (clusterOf c)
  if n = 0x000 then some (s.gsr c)
  else if n = 0x001 then some x.cmask
  else if n = 0x002 then some (zx x.ocls)
  else if n = 0x003 then some (s.coreno c)
  else if n = 0x004 then some (zx x.btmo)
  else if n = 0x005 then some x.rmst
  else if 0x010 ≤ n ∧ n < 0x020 then some (x.evc.nth (n - 0x010)).read
  else if n = 0x800 then some (fields [(16, core.areap.toNat), (0, core.slots.toNat)])
  else if n = 0x801 then some (s.ctxst k)
  else if n = 0x802 then some (fields [(32, core.dropped.toNat), (0, core.mout.toNat)])
  else if n = 0x803 then some (zx core.stslot)
  else if n = 0x810 then some (s.tcauseReg k)
  else if n = 0x811 then some (s.shownVal k Ctx.tia)
  else if n = 0x812 then some (s.shownVal k Ctx.tepc)
  else if n = 0x813 then some (s.shownVal k Ctx.tval)
  else if n = 0x814 then some core.stvec
  else if n = 0x815 then some core.stepc
  else if n = 0x816 then some (s.sstat c)
  else if n = 0x817 then some (fields [(16, core.wdPre.toNat), (0, core.wdWait.toNat)])
  else if n = 0x818 then some (zx core.cecnt)
  else if n = 0x819 then some core.wkval
  else if n = 0x81A then some (zx core.wkcnt)
  else if 0x820 ≤ n ∧ n < 0x830 then some (core.mres.nth (n - 0x820)).read
  else if n = 0x840 then some (l.lsr s.cycle)
  else if n = 0x841 then some l.lfrec
  else if n = 0x842 then some (zx l.cecnt)
  else if n = 0x846 then some (fields [(16, cl.svarea.toNat)])
  else if n = 0x850 then some cl.bpool
  else if n = 0x851 then some cl.bpstat
  else if n = 0x860 then some core.tflt
  else if n = 0x861 then some (core.tfQ.headD {}).va
  else if n = 0x870 then some cl.mon.cfg
  else if n = 0x871 then some (zx cl.mon.min)
  else if n = 0x872 then some (zx cl.mon.max)
  else if n = 0x873 then some (zx cl.mon.sum)
  else if n = 0x874 then some (zx cl.mon.cnt)
  else if n = 0x875 then some cl.mon.flg
  else if 0x880 ≤ n ∧ n < 0x890 then some (zx (cl.mon.bins.getD (n - 0x880) 0))
  else if 0x8A0 ≤ n ∧ n < 0x8B0 then some (l.k.levc.nth (n - 0x8A0)).read
  else if 0x8B0 ≤ n ∧ n < 0x8C0 then some ((s.slice (s.quadOf (clusterOf c))).sevc.nth (n - 0x8B0)).read
  else if 0xC00 ≤ n ∧ n < 0xC10 then some (s.asrootReg (n - 0xC00))
  else if n = 0xC20 then some (fields [(32, s.dev.guard.toNat), (0, s.dev.lead.toNat)])
  else if n = 0xC21 then some s.dev.domcfg
  else if n = 0xC22 then some (zx s.dev.incdrop)
  else if n = 0xC23 then some s.dtimeNow
  else none

/-- The context may write the CSR: bit [11] needs privilege, and some registers a steward or the cluster steward
(R22, R70, R162, R226, R268, R301, R302, R416). -/
def State.csrMayWrite (s : State) (c : CtxId) (n : Nat) : Bool :=
  if n < 0x800 then true
  else if !s.privOf c then false
  else if n = 0x840 ∨ n = 0x846 ∨ n = 0x850 ∨ n = 0x851 ∨ (0x8A0 ≤ n ∧ n < 0x8B0) then isClusterSteward c
  else if n = 0x803 ∨ (0x820 ≤ n ∧ n < 0x830) ∨ (0x8B0 ≤ n ∧ n < 0x8C0) ∨ (0xC00 ≤ n ∧ n < 0xC10) then isSteward c
  else true

/-! The writes that are events of their own. -/

/-- A write of BPOOL (R269). -/
def State.doBpoolWrite (s : State) (k : ClusterId) (v : W64) : State :=
  let x := s.cluster k
  let base := v.extractLsb' 0 10
  let n := v.extractLsb' 16 10
  let en := v.getLsbD 31
  if base.toNat + n.toNat > 768 ∨ (n = 0 ∧ en) then s
  else if (base ≠ x.bpBase ∨ n ≠ x.bpN) ∧ x.bolts.any (fun e => e.2.st != .free) then s.setCluster k { x with bpEn := en }
  else s.setCluster k { x with bpBase := base, bpN := n, bpEn := en }

/-- A write of ASROOTn (R300, R301). -/
def State.doAsrootWrite (s : State) (n : BitVec 4) (v : W64) : State :=
  { s with dev := { s.dev with asroot := s.dev.asroot.set n.toNat (v.getLsbD 63, v.extractLsb' 12 40) } }

/-- A write of STSLOT (R302). -/
def State.doStslotWrite (s : State) (k : CoreId) (v : W64) : State :=
  s.setCore k { s.core k with stslot := v.setWidth 4 }

/-- A write of LSR: DBGP is written, COLL is cleared by 1. While DBGP is 0 no register has a pending bit (R226, R227). -/
def State.doLsrWrite (s : State) (l : ClusterId) (v : W64) : State :=
  let x := s.loom l
  s.setLoom l { x with k := { x.k with
    dbgp := v.getLsbD 8, coll := x.k.coll && !v.getLsbD 4
    flight := if v.getLsbD 8 then x.k.flight else x.k.flight.map (fun f => { f with pend := false }) } }

/-- A write of MONCFG (R399). -/
def State.doMoncfgWrite (s : State) (k : ClusterId) (v : W64) : State :=
  let m := (s.cluster k).mon
  let src := v.extractLsb' 0 4
  s.setCluster k { s.cluster k with mon := { m with
    shift := v.extractLsb' 40 5, base := v.extractLsb' 8 32, frz := v.getLsbD 4, src := if src.toNat < 6 then src else m.src } }

/-- CLR of MONCFG: after the write every statistic and flag takes its reset value (R399). -/
def State.doMoncfgClr (s : State) (k : ClusterId) (v : W64) : State :=
  let s := s.doMoncfgWrite k v
  let m := (s.cluster k).mon
  s.setCluster k { s.cluster k with mon := { shift := m.shift, base := m.base, frz := m.frz, src := m.src } }

/-- ACT 1 of TFLT: the shown grain executes its instruction again (R307). -/
def State.doTfltRelease (s : State) (k : CoreId) : State :=
  match (s.core k).tfQ with
  | [] => s
  | f :: t =>
    let s := s.setCore k { s.core k with tfQ := t }
    if s.heldBack (k * 16 + f.ctx) then s else s.wake (k * 16 + f.ctx)

/-- ACT 2 of TFLT: the shown grain takes the exact NOMAP trap; a member at the boundary of a pre-emption takes it at the restore
(R307, R413). -/
def State.doTfltNomapTrap (s : State) (k : CoreId) : State :=
  match (s.core k).tfQ with
  | [] => s
  | f :: t =>
    let s := s.setCore k { s.core k with tfQ := t }
    let c := k * 16 + f.ctx
    let x := s.ctx c
    match (if s.heldBack c then x.gang else none) with
    | some g =>
      let id := s.token
      (s.tick1.setCtx c { x with why := .parked id }).keepEvent g
        (.replyArrival c { id := id, adv := false, trap := some (causeTrans, clsNomap, f.va) })
    | none => s.takeTrap c { cause := causeTrans, cls := clsNomap, tia := x.pc, tepc := x.pc, tval := f.va }

/-- What a write of a CSR does, field by field (R6, R67). Fields of no register and read-only fields are ignored. -/
def State.csrWrite (s : State) (c : CtxId) (n : Nat) (v : W64) : State :=
  let x := s.ctx c
  let k := coreOf c
  let core := s.core k
  let q := clusterOf c
  if n = 0x000 then s.setCtx c { x with ocls := v.extractLsb' 28 4, ferc := v.extractLsb' 20 8 }
  else if n = 0x001 then s.setCtx c { x with tmask := v.setWidth 16 &&& 0xFFFE }
  else if n = 0x002 then s.setCtx c { x with ocls := v.setWidth 4 }
  else if n = 0x004 then s.setCtx c { x with btmo := v.setWidth 32 }
  else if n = 0x005 then s.setCtx c { x with pfail := v.extractLsb' 32 16 }
  else if 0x010 ≤ n ∧ n < 0x020 then s.setCtx c { x with evc := x.evc.set (n - 0x010) ((x.evc.nth (n - 0x010)).write v) }
  else if n = 0x800 then s.setCore k { core with areap := v.getLsbD 16, slots := v.setWidth 16 }
  else if n = 0x803 then s.now (.stslotWrite k v)
  else if n = 0x814 then s.setCore k { core with stvec := v &&& ~~~3#64 }
  else if n = 0x815 then s.setCore k { core with stepc := v &&& ~~~3#64 }
  else if n = 0x816 then s.setCore k { core with eie := v.getLsbD 0 }
  else if n = 0x817 then s.setCore k { core with wdPre := v.extractLsb' 16 16, wdWait := v.setWidth 16 }
  else if n = 0x81A then s.setCore k { core with wkcnt := v.setWidth 32 }
  else if 0x820 ≤ n ∧ n < 0x830 then
    s.setCore k { core with mres := core.mres.set (n - 0x820) ((core.mres.nth (n - 0x820)).write v) }
  else if n = 0x840 then s.now (.lsrWrite q v)
  else if n = 0x846 then s.setCluster q { s.cluster q with svarea := v.extractLsb' 16 36 }
  else if n = 0x850 then s.now (.bpoolWrite q v)
  else if n = 0x860 then
    (match (v.extractLsb' 8 2).toNat with
    | 1 => s.now (.tfltRelease k)
    | 2 => s.now (.tfltNomapTrap k)
    | _ => s)
  else if n = 0x870 then if v.getLsbD 5 then s.now (.moncfgClr q v) else s.doMoncfgWrite q v
  else if n = 0x875 then
    let m := (s.cluster q).mon
    s.setCluster q { s.cluster q with mon := { m with
      cntSat := m.cntSat && !v.getLsbD 17, sumSat := m.sumSat && !v.getLsbD 16, binSat := m.binSat &&& ~~~(v.setWidth 16) } }
  else if 0x8A0 ≤ n ∧ n < 0x8B0 then
    let l := s.loom q
    s.setLoom q { l with k := { l.k with levc := l.k.levc.set (n - 0x8A0) ((l.k.levc.nth (n - 0x8A0)).write v) } }
  else if 0x8B0 ≤ n ∧ n < 0x8C0 then
    let z := s.quadOf q
    let y := s.slice z
    s.setSlice z { y with sevc := y.sevc.set (n - 0x8B0) ((y.sevc.nth (n - 0x8B0)).write v) }
  else if 0xC00 ≤ n ∧ n < 0xC10 then s.now (.asrootWrite (BitVec.ofNat 4 (n - 0xC00)) v)
  else if n = 0xC20 then { s with dev := { s.dev with guard := v.extractLsb' 32 16, lead := v.setWidth 32 } }
  else if n = 0xC21 then
    { s with dev := { s.dev with dom := v.extractLsb' 32 16, nchm1 := v.extractLsb' 12 12, chip := v.setWidth 12 } }.chipsLost
  else s

/-- A counter of an event set: a write takes effect after every increment of its cycle (R67, R70). -/
def csrIsCounter (n : Nat) : Bool := (0x010 ≤ n && n < 0x020) || (0x820 ≤ n && n < 0x830) || (0x8A0 ≤ n && n < 0x8C0)

/-- Place of the writes of counters in a cycle: after what the units and the Looms do, before the host (R67, R70). -/
def ordCsr : Nat := 164000

/-- The write of a CSR, or of a counter at the end of the cycle. -/
def State.csrWriteAt (s : State) (i : Instr) (n : Nat) (v : W64) : State :=
  if csrIsCounter n then (s.setMe { s.me with csrTo := some (n, v) }).schedule s.cycle ordCsr s.cur 1 i else s.csrWrite s.cur n v

/-- CSRR (R138, R139). A pending prefix is looked at before the number is (log entry 20). -/
def State.csrr (s : State) (i : Instr) (d : BitVec 4) (n : BitVec 12) : State :=
  s.plain i (fun s =>
    match s.csr s.cur n.toNat with
    | none => s.trapMe causeIllegal 0 (zx (wordOfInstr i))
    | some v => s.put d v)

/-- CSRW: the old value is read, the write is made with the value of gA as it stood, and gD takes the old value (R138,
R139). A pending prefix is looked at before the number is (log entry 20). Stage 1 is the write of a counter. -/
def State.csrw (s : State) (i : Instr) (d a : BitVec 4) (n : BitVec 12) : State :=
  if s.stage ≠ 0 then
    match s.me.csrTo with
    | some (n, v) => (s.setMe { s.me with csrTo := none }).csrWrite s.cur n v
    | none => s
  else s.plain i (fun s =>
    match s.csr s.cur n.toNat with
    | none => s.trapMe causeIllegal 0 (zx (wordOfInstr i))
    | some old =>
      if !s.csrMayWrite s.cur n.toNat then s.trapPriv i
      else (s.csrWriteAt i n.toNat (s.rd a)).put d old)

def execCsrr (d : BitVec 4) (n : BitVec 12) (s : State) : Host.Outcome State Fault Refusal := .next (s.csrr (.csrr d n) d n)
def execCsrw (d a : BitVec 4) (n : BitVec 12) (s : State) : Host.Outcome State Fault Refusal := .next (s.csrw (.csrw d a n) d a n)

def execBpoolWrite (s : State) : Host.Outcome State Fault Refusal :=
  .next (match s.ev with
    | .bpoolWrite k v => s.doBpoolWrite k v
    | _ => s)
def execAsrootWrite (s : State) : Host.Outcome State Fault Refusal :=
  .next (match s.ev with
    | .asrootWrite n v => s.doAsrootWrite n v
    | _ => s)
def execStslotWrite (s : State) : Host.Outcome State Fault Refusal :=
  .next (match s.ev with
    | .stslotWrite k v => s.doStslotWrite k v
    | _ => s)
def execLsrWrite (s : State) : Host.Outcome State Fault Refusal :=
  .next (match s.ev with
    | .lsrWrite k v => s.doLsrWrite k v
    | _ => s)
def execMoncfgClr (s : State) : Host.Outcome State Fault Refusal :=
  .next (match s.ev with
    | .moncfgClr k v => s.doMoncfgClr k v
    | _ => s)
def execTfltRelease (s : State) : Host.Outcome State Fault Refusal :=
  .next (match s.ev with
    | .tfltRelease k => s.doTfltRelease k
    | _ => s)
def execTfltNomapTrap (s : State) : Host.Outcome State Fault Refusal :=
  .next (match s.ev with
    | .tfltNomapTrap k => s.doTfltNomapTrap k
    | _ => s)

end Sys2Proof.Machine
end

