-- ==== Sys2Proof/Machine/LoadStore.lean ====
section
/-!
DEFINITION. The grain instructions that access memory: loads, stores and prefetch (R119 to R124), LR, SC and the fetch-and-ops
(R175 to R181), the full-empty forms (R182, R183), FENCE (R185, R186), GADD (R187, R188), join cells (R171) and the slice
atomics (R387, R388).
-/

namespace Sys2Proof.Machine

/-! Loads and stores. -/

/-- A load of a function code (R119, R120). -/
def State.loadInstr (s : State) (i : Instr) (fn : BitVec 3) (t b : BitVec 4) (dc : Bool) (cls : BitVec 4) (off : BitVec 10) : State :=
  s.ordinary i .r { op := .load fn, rd := t, va := effAddr (s.rd b) off (loadSize fn), size := loadSize fn, cls := s.me.cls dc cls }

/-- A store of n bytes (R119, R120). -/
def State.storeInstr (s : State) (i : Instr) (n : Nat) (t b : BitVec 4) (dc : Bool) (cls : BitVec 4) (off : BitVec 10) : State :=
  s.ordinary i .w { op := .store, va := effAddr (s.rd b) off n, size := n, val := s.rd t, cls := s.me.cls dc cls, posted := true }

def execLb (t b : BitVec 4) (dc : Bool) (cls : BitVec 4) (off : BitVec 10) (s : State) : Host.Outcome State Fault Refusal :=
  .next (s.loadInstr (.lb t b dc cls off) 0 t b dc cls off)
def execLbu (t b : BitVec 4) (dc : Bool) (cls : BitVec 4) (off : BitVec 10) (s : State) : Host.Outcome State Fault Refusal :=
  .next (s.loadInstr (.lbu t b dc cls off) 1 t b dc cls off)
def execLh (t b : BitVec 4) (dc : Bool) (cls : BitVec 4) (off : BitVec 10) (s : State) : Host.Outcome State Fault Refusal :=
  .next (s.loadInstr (.lh t b dc cls off) 2 t b dc cls off)
def execLhu (t b : BitVec 4) (dc : Bool) (cls : BitVec 4) (off : BitVec 10) (s : State) : Host.Outcome State Fault Refusal :=
  .next (s.loadInstr (.lhu t b dc cls off) 3 t b dc cls off)
def execLw (t b : BitVec 4) (dc : Bool) (cls : BitVec 4) (off : BitVec 10) (s : State) : Host.Outcome State Fault Refusal :=
  .next (s.loadInstr (.lw t b dc cls off) 4 t b dc cls off)
def execLwu (t b : BitVec 4) (dc : Bool) (cls : BitVec 4) (off : BitVec 10) (s : State) : Host.Outcome State Fault Refusal :=
  .next (s.loadInstr (.lwu t b dc cls off) 5 t b dc cls off)
def execLd (t b : BitVec 4) (dc : Bool) (cls : BitVec 4) (off : BitVec 10) (s : State) : Host.Outcome State Fault Refusal :=
  .next (s.loadInstr (.ld t b dc cls off) 6 t b dc cls off)
def execSb (t b : BitVec 4) (dc : Bool) (cls : BitVec 4) (off : BitVec 10) (s : State) : Host.Outcome State Fault Refusal :=
  .next (s.storeInstr (.sb t b dc cls off) 1 t b dc cls off)
def execSh (t b : BitVec 4) (dc : Bool) (cls : BitVec 4) (off : BitVec 10) (s : State) : Host.Outcome State Fault Refusal :=
  .next (s.storeInstr (.sh t b dc cls off) 2 t b dc cls off)
def execSw (t b : BitVec 4) (dc : Bool) (cls : BitVec 4) (off : BitVec 10) (s : State) : Host.Outcome State Fault Refusal :=
  .next (s.storeInstr (.sw t b dc cls off) 4 t b dc cls off)
def execSd (t b : BitVec 4) (dc : Bool) (cls : BitVec 4) (off : BitVec 10) (s : State) : Host.Outcome State Fault Refusal :=
  .next (s.storeInstr (.sd t b dc cls off) 8 t b dc cls off)

/-- PREF: a line is brought into the L1, or its home alone; it never waits and never traps (R124). A page that no TLB holds is
looked up by a walk in no time, which fills no TLB, and the fill raises CT as a load's reply does (log entry 62). -/
def State.prefetch (s : State) (i : Instr) (l b : BitVec 4) (off : BitVec 10) : State :=
  s.plain i (fun s =>
    let va := effAddr (s.rd b) off 128
    let c := s.cur
    let t := s
    let s := s.setMe s.me.adv
    match (t.translateCtx c va .r).2 with
    | .error _ => s
    | .ok (pa, _) =>
      if pa < hbmBytes then
        (if l == 1 then s else s.expectL1 (coreOf c) (lineOf pa)).sendNext
          { who := c, op := .load 6, pieces := [{ pa := pa / 128 * 128, len := 8 }], posted := true, last := l == 1, ct := s.ct (coreOf c) }
      else s)

def execPref (l b : BitVec 4) (dc : Bool) (cls : BitVec 4) (off : BitVec 10) (s : State) : Host.Outcome State Fault Refusal :=
  .next (s.prefetch (.pref l b dc cls off) l b off)

/-! LR, SC and the fetch-and-ops. -/

def execLr (d a : BitVec 4) (aq rl dc : Bool) (cls : BitVec 4) (s : State) : Host.Outcome State Fault Refusal :=
  .next (s.access (.lr d a aq rl dc cls) .r true
    { op := .lr, rd := d, va := s.rd a, cls := s.me.cls dc cls, aq := aq, rl := rl })
def execSc (d a b : BitVec 4) (aq rl dc : Bool) (cls : BitVec 4) (s : State) : Host.Outcome State Fault Refusal :=
  .next (s.access (.sc d a b aq rl dc cls) .rw true
    { op := .sc, rd := d, va := s.rd a, val := s.rd b, cls := s.me.cls dc cls, aq := aq, rl := rl })

/-- A fetch-and-op of a function code: posted with RD 0, but for FXCAS (R179, R180). -/
def State.fetchOp (s : State) (i : Instr) (fn : BitVec 4) (d a b : BitVec 4) (aq rl dc : Bool) (cls : BitVec 4) : State :=
  s.access i .rw true
    { op := .fx fn, rd := d, va := s.rd a, size := fxSize fn, val := s.rd b, cmp := s.rd d, cls := s.me.cls dc cls, aq := aq, rl := rl
      posted := d == 0 && fn != 11 }

def execFxswp (d a b : BitVec 4) (aq rl dc : Bool) (cls : BitVec 4) (s : State) : Host.Outcome State Fault Refusal :=
  .next (s.fetchOp (.fxswp d a b aq rl dc cls) 2 d a b aq rl dc cls)
def execFxadd (d a b : BitVec 4) (aq rl dc : Bool) (cls : BitVec 4) (s : State) : Host.Outcome State Fault Refusal :=
  .next (s.fetchOp (.fxadd d a b aq rl dc cls) 3 d a b aq rl dc cls)
def execFxand (d a b : BitVec 4) (aq rl dc : Bool) (cls : BitVec 4) (s : State) : Host.Outcome State Fault Refusal :=
  .next (s.fetchOp (.fxand d a b aq rl dc cls) 4 d a b aq rl dc cls)
def execFxor (d a b : BitVec 4) (aq rl dc : Bool) (cls : BitVec 4) (s : State) : Host.Outcome State Fault Refusal :=
  .next (s.fetchOp (.fxor d a b aq rl dc cls) 5 d a b aq rl dc cls)
def execFxxor (d a b : BitVec 4) (aq rl dc : Bool) (cls : BitVec 4) (s : State) : Host.Outcome State Fault Refusal :=
  .next (s.fetchOp (.fxxor d a b aq rl dc cls) 6 d a b aq rl dc cls)
def execFxmin (d a b : BitVec 4) (aq rl dc : Bool) (cls : BitVec 4) (s : State) : Host.Outcome State Fault Refusal :=
  .next (s.fetchOp (.fxmin d a b aq rl dc cls) 7 d a b aq rl dc cls)
def execFxmax (d a b : BitVec 4) (aq rl dc : Bool) (cls : BitVec 4) (s : State) : Host.Outcome State Fault Refusal :=
  .next (s.fetchOp (.fxmax d a b aq rl dc cls) 8 d a b aq rl dc cls)
def execFxminu (d a b : BitVec 4) (aq rl dc : Bool) (cls : BitVec 4) (s : State) : Host.Outcome State Fault Refusal :=
  .next (s.fetchOp (.fxminu d a b aq rl dc cls) 9 d a b aq rl dc cls)
def execFxmaxu (d a b : BitVec 4) (aq rl dc : Bool) (cls : BitVec 4) (s : State) : Host.Outcome State Fault Refusal :=
  .next (s.fetchOp (.fxmaxu d a b aq rl dc cls) 10 d a b aq rl dc cls)
def execFxcas (d a b : BitVec 4) (aq rl dc : Bool) (cls : BitVec 4) (s : State) : Host.Outcome State Fault Refusal :=
  .next (s.fetchOp (.fxcas d a b aq rl dc cls) 11 d a b aq rl dc cls)
def execAmofadd (d a b : BitVec 4) (aq rl dc : Bool) (cls : BitVec 4) (s : State) : Host.Outcome State Fault Refusal :=
  .next (s.fetchOp (.amofadd d a b aq rl dc cls) 12 d a b aq rl dc cls)

/-- The slice atomics: posted with RD 0 (R386). -/
def State.sliceAtomic (s : State) (i : Instr) (op : MemOp) (size : Nat) (d a b : BitVec 4) (aq rl dc : Bool) (cls : BitVec 4) : State :=
  s.access i .rw true
    { op := op, rd := d, va := s.rd a, size := size, val := s.rd b, cls := s.me.cls dc cls, aq := aq, rl := rl, posted := d == 0 }

def execAmotopk (d a b : BitVec 4) (aq rl dc : Bool) (cls : BitVec 4) (s : State) : Host.Outcome State Fault Refusal :=
  .next (s.sliceAtomic (.amotopk d a b aq rl dc cls) .topk 32 d a b aq rl dc cls)
def execAmobinc (d a b : BitVec 4) (aq rl dc : Bool) (cls : BitVec 4) (s : State) : Host.Outcome State Fault Refusal :=
  .next (s.sliceAtomic (.amobinc d a b aq rl dc cls) .binc 8 d a b aq rl dc cls)

/-- WRS: the grain is Parked at its reservation's home until the reservation is lost. PC is past the WRS already, where an
interrupt or a pre-emption resumes it (R181). -/
def State.wrs (s : State) : State :=
  let c := s.cur
  if s.stage = 1 then
    match s.me.why with
    | .wrs id =>
      match s.me.resv with
      | some pa =>
        let k := s.pointSlice pa
        s.setSlice k { s.slice k with resv := (s.slice k).resv.map (fun r => if r.who == c then { r with wrs := true } else r) }
      | none => s.later 10 ordReply (.replyArrival c { id := id, adv := false })
    | _ => s
  else s.plain .wrs (fun s =>
    match s.me.resv with
    | none => s.setMe s.me.adv
    | some pa =>
      let id := s.token
      (((s.tick1.setMe s.me.adv).park c .parked (.wrs id)).watch c).schedule
        (s.cycle + s.toSlice (clusterOf c) (s.pointSlice pa)) ordLate c 1 .wrs)

def execWrs (s : State) : Host.Outcome State Fault Refusal := .next s.wrs

/-! Full-empty forms. -/

/-- An instruction that waits until its context's store count is zero, and then goes on in that cycle (R137, R189). -/
def State.drained (s : State) (i : Instr) (f : State → State) : State :=
  let c := s.cur
  if !s.me.pend.isEmpty then s.wait c (.drain i)
  else f (match s.me.why with
    | .drain _ => s.wake c
    | _ => s)

/-- A full-empty form of the running context: the last of its 1 + FERC attempts is left parked (R183). -/
def State.fullEmpty (s : State) (i : Instr) (need : Need) (op : MemOp) (rd : BitVec 4) (va v : W64) (cls : BitVec 4) (posted : Bool) : State :=
  s.access i need true
    { op := op, rd := rd, va := va, val := v, cls := cls, posted := posted, last := s.me.ferc.toNat ≤ s.me.feTries }

def execLdfe (t b : BitVec 4) (dc : Bool) (cls : BitVec 4) (off : BitVec 10) (s : State) : Host.Outcome State Fault Refusal :=
  .next (s.fullEmpty (.ldfe t b dc cls off) .fe .ldfe t (effAddr (s.rd b) off 8) 0 (s.me.cls dc cls) false)
def execLdff (t b : BitVec 4) (dc : Bool) (cls : BitVec 4) (off : BitVec 10) (s : State) : Host.Outcome State Fault Refusal :=
  .next (s.fullEmpty (.ldff t b dc cls off) .fe .ldff t (effAddr (s.rd b) off 8) 0 (s.me.cls dc cls) false)
def execStfe (t b : BitVec 4) (dc : Bool) (cls : BitVec 4) (off : BitVec 10) (s : State) : Host.Outcome State Fault Refusal :=
  .next (s.plain (.stfe t b dc cls off) (fun s => s.drained (.stfe t b dc cls off) (fun s =>
    s.fullEmpty (.stfe t b dc cls off) .rw .stfe 0 (effAddr (s.rd b) off 8) (s.rd t) (s.me.cls dc cls) false)))
def execFeset (l b : BitVec 4) (dc : Bool) (cls : BitVec 4) (off : BitVec 10) (s : State) : Host.Outcome State Fault Refusal :=
  .next (s.fullEmpty (.feset l b dc cls off) .rw (.feset (l == 1)) 0 (effAddr (s.rd b) off 8) 0 (s.me.cls dc cls) true)

/-! FENCE. -/

/-- Every lease of an L1 is dropped, and so is every lease on its way to it (R186). -/
def State.dropLeases (s : State) (k : CoreId) : State :=
  s.setCore k { s.core k with dropAt := s.cycle, l1 := (s.core k).l1.filter (fun e => e.2.st != L1State.v) }

/-- FENCE by scope and kind (R186): at once, after the store count is zero, or 16 cycles after that with the leases
dropped. -/
def State.fence (s : State) (scope : BitVec 3) (kind : BitVec 4) (mask : BitVec 16) : State :=
  let i : Instr := .fence scope kind mask
  s.plain i (fun s =>
    let c := s.cur
    if s.stage = 1 then
      (if s.me.why = .timed then ((s.dropLeases (coreOf c)).setMe s.me.adv).wake c else s)
    else
      let w := kind &&& 3 ≠ 0
      let finish (s : State) : State :=
        if scope = 5 then (s.wait c .timed).schedule (s.cycle + 16) ordReply c 1 i
        else s.setMe s.me.adv
      if scope = 0 ∨ (!w ∧ scope ≠ 5) then s.setMe s.me.adv
      else if w then s.drained i finish
      else finish s)

def execFence (scope : BitVec 3) (kind : BitVec 4) (mask : BitVec 16) (s : State) : Host.Outcome State Fault Refusal :=
  .next (s.fence scope kind mask)

/-! GADD and join cells. -/

def execGadd (a b t : BitVec 4) (rl dc : Bool) (cls : BitVec 4) (s : State) : Host.Outcome State Fault Refusal :=
  .next (s.access (.gadd a b t rl dc cls) .rw true
    { op := .gadd t, va := s.rd a, size := gaddSize t, val := s.rd b, cls := s.me.cls dc cls, rl := rl, posted := true })

/-- An access to a join cell, which must lie in scratchpad (R164, R171). -/
def State.joinAccess (s : State) (need : Need) (a : Acc) : State :=
  if !aligned a.va 8 then s.trapMe causeMisaccess 0 a.va
  else s.translateRun a.va 8 need (fun s ps _ =>
    match s.region (ps.headD {}).pa with
    | .scratch _ _ => s.goAcc a ps
    | _ => s.trapMe causeScratch 0 a.va)

def execJoin (a : BitVec 4) (s : State) : Host.Outcome State Fault Refusal :=
  .next (s.plain (.join a) (fun s => s.drained (.join a) (fun s =>
    s.joinAccess .rw { op := .join, va := s.rd a, aq := true, rl := true })))
def execJwait (a : BitVec 4) (s : State) : Host.Outcome State Fault Refusal :=
  .next (s.plain (.jwait a) (fun s => s.joinAccess .r { op := .jwait, va := s.rd a, aq := true }))

end Sys2Proof.Machine
end

