-- ==== Sys2Proof/Machine/System.lean ====
section
/-!
DEFINITION. The system instructions (R134 to R137), the illegal-instruction trap (R78) and the steward's trap entry (R407).
-/

namespace Sys2Proof.Machine

def execNop (s : State) : Host.Outcome State Fault Refusal := .next (s.plain .nop (fun s => s.setMe s.me.adv))

/-- A trap whose resume address is past the instruction (R135). -/
def State.trapPast (s : State) (cause : BitVec 8) (v : W64) : State :=
  s.takeTrap s.cur { cause := cause, tia := s.me.pc, tepc := s.me.pc + 4, tval := v }

def execScall (a : BitVec 4) (s : State) : Host.Outcome State Fault Refusal :=
  .next (s.plain (.scall a) (fun s => s.trapPast causeSyscall (s.rd a)))
def execTrap (a b : BitVec 4) (s : State) : Host.Outcome State Fault Refusal :=
  .next (s.plain (.trap a b) (fun s =>
    if s.rd a = 0 then s.setMe s.me.adv else s.trapPast causeProgram (s.rd b)))
def execSret (s : State) : Host.Outcome State Fault Refusal :=
  .next (s.plain .sret (fun s => if s.privOf s.cur then s.sret else s.trapPriv .sret))

/-- IDLE once its stores are acknowledged: PC moves past it, and the context ends, takes the next message, or waits for an
event that is not already there (R137). -/
def State.idleDone (s : State) : State :=
  let c := s.cur
  let s := (s.setMe s.me.adv).idleAct c
  if isSteward c ∧ (s.pendingEvent (coreOf c) ∨ !(s.core (coreOf c)).tfQ.isEmpty) then s.stewardEvent (coreOf c) else s

def execIdle (s : State) : Host.Outcome State Fault Refusal :=
  .next (s.plain .idle (fun s => s.drained .idle State.idleDone))

/-- A word of R78 takes the illegal-instruction trap (R78). -/
def State.doIllegal (s : State) (w : W32) : State := s.trapMe causeIllegal 0 (zx w)

def execIllegalInstruction (s : State) : Host.Outcome State Fault Refusal :=
  .next (match s.ev with
    | .illegalInstruction w => s.doIllegal w
    | _ => s)

/-- A pending event takes the steward into its trap entry while EIE is 1 and INH is 0 (R407). -/
def State.doTrapEntry (s : State) (k : CoreId) : State :=
  if s.pendingEvent k ∧ (s.core k).eie ∧ !(s.core k).inh then s.enterTrapEntry k (s.ctx (stewardOf k)).pc else s

def execTrapEntry (s : State) : Host.Outcome State Fault Refusal :=
  .next (match s.ev with
    | .trapEntry k => s.doTrapEntry k
    | _ => s)

end Sys2Proof.Machine
end

