-- ==== Sys2Proof/Machine/Bolts.lean ====
section
/-!
DEFINITION. Bolts: the pool and its controller, opening, sealing, posting, release, and the bolt instructions (R268 to R289).
-/

namespace Sys2Proof.Machine

/-! Instructions served at another unit: at issue their request is sent, and they are performed where it arrives. -/

/-- The request of an instruction leaves its core; its grain waits for the reply (R142). -/
def State.sendUnit (s : State) (i : Instr) (delay ord : Nat) (sig : List Nat) : State :=
  let c := s.cur
  let id := s.token
  let s := s.tick1.wait c (.reply id)
  s.port c { sig := (wordOfInstr i).toNat :: sig, id := id, delay := delay, ord := ord, stage := 1, instr := some i }

/-- At issue the request is sent; at the unit, the instruction is performed if its grain still waits for it. -/
def State.atUnit (s : State) (i : Instr) (delay ord : Nat) (sig : List Nat) (f : State → State) : State :=
  if s.stage = 0 then s.sendUnit i delay ord sig
  else match s.me.why with
    | .reply _ => f s
    | _ => s

/-- The token of the reply that a context waits for; 0 for none. -/
def Ctx.token (x : Ctx) : Nat :=
  match x.why with
  | .reply id => id
  | .parked id => id
  | .unit id => id
  | _ => 0

/-- A unit's reply to the context that waits for it. -/
def State.unitReply (s : State) (c : CtxId) (delay : Nat) (r : Reply) : State :=
  let id := (s.ctx c).token
  if id = 0 then s else s.later delay ordReply (.replyArrival c { r with id := id, did := true })

/-! Handles and entries (R272, R273). -/

/-- What a handle names. -/
inductive HandleIs where
  | bad
  | stale (cl : ClusterId) (e : Nat)
  | cur (cl : ClusterId) (e : Nat) (b : Bolt)

/-- Look a handle up on a die (R272); bits [7:6] are zero in every handle (log entry 15). -/
def State.handle (s : State) (die : Nat) (h : BitVec 32) : HandleIs :=
  let cl := 256 * die + h.toNat / 2 ^ 24
  let e := h.toNat % 64
  if h.toNat / 64 % 4 ≠ 0 ∨ !s.clusterValid cl then .bad
  else
    let b := (s.cluster cl).bolt e
    if b.st = .free ∨ b.gen ≠ h.extractLsb' 8 16 then .stale cl e else .cur cl e b

/-- Replace an entry. -/
def State.setBolt (s : State) (cl : ClusterId) (e : Nat) (b : Bolt) : State :=
  s.setCluster cl { s.cluster cl with bolts := Tab.set (s.cluster cl).bolts e b }

/-- The handle of an entry (R272). -/
def handleOf (cl e : Nat) (b : Bolt) : BitVec 32 := BitVec.ofNat 8 cl ++ b.gen ++ 0#2 ++ BitVec.ofNat 6 e

/-- Valid rows of a bolt. -/
def Bolt.nValid (b : Bolt) : Nat := ((List.range 128).filter (fun i => b.valid.getLsbD i)).length

/-- State code of R273. -/
def BoltState.code : BoltState → Nat
  | .free => 0
  | .open_ => 1
  | .sealed_ => 2
  | .held => 3
  | .deferred => 4
  | .done => 5

/-- Cycles left on the timer (R289). -/
def State.timeLeft (s : State) (b : Bolt) : Nat := if b.isOpen then min 65535 (b.expiry - s.cycle) else 0

/-! Posting (R280). -/

/-- A Loom's declared work. -/
def Loom.declared (x : Loom) : Nat := (x.work.map (·.2)).sum

/-- The Looms that a bolt is steered to, in quad position. -/
def State.steered (s : State) (cl : ClusterId) (b : Bolt) : List ClusterId :=
  (List.range 4).filterMap (fun k => if b.steer.getLsbD k then s.quadCluster (s.quadOf cl) k else none)

/-- The Loom that takes a bolt's handle: least declared work with a free place, lowest position on a tie. -/
def State.postTarget (s : State) (cl : ClusterId) (b : Bolt) : Option ClusterId :=
  ((s.steered cl b).filter (fun l => (s.loom l).k.boltQ.length < 16)).foldl (fun best l =>
    match best with
    | none => some l
    | some m => if (s.loom l).declared < (s.loom m).declared then some l else some m) none

/-- Post a bolt's handle when some named queue has a place. -/
def State.postBolt (s : State) (cl e : Nat) : State :=
  let b := (s.cluster cl).bolt e
  match s.postTarget cl b with
  | none => s
  | some l =>
    let h := handleOf cl e b
    let x := s.loom l
    let s := s.setLoom l { x with work := x.work ++ [(h, b.work)], k := { x.k with boltQ := x.k.boltQ ++ [(h, s.cycle)] } }
    s.setBolt cl e { b with posted := true, loom := l }

/-- The bolts of a quad whose handles wait to be posted, in the order of their seals or openings. -/
def State.unposted (s : State) (q : SliceId) : List (Nat × ClusterId × Nat) :=
  let all := (List.range 4).flatMap (fun k =>
    match s.quadCluster q k with
    | none => []
    | some cl => (s.cluster cl).bolts.filterMap (fun (e, b) =>
        if !b.posted ∧ (b.st = .sealed_ ∨ (b.out ∧ (b.st = .open_ ∨ b.st = .done))) then some (b.sealNo, cl, e) else none))
  all.foldl (fun l x => l.takeWhile (fun y => y.1 ≤ x.1) ++ x :: l.dropWhile (fun y => y.1 ≤ x.1)) []

/-- A place of a Loom's queue has become free: unposted bolts of its quad are posted in order (R280). -/
def State.doBoltPost (s : State) (l : ClusterId) : State :=
  (s.unposted (s.quadOf l)).foldl (fun s (_, cl, e) => s.postBolt cl e) s

/-! Freeing (R274). -/

/-- Cycles between a controller and a core, one way (R286). -/
def State.toController (s : State) (c : CtxId) (cl : ClusterId) : Nat := 4 + s.dist (clusterOf c) cl

/-- The BWAITs parked on a handle are woken (R274). -/
def State.wakeBwaits (s : State) (cl : ClusterId) (h : BitVec 32) : State :=
  let x := s.cluster cl
  let s := s.setCluster cl { x with bwaits := x.bwaits.filter (fun w => w.2.2.1 != h) }
  (x.bwaits.filter (fun w => w.2.2.1 == h)).foldl (fun s (c, rd, _, id) =>
    s.later (s.toController c cl) ordReply (.replyArrival c { id := id, rd := rd, wr := true })) s

/-- An entry becomes FREE: its pages return, its generation rises, and its BWAITs are woken (R274). -/
def State.dropBolt (s : State) (cl e : Nat) : State :=
  let b := (s.cluster cl).bolt e
  (s.setCluster cl { s.cluster cl with bolts := Tab.set (s.cluster cl).bolts e b.freed }).wakeBwaits cl (handleOf cl e b)

/-- An entry becomes FREE, and waiting BOPENs are served at a cycle given (R274, R279). -/
def State.freeBolt (s : State) (cl e served : Nat) : State :=
  let s := s.dropBolt cl e
  if (s.cluster cl).openQ.isEmpty then s else s.eventAt served 160001 (.bopenServe cl)

/-! Writes by units, as one step where the line is quiet and through its home otherwise (R281; log entry 10). -/

/-- A unit's bytes of one line are written at device scope, or up to eight of them are sent to the home where they cannot be written
now; under `full` a whole word becomes full (R281, R298). -/
def State.unitStore (s : State) (full : Bool) (pa : Nat) (bs : List Byte) : State :=
  match s.region pa with
  | .host port => s.send (.hostStore port pa bs)
  | .peer k => s.tick1.linkOut (4096 * s.dev.chip.toNat) (s.peerChip k) s.token (.store pa bs 0)
  | .none => s
  | _ =>
    if s.cohReady pa bs.length then (if full then s.cohPut pa bs else s.cohWrite pa bs 0 none)
    else
      let r : Req := { op := if full then .put else .store, pieces := splitLines pa bs.length, val := BitVec.ofNat 64 (leNat bs), posted := true }
      if pa < hbmBytes then s.now (.homeStore r) else s.later 1 500 (.bankAccess r)

/-! Sealing (R278, R281, R419). -/

/-- A held output bolt that neither its timer nor pressure seals: its weave's checkpointing is armed (R419). -/
def State.guarded (s : State) (h : BitVec 32) (b : Bolt) : Bool :=
  b.out && (s.loom b.loom).ck.armed && (b.later == 3 || (s.loom b.loom).k.held.any (fun x => x.h == h))

/-- The Loom that holds or would receive an output bolt. -/
def State.boltLoom (s : State) (cl : ClusterId) (b : Bolt) : ClusterId :=
  if b.posted then b.loom else (s.steered cl b).headD cl

/-- The notify word of an output bolt, with its word set full; refused, it counts in the Loom's EVC6 (R281, R282). -/
def State.notify (s : State) (cl e : Nat) (b : Bolt) : State :=
  let v : W64 := fields [(63, 1), (40, b.cause.toNat), (32, b.nValid), (0, (handleOf cl e b).toNat)]
  if (s.refusedByte b.notify 8).isSome then s.countLoom (s.boltLoom cl b) 6 1 else s.unitStore true b.notify (leBytes 8 v.toNat)

/-- Seal an OPEN bolt with a cause. -/
def State.sealNow (s : State) (cl e : Nat) (cause : BitVec 2) : State :=
  let b := (s.cluster cl).bolt e
  let b := { b with cause := cause, st := if b.out then .done else .sealed_, later := 0
                    sealNo := if b.out then b.sealNo else s.fresh }
  let s := s.tick1.setBolt cl e b
  if b.out then s.notify cl e b else s.postBolt cl e

/-- The timer of an OPEN bolt expires; an expiry under armed checkpointing takes effect at the commit (R278, R419). -/
def State.expire (s : State) (cl e : Nat) : State :=
  let b := (s.cluster cl).bolt e
  if s.guarded (handleOf cl e b) b then s.setBolt cl e { b with later := 1 } else s.sealNow cl e 1

/-- A bolt's timer event (R278); the token names the timer's present run. -/
def State.doBoltTimerExpiry (s : State) (cl e token : Nat) : State :=
  let b := (s.cluster cl).bolt e
  if b.token = token ∧ b.isOpen ∧ b.expiry ≤ s.cycle then s.expire cl e else s

/-! Opening (R275, R276, R279, R287). -/

/-- The shape's fields that are zero are zero, its format has a width, and the pool is long enough (R270, R287). -/
def shapeOk (shape : W64) (npages : Nat) : Bool :=
  shape.toNat / 2 ^ 20 == 0 && !shape.getLsbD 15 && !shape.getLsbD 7 && (shape.extractLsb' 16 4).toNat < 7
    && pagesOf (shape.extractLsb' 16 4).toNat ((shape.extractLsb' 8 7).toNat + 1) ((shape.extractLsb' 0 7).toNat + 1) ≤ npages

/-- The control word of a BOPEN is accepted (R275, R287). -/
def State.ctlOk (s : State) (cl : ClusterId) (ctl : W64) (notifyAligned : Bool) : Bool :=
  let steer := ctl.extractLsb' 16 4
  let named := (List.range 4).filter (fun k => steer.getLsbD k)
  ctl.toNat / 2 ^ 32 == 0 && ctl.extractLsb' 21 3 == 0#3 && ctl.extractLsb' 0 16 != 0#16 && steer != 0
    && named.all (fun k => (s.quadCluster (s.quadOf cl) k).isSome)
    && (!ctl.getLsbD 20 || (named.length == 1 && notifyAligned))

/-- The failure code of a BOPEN; 0 for none (R287). -/
def State.openCode (s : State) (cl : ClusterId) (shape ctl : W64) (notifyAligned : Bool) : Nat :=
  let x := s.cluster cl
  if !x.bpEn then 1
  else if !shapeOk shape x.bpN.toNat then 2
  else if !s.ctlOk cl ctl notifyAligned then 3
  else 0

/-- First page of the lowest run of n free pool pages (R276). -/
def Cluster.firstFit (x : Cluster) (n : Nat) : Option Nat :=
  let base := x.bpBase.toNat
  ((List.range (x.bpN.toNat + 1 - n)).map (base + ·)).find? (fun p =>
    !x.bolts.any (fun e => e.2.st != .free && e.2.page < p + n && p < e.2.page + e.2.npages))

/-- Lowest FREE entry (R276). -/
def Cluster.freeEntry (x : Cluster) : Option Nat := (List.range 64).find? (fun e => (x.bolt e).st == .free)

/-- Open a bolt when an entry and a run of pages are free. -/
def State.tryOpen (s : State) (cl : ClusterId) (q : OpenReq) : Option (State × W64) :=
  let x := s.cluster cl
  let fmt := q.shape.extractLsb' 16 4
  let elems := (q.shape.extractLsb' 8 7).toNat + 1
  let rows := (q.shape.extractLsb' 0 7).toNat + 1
  let n := pagesOf fmt.toNat elems rows
  match x.freeEntry, x.firstFit n with
  | some e, some page =>
    let tok := s.token
    let no := s.fresh
    let b : Bolt := {
      st := .open_, gen := (x.bolt e).gen, fmt := fmt, elems := elems, rows := rows, out := q.ctl.getLsbD 20
      steer := q.ctl.extractLsb' 16 4, work := (q.ctl.extractLsb' 24 8).toNat, page := page, npages := n
      expiry := s.cycle + (q.ctl.extractLsb' 0 16).toNat, token := tok, opened := no, sealNo := no
      notify := q.notify, slot := q.slot }
    let s := (s.tick1.setBolt cl e b).eventAt b.expiry 160000 (.boltTimerExpiry cl e tok)
    let s := if b.out then s.postBolt cl e else s
    some (s, BitVec.ofNat 64 (page * 4096 * 2 ^ 32 + (handleOf cl e b).toNat))
  | _, _ => none

/-- A BOPEN that succeeds answers its grain, or goes on in the block sequencer. -/
def State.answerOpen (s : State) (cl : ClusterId) (q : OpenReq) (v : W64) : State :=
  match q.who with
  | some c => s.later (s.toController c cl) ordReply (.replyArrival c { id := q.id, rd := q.rd, wr := true, val := v, did := true })
  | none => s.now (.walkOpenServed cl (v.setWidth 32))

/-- Serve waiting BOPENs in arrival order until one does not fit (R279). -/
def State.serveOpens (s : State) (cl : ClusterId) : Nat → State
  | 0 => s
  | n + 1 =>
    match (s.cluster cl).openQ with
    | [] => s
    | q :: t =>
      match s.tryOpen cl q with
      | none => s
      | some (s, v) =>
        let s := s.setCluster cl { s.cluster cl with openQ := t }
        let s := if t.isEmpty then s.unschedule (fun e => e.act == .ev (.pressureSeal cl)) else s
        (s.answerOpen cl q v).serveOpens cl n

/-- A place or a page has become free (R279). -/
def State.doBopenServe (s : State) (cl : ClusterId) : State := s.serveOpens cl ((s.cluster cl).openQ.length + 1)

/-- Oldest OPEN bolt of a pool that pressure may seal (R279, R419). -/
def State.oldestOpen (s : State) (cl : ClusterId) : Option Nat :=
  let l := (s.cluster cl).bolts.filter (fun (e, b) => b.isOpen && !s.guarded (handleOf cl e b) b)
  (l.foldl (fun (best : Option (Nat × Nat)) (e, b) =>
    match best with
    | none => some (b.opened, e)
    | some (o, f) => if b.opened < o then some (b.opened, e) else some (o, f)) none).map (·.2)

/-- The check of a pool with a waiting BOPEN: what can be served is served, else the oldest OPEN bolt is sealed, and the
check comes again after 64 cycles (R279). -/
def State.doPressureSeal (s : State) (cl : ClusterId) : State :=
  let s := s.doBopenServe cl
  if (s.cluster cl).openQ.isEmpty then s
  else
    let s := match s.oldestOpen cl with
      | some e => s.sealNow cl e 2
      | none => s
    s.later 64 160001 (.pressureSeal cl)

/-- A BOPEN that has passed its checks: opened at once, or left waiting behind those before it (R279). -/
def State.openOrWait (s : State) (cl : ClusterId) (q : OpenReq) : State :=
  let x := s.cluster cl
  let wait (s : State) : State :=
    let s := s.setCluster cl { s.cluster cl with openQ := (s.cluster cl).openQ ++ [q] }
    if x.openQ.isEmpty then s.later 0 160001 (.pressureSeal cl) else s
  if x.openQ.isEmpty then
    match s.tryOpen cl q with
    | some (s, v) => s.answerOpen cl q v
    | none => wait s
  else wait s

/-- A status with the failure bit (R287). -/
def failCode (n : Nat) : W64 := BitVec.ofNat 64 (2 ^ 63 + n)

/-- Place of a bolt instruction's request in its cycle (R283). -/
def ordBolt (c : CtxId) : Nat := 90000 + c

/-- BOPEN (R275, R276, R287). -/
def State.bopen (s : State) (i : Instr) (d a b n : BitVec 4) : State :=
  let c := s.cur
  let cl := clusterOf c
  let out := (s.rd b).getLsbD 20
  let send (s : State) : State :=
    (s.sendUnit i 4 (ordBolt c) [(s.rd a).toNat, (s.rd b).toNat, if out then (s.rd n).toNat else 0]).watch c
  if s.stage = 0 then
    s.plain i (fun s =>
      if out ∧ aligned (s.rd n) 8 then
        s.translate (s.rd n) .w (fun s pa _ => send (s.setMe { s.me with load := some { pieces := [{ pa := pa, len := 8 }] } }))
      else send s)
  else
    match s.me.why with
    | .reply id =>
      let code := s.openCode cl (s.rd a) (s.rd b) (aligned (s.rd n) 8)
      let pa := match s.me.load with
        | some r => (r.pieces.headD {}).pa
        | none => 0
      if code ≠ 0 then s.unitReply c 4 { rd := d, wr := true, val := failCode code }
      else s.openOrWait cl { who := some c, id := id, cl := cl, rd := d, shape := s.rd a, ctl := s.rd b, notify := pa, slot := s.slotOf c }
    | _ => s

/-! The other bolt instructions (R288, R289). -/

/-- The cluster whose controller a handle's request goes to; a bad handle's request goes to the grain's own. -/
def State.handleCluster (s : State) (c : CtxId) (h : W64) : ClusterId :=
  match s.handle (dieOf c) (h.setWidth 32) with
  | .bad => clusterOf c
  | .stale cl _ => cl
  | .cur cl _ _ => cl

/-- A bolt instruction on a handle: its request, and at the controller the effect with the value for gD. -/
def State.boltInstr (s : State) (i : Instr) (ord : Nat) (d h : BitVec 4) (sig : List Nat) (f : State → HandleIs → State × W64) : State :=
  let c := s.cur
  let cl := s.handleCluster c (s.rd h)
  s.atUnit i (s.toController c cl) ord ((s.rd h).toNat :: sig) (fun s =>
    let (s, v) := f s (s.handle (dieOf c) ((s.rd h).setWidth 32))
    s.unitReply c (s.toController c cl) { rd := d, wr := true, val := v })

/-- BVALID on a handle (R288). -/
def State.markValid (s : State) (g : W64) : HandleIs → State × W64
  | .cur cl e b =>
    if b.out then (s, 3)
    else if !b.isOpen then (s, 1)
    else
      let f := (g.extractLsb' 0 7).toNat
      let n := (g.extractLsb' 8 7).toNat + 1
      let m : BitVec 128 := BitVec.ofNat 128 ((List.range 128).foldl (fun a r => if f ≤ r ∧ r < f + n ∧ r < b.rows then a + 2 ^ r else a) 0)
      (s.setBolt cl e { b with valid := b.valid ||| m }, 0)
  | _ => (s, 2)

/-- SEAL on a handle (R288). -/
def State.sealHandle (s : State) : HandleIs → State × W64
  | .cur cl e b => if b.isOpen then (s.sealNow cl e 0, 0) else (s, 1)
  | _ => (s, 2)

/-- BABORT on a handle (R288). -/
def State.abortHandle (s : State) : HandleIs → State × W64
  | .cur cl e b => if (!b.out && b.isOpen) || (b.out && b.st == .done) then (s.freeBolt cl e s.cycle, 0) else (s, 1)
  | _ => (s, 2)

/-- BTIME on a handle (R288). -/
def State.timeHandle (s : State) (t : W64) : HandleIs → State × W64
  | .cur cl e b =>
    if !b.isOpen then (s, failCode 1)
    else
      let old : W64 := BitVec.ofNat 64 (s.timeLeft b)
      let n := (t.extractLsb' 0 16).toNat
      let tok := s.token
      let s := s.tick1.setBolt cl e { b with expiry := s.cycle + n, token := tok }
      if n = 0 then (s.expire cl e, old) else (s.eventAt (s.cycle + n) 160000 (.boltTimerExpiry cl e tok), old)
  | _ => (s, failCode 2)

/-- The state word of BQUERY (R289). -/
def State.queryWord (s : State) : HandleIs → W64
  | .cur _ _ b =>
    fields [(32, b.gen.toNat), (16, s.timeLeft b), (8, b.nValid), (6, if b.isOpen then 0 else b.cause.toNat), (5, b.posted.toNat)
          , (4, b.popped.toNat), (0, b.st.code)]
  | .stale cl e => fields [(32, ((s.cluster cl).bolt e).gen.toNat)]
  | .bad => -1

/-- The row masks of BQUERY (R289). -/
def queryMask (high : Bool) : HandleIs → W64
  | .cur _ _ b => if high then b.valid.extractLsb' 64 64 else b.valid.setWidth 64
  | .stale _ _ => 0
  | .bad => -1

/-- BWAIT: parked at the controller while the handle is current (R288). -/
def State.bwait (s : State) (i : Instr) (d h : BitVec 4) : State :=
  let c := s.cur
  let cl := s.handleCluster c (s.rd h)
  s.atUnit i (s.toController c cl) (ordBolt c) [(s.rd h).toNat] (fun s =>
    match s.handle (dieOf c) ((s.rd h).setWidth 32) with
    | .bad => s.unitReply c (s.toController c cl) { rd := d, wr := true, val := 2 }
    | .stale _ _ => s.unitReply c (s.toController c cl) { rd := d, wr := true }
    | .cur cl _ _ =>
      let id := s.me.token
      let s := s.setCluster cl { s.cluster cl with bwaits := (s.cluster cl).bwaits ++ [(c, d, (s.rd h).setWidth 32, id)] }
      (s.park c .parked (.parked id)).watch c)

def execBopen (d a b c : BitVec 4) (s : State) : Host.Outcome State Fault Refusal := .next (s.bopen (.bopen d a b c) d a b c)
def execBvalid (d a b : BitVec 4) (s : State) : Host.Outcome State Fault Refusal :=
  let go (s : State) : State := s.boltInstr (.bvalid d a b) (1000 + s.cur) d a [(s.rd b).toNat] (fun s h => s.markValid (s.rd b) h)
  .next (if s.stage = 0 then s.plain (.bvalid d a b) (fun s => s.drained (.bvalid d a b) go) else go s)
def execSealBolt (d a : BitVec 4) (s : State) : Host.Outcome State Fault Refusal :=
  let go (s : State) : State := s.boltInstr (.sealBolt d a) (ordBolt s.cur) d a [] State.sealHandle
  .next (if s.stage = 0 then s.plain (.sealBolt d a) (fun s => s.drained (.sealBolt d a) go) else go s)
def execBqueryStatus (d a : BitVec 4) (s : State) : Host.Outcome State Fault Refusal :=
  .next (s.plain (.bqueryStatus d a) (fun s =>
    s.boltInstr (.bqueryStatus d a) (ordBolt s.cur) d a [] (fun s h => (s, s.queryWord h))))
def execBqueryMaskLow (d a : BitVec 4) (s : State) : Host.Outcome State Fault Refusal :=
  .next (s.plain (.bqueryMaskLow d a) (fun s =>
    s.boltInstr (.bqueryMaskLow d a) (ordBolt s.cur) d a [] (fun s h => (s, queryMask false h))))
def execBqueryMaskHigh (d a : BitVec 4) (s : State) : Host.Outcome State Fault Refusal :=
  .next (s.plain (.bqueryMaskHigh d a) (fun s =>
    s.boltInstr (.bqueryMaskHigh d a) (ordBolt s.cur) d a [] (fun s h => (s, queryMask true h))))
def execBabort (d a : BitVec 4) (s : State) : Host.Outcome State Fault Refusal :=
  .next (s.plain (.babort d a) (fun s => s.boltInstr (.babort d a) (ordBolt s.cur) d a [] State.abortHandle))
def execBwait (d a : BitVec 4) (s : State) : Host.Outcome State Fault Refusal :=
  .next (s.plain (.bwait d a) (fun s => s.bwait (.bwait d a) d a))
def execBtime (d a b : BitVec 4) (s : State) : Host.Outcome State Fault Refusal :=
  .next (s.plain (.btime d a b) (fun s =>
    s.boltInstr (.btime d a b) (ordBolt s.cur) d a [(s.rd b).toNat] (fun s h => s.timeHandle (s.rd b) h)))

def execBoltTimerExpiry (s : State) : Host.Outcome State Fault Refusal :=
  .next (match s.ev with
    | .boltTimerExpiry cl e tok => s.doBoltTimerExpiry cl e tok
    | _ => s)
def execPressureSeal (s : State) : Host.Outcome State Fault Refusal :=
  .next (match s.ev with
    | .pressureSeal cl => s.doPressureSeal cl
    | _ => s)
def execBopenServe (s : State) : Host.Outcome State Fault Refusal :=
  .next (match s.ev with
    | .bopenServe cl => s.doBopenServe cl
    | _ => s)
end Sys2Proof.Machine
end

