-- ==== Sys2Proof/Machine/Array.lean ====
section
/-!
DEFINITION. The array of a Loom: products, accumulation and drains of one column at one beat (R58 to R61, R214 to R222), and
the B-store (R223, R224).
-/

namespace Sys2Proof.Machine

/-! B-store (R223). -/

/-- Address of entry a of slice j of a Loom's B-store. -/
def bEntryAt (l : ClusterId) (j a : Nat) : Nat := windowBase l + 0x300000 + 4 * (2048 * j + a)
/-- Entry a of slice j. -/
def State.bEntry (s : State) (l : ClusterId) (j a : Nat) : W32 := BitVec.ofNat 32 (leNat (Memory.read s.mem (bEntryAt l j a) 4))
/-- Row a: entry a of every slice. -/
def State.bRow (s : State) (l : ClusterId) (a : Nat) : Vec := (List.range 128).map (fun j => s.bEntry l j a)
/-- Write row a. -/
def State.putBRow (s : State) (l : ClusterId) (a : Nat) (v : Vec) : State :=
  (List.range 128).foldl (fun s j =>
    { s with mem := Memory.write s.mem (bEntryAt l j a) (leBytes 4 (Vec.lane v j).toNat) }) s

/-! Lanes and entries (R216, R217). -/

/-- A codes of a lane in k order, and its block-scale byte. -/
def laneCodes (fmt sparse : Nat) (a : Nat) : List Nat × Nat :=
  match fmt with
  | 4 => ((List.range (if sparse = 0 then 2 else 4)).map (fun k => a / 2 ^ (4 * k) % 16), a / 2 ^ (if sparse = 0 then 8 else 16) % 256)
  | 1 => ([a % 65536], 0)
  | _ => ((List.range (if sparse = 0 then 1 else 4)).map (fun k => a / 2 ^ (8 * k) % 256), 0)

/-- The pairs of A code and B code that a cell multiplies. -/
def cellPairs (fmt sparse : Nat) (a b : Nat) : List (Nat × Nat) :=
  let ac := (laneCodes fmt sparse a).1
  let w := fmtWidth fmt
  let bc (k : Nat) : Nat := b / 2 ^ (w * k) % 2 ^ w
  match sparse with
  | 0 => ac.zipIdx.map (fun (x, k) => (x, bc k))
  | 1 => [(ac.getD (b / 2 ^ 16 % 4) 0, bc 0), (ac.getD (b / 2 ^ 18 % 4) 0, bc 1)]
  | _ => [(ac.getD (b / 2 ^ 16 % 4) 0, bc 0)]

/-- A code's exact value under its block scale, when scales are used; every code of a block with scale 0x00 is +0 (R39, R57,
R58). -/
def scaledVal (fmt : Nat) (scale : Option Nat) (c : Nat) : FVal :=
  match scale with
  | none => (fmtOf fmt).val c
  | some 0 => .num false 0 0
  | some s => (((fmtOf fmt).val c).mul (e3m5.val s)).1

/-- One beat of a floating-point cell: the exact sum of its products, added to the accumulator with one rounding (R58). -/
def cellFloat (p : BitVec 12) (acc : Nat) (a b : Nat) : Nat × Conds :=
  let fmt := plFmt p
  let use := plScale p = 1
  let sa := if use then some (laneCodes fmt (plSparse p) a).2 else none
  let sb := if use then some (b / 2 ^ 8 % 256) else none
  let prods := (cellPairs fmt (plSparse p) a b).map (fun (x, y) =>
    let u := scaledVal fmt sa x
    let v := scaledVal fmt sb y
    let (m, c) := u.mul v
    (m, c ||| sigConds [u, v]))
  let k0 : Conds := prods.foldl (fun c q => c ||| q.2) 0
  let sum : FVal × Conds := match prods with
    | [] => (.num false 0 0, 0)
    | q :: t => t.foldl (fun (s, c) r => let (z, c') := s.add rne r.1; (z, c ||| c')) (q.1, 0)
  let z := fp32.val acc
  let (t, k1) := z.add rne sum.1
  let (o, k2) := roundVal fp32 {} t
  (o, k0 ||| sum.2 ||| k1 ||| k2 ||| sigConds [z])

/-- One beat of an INT8 cell: the exact sum added to an INT32 that saturates (R60). -/
def cellInt (p : BitVec 12) (acc : Nat) (a b : Nat) : Nat × Conds :=
  let sum := (cellPairs 5 (plSparse p) a b).foldl (fun (n : Int) (x, y) => n + toSigned 8 x * toSigned 8 y) 0
  let t := toSigned 32 acc + sum
  let lo : Int := -(2 ^ 31)
  let hi : Int := 2 ^ 31 - 1
  let v := if t < lo then lo else if t > hi then hi else t
  ((BitVec.ofInt 32 v).toNat, condIf (t < lo ∨ t > hi) cOverflow)

/-- One beat of a cell under a payload. -/
def cellBeat (p : BitVec 12) (acc : Nat) (a b : Nat) : Nat × Conds :=
  if plFmt p = 5 then cellInt p acc a b else cellFloat p acc a b

/-- One cell drained (R61). -/
def cellDrain (p : BitVec 12) (sa sb : Nat) (acc : Nat) : Nat × Conds :=
  if plScale p = 2 then
    let u := bf16.val sa
    let v := bf16.val sb
    let z : FVal := if plFmt p = 5 then
        let i := toSigned 32 acc
        .num (i < 0) i.natAbs 0
      else fp32.val acc
    let (x, k1) := z.mul u
    let (y, k2) := x.mul v
    let (o, k3) := roundVal fp32 {} y
    (o, k1 ||| k2 ||| k3 ||| sigConds [z, u, v])
  else (acc, 0)

/-! Counting conditions by lanes or cells (R66). -/

/-- How many of a list of condition sets raise each of the sixteen conditions. -/
def condCounts (l : List Conds) : List Nat := (List.range 16).map (fun i => (l.filter (fun c => c.getLsbD i)).length)
/-- The counts are added to a Loom's counters. -/
def State.countLanes (s : State) (l : ClusterId) (cs : List Nat) : State :=
  cs.zipIdx.foldl (fun s (n, i) => s.countLoom l i n) s

/-! The Loom's own part of the state. -/

/-- The registers, queues and array of a Loom. -/
def State.lk (s : State) (l : ClusterId) : LoomCore := (s.loom l).k
/-- Replace them. -/
def State.setLk (s : State) (l : ClusterId) (k : LoomCore) : State := s.setLoom l { s.loom l with k := k }
/-- Loom time of the bundle being performed (R195). -/
def LoomCore.now (k : LoomCore) : Nat := k.time - 1

/-! The array's beat (R214, R218 to R220). -/

/-- A BF16 accumulate wavefront, which takes two beats at each column (R219). -/
def Wave.twoBeats (w : Wave) : Bool := w.kind != .drain && plFmt w.fmt == 1

/-- Column of the wavefront at a beat; a BF16 wavefront adds one beat later (R219). -/
def Wave.column (w : Wave) (n : Nat) : Option Nat :=
  let t := if w.twoBeats then w.t0 + 1 else w.t0
  if t ≤ n ∧ n < t + 128 then some (n - t) else none

/-- One wavefront acts on the column that it has reached; the entry of a BF16 wavefront is the one it read a beat before (R214,
R219). -/
def State.waveBeat (s : State) (l : ClusterId) (n : Nat) (w : Wave) : State :=
  match w.column n with
  | none => s
  | some j =>
    let k := s.lk l
    let col := Tab.get Vec.zero k.acc j
    match w.kind with
    | .drain =>
      let out := (List.range 128).map (fun i =>
        cellDrain w.fmt ((w.sa.extractLsb' (16 * (i / 64)) 16).toNat) ((w.sb.extractLsb' (16 * (j / 64)) 16).toNat) (Vec.lane col i).toNat)
      let s := s.setLk l { k with
        acc := Tab.set k.acc j Vec.zero
        drain := k.drain ++ [{ at_ := n + 4, j := j, vals := out.map (fun o => BitVec.ofNat 32 o.1) }] }
      s.countLanes l (condCounts (out.map (·.2)))
    | _ =>
      let b := (if w.twoBeats then w.b else s.bEntry l j w.row).toNat
      let out := (List.range 128).map (fun i =>
        cellBeat w.fmt (if w.kind = .zacc then 0 else (Vec.lane col i).toNat) (Vec.lane w.a i).toNat b)
      let s := s.setLk l { k with acc := Tab.set k.acc j (out.map (fun o => BitVec.ofNat 32 o.1)) }
      s.countLanes l (condCounts (out.map (·.2)))

/-- A BF16 wavefront reads the entry of the column that it reaches at a beat (R214). -/
def State.waveRead (s : State) (l : ClusterId) (n : Nat) (w : Wave) : Wave :=
  if w.twoBeats && w.t0 ≤ n && n < w.t0 + 128 then { w with b := s.bEntry l (n - w.t0) w.row } else w

/-- The wavefront has passed column 127 at a beat. -/
def Wave.passed (w : Wave) (n : Nat) : Bool := w.t0 + (if w.twoBeats then 128 else 127) ≤ n

/-- The beat at a Loom time: each wavefront acts, and one that has passed column 127 leaves. -/
def State.doArrayBeat (s : State) (l : ClusterId) : State :=
  let n := (s.lk l).now
  let s := (s.lk l).waves.foldl (fun s w => s.waveBeat l n w) s
  let k := s.lk l
  s.setLk l { k with waves := (k.waves.filter (fun w => !w.passed n)).map (s.waveRead l n) }

/-- Columns on the drain path whose time has come are written to the drain rank (R220). -/
def State.doDrainColumnWrite (s : State) (l : ClusterId) : State :=
  let k := s.lk l
  let n := k.now
  s.setLk l { k with
    rank := (k.drain.filter (fun c => c.at_ ≤ n)).foldl (fun r c => Tab.set r c.j c.vals) k.rank
    drain := k.drain.filter (fun c => n < c.at_) }

/-- The entries that an engine has put before the B-store are written (R265). -/
def State.landEngine (s : State) (l : ClusterId) : State :=
  let x := s.loom l
  x.eng.foldl (fun s (pa, bs) => { s with mem := Memory.write s.mem pa bs }) (s.setLoom l { x with eng := [] })

/-- A write of the block sequencer or the copy engine into a B-store: taken while the Loom has no weave or waits at SNEXT, kept
for a free beat while it runs, and put off while it waits for a link or is frozen (R224, R265). -/
def State.offerBstore (s : State) (l : ClusterId) (w : List (Nat × List Byte)) : Option State :=
  let x := s.loom l
  if x.frozen s.cycle then none
  else match x.st with
  | .running => if x.eng.isEmpty then some (s.setLoom l { x with eng := w }) else none
  | .stopped => some ((s.setLoom l { x with eng := x.eng ++ w }).landEngine l)
  | .snext => some ((s.setLoom l { x with eng := x.eng ++ w }).landEngine l)
  | _ => none

/-- B-store row writes whose time has come land, or else an engine's in a beat that none takes; a bolt row is read as it lands (R224, R264). -/
def State.doBstoreWriteLands (s : State) (l : ClusterId) (row : BitVec 32 → Nat → Vec) : State :=
  let n := (s.lk l).now
  let due := (s.lk l).bw.filter (fun w => w.at_ ≤ n)
  let s := due.foldl (fun s w => s.putBRow l w.row (match w.bolt with
    | some (h, r, _) => row h r
    | none => w.vals)) s
  let s := if due.isEmpty then s.landEngine l else s
  let k := s.lk l
  s.setLk l { k with
    bw := k.bw.filter (fun w => n < w.at_)
    held := k.held.map (fun x => if x.bld && due.any (fun w => match w.bolt with
      | some (h, _, last) => h == x.h && last
      | none => false) then { x with rel := true } else x) }

def execArrayBeat (s : State) : Host.Outcome State Fault Refusal :=
  .next (match s.ev with
    | .arrayBeat l => s.doArrayBeat l
    | _ => s)
def execDrainColumnWrite (s : State) : Host.Outcome State Fault Refusal :=
  .next (match s.ev with
    | .drainColumnWrite l => s.doDrainColumnWrite l
    | _ => s)

end Sys2Proof.Machine
end

