-- ==== Sys2Proof/Machine/Fetch.lean ====
section
/-!
DEFINITION. Instruction fetch (R33, R474) and the order of a cycle's work (R140).
-/

namespace Sys2Proof.Machine

/-! Fetch (R33, R474). -/

/-- The line arrives, as its slice or bank gave it: the instruction cache takes it, and the context that waits for a line goes on (R474). -/
def State.doFetchMissFill (s : State) (c : CtxId) (line : Nat) (data : LineData) : State :=
  let k := coreOf c
  if (s.core k).frozen s.cycle then s.eventAt (s.core k).thaw ordReply (.fetchMissFill c line data)
  else
    let old := (s.core k).icache.filter (fun e => e.1 != line)
    let full := 256 ≤ old.length
    let kept := if full then old.eraseIdx (Config.freeVictim s.draws % old.length) else old
    let s := s.setCore k { s.core k with icache := Tab.set kept line data }
    let s := if full then { s with draws := s.draws + 1 } else s
    if (s.ctx c).why = .fetch then s.wake c else s

def execFetchMissFill (s : State) : Host.Outcome State Fault Refusal :=
  .next (match s.ev with
    | .fetchMissFill c line d => s.doFetchMissFill c line d
    | _ => s)

/-- What a context's issue slot finds: nothing to issue but a changed state, a word that is no instruction, or an
instruction to perform. -/
inductive Issue where
  | idle (s : State)
  | bad (s : State) (w : W32)
  | go (s : State) (i : Instr)

/-- Fetch and decode for a context whose slot it is (R33, R78, R305, R474). -/
def State.fetch (s : State) (c : CtxId) : Issue :=
  match s.look c (s.ctx c).pc .x with
  | .hit pa _ =>
    match s.fetched c pa with
    | none => .idle (s.fetchMiss c pa)
    | some w =>
      let s := { s with cur := c, stage := 0 }
      match decodeWord w with
      | none => .bad s w
      | some i => .go s (s.refine i)
  | _ => .idle ({ s with cur := c }.translate (s.ctx c).pc .x (fun s _ _ => s))

/-- The exact trap of an uncorrectable error in a value that the instruction at PC reads (R404). -/
def State.takeUncorr (s : State) (c : CtxId) (v : W64) : State :=
  let x := s.ctx c
  (s.setCtx c { x with uerr := none }).takeTrap c { cause := causeUncorr, tia := x.pc, tepc := x.pc, tval := v }

/-- A context's issue slot (R140, R404, R407, R421, R475): late refusals that wait are taken, a steward with a pending event
enters its trap entry, an uncorrectable error traps, and otherwise the instruction at PC is fetched. -/
def State.issue (s : State) (c : CtxId) : Issue :=
  let x := s.ctx c
  let k := coreOf c
  if x.st ≠ .issuing ∨ (s.core k).frozen s.cycle then .idle s
  else if !x.late.isEmpty then .idle (s.takeLate c)
  else if isSteward c ∧ s.pendingEvent k ∧ (s.core k).eie ∧ !(s.core k).inh then
    .idle { s with todo := { act := .ev (.trapEntry k) } :: { who := c, act := .issue } :: s.todo }
  else match x.uerr with
    | some v => .idle (s.takeUncorr c v)
    | none => s.fetch c

/-! The order of a cycle's work (R140). -/

/-- Scratchpad address of a request at a bank: a grain's, or the host's through window B. -/
def State.bankAddr (s : State) (v : Ev) : Option Nat :=
  match v with
  | .hostScratchpadAccess port a _ _ _ _ true => some (s.portPa port a)
  | _ => (reqIn v).map (fun r => (r.pieces.headD {}).pa)

/-- Requests that wait at a cluster's banks: those sent back by a bank already used this cycle (R291, R399). -/
def State.waitingAtBanks (s : State) (k : ClusterId) : Nat :=
  (s.agenda.filter (fun e => e.ord == 500 && match e.act with
    | .ev v => (match s.bankAddr v with
      | some pa => (match s.region pa with
        | .scratch cl _ => cl == k
        | _ => false)
      | none => false)
    | _ => false)).length

/-- The word at PC is there to be issued. -/
def State.fetchHits (s : State) (c : CtxId) : Bool :=
  match s.look c (s.ctx c).pc .x with
  | .hit pa _ => (s.fetched c pa).isSome
  | _ => false

/-- The context may issue in this cycle. -/
def State.mayIssue (s : State) (c : CtxId) : Bool := (s.ctx c).st == .issuing && (s.ctx c).readyAt ≤ s.cycle

/-- The two of a twill pair issue in the same cycles: one alone only takes what the other has already, its line or its translation
(R423). -/
def State.twinIssues (s : State) (c : CtxId) : Bool :=
  match s.twin c with
  | none => true
  | some c2 => s.mayIssue c2 && (!s.fetchHits c || s.fetchHits c2)

/-- The contexts whose slot this cycle is and that may issue (R140). -/
def State.slots (s : State) : List Entry :=
  if s.thatch.hold then [] else
  s.ctxs.filterMap (fun (c, _) =>
    if ctxNo c = s.turn (dieOf c) ∧ s.mayIssue c ∧ s.twinIssues c then some { who := c, act := .issue } else none)

/-- Place of the Looms' dispatches in a cycle: after bank writes and before the requests of grains (R283). -/
def ordLoom : Nat := 80000
/-- Place of what happens at the end of a cycle: releases, and results that land (R206, R283). -/
def ordEnd : Nat := 160002

/-- A cycle's slots are handed out: grains, Looms that run, and the monitors that sample every cycle (R140, R196, R399). -/
def State.handOut (s : State) : State :=
  let s := { s with todo := s.slots, slotted := true }
  let s := s.looms.foldl (fun s (l, x) =>
    if !s.thatch.hold ∧ (x.st = .running ∨ x.st = .snext ∨ x.st = .link) ∧ !x.frozen s.cycle then s.eventAt s.cycle ordLoom (.bundleDispatch l) else s) s
  s.clusters.foldl (fun s (k, x) =>
    match x.mon.src.toNat with
    | 3 => s.eventAt s.cycle ordEnd (.monitorSample k (BitVec.ofNat 32 (s.loom k).k.boltQ.length))
    | 4 => s.eventAt s.cycle ordEnd (.monitorSample k (BitVec.ofNat 32 (x.bpN.toNat - x.pagesHeld)))
    | 5 => s.eventAt s.cycle ordEnd (.monitorSample k (BitVec.ofNat 32 (s.waitingAtBanks k)))
    | _ => s) s

/-- The next cycle begins. -/
def State.nextCycle (s : State) : State :=
  let s := { s with cycle := s.cycle + 1, slotted := false }
  let s := if (s.cycle + s.phase1) % 256 = 0 then s.now (.ctTick 1) else s
  if (s.cycle + s.phase0) % 256 = 0 then s.now (.ctTick 0) else s

/-- What runs next: an entry of work, or a state in which the cycle has moved on. -/
def State.pick (s : State) : State ⊕ (State × Entry) :=
  match s.todo with
  | e :: t => .inr ({ s with todo := t }, e)
  | [] =>
    let rest : State := if s.slotted then s.nextCycle else s.handOut
    match s.agenda with
    | e :: t =>
      if e.due < s.cycle ∨ (e.due = s.cycle ∧ (e.ord < 100 ∨ s.slotted)) then .inr ({ s with agenda := t }, e)
      else .inl rest
    | [] => .inl rest

end Sys2Proof.Machine
end

