-- ==== Sys2Proof/Machine/Remote.lean ====
section
/-!
DEFINITION. Other chips and remote operations: routes, the checks of messages, RWR, RAMO, RMSG and RWAKE with what context 15
of the target does, links, and the lending of pages (R428 to R450).
-/

namespace Sys2Proof.Machine

/-! Longer reads of a grain: the source of RWR, a launch descriptor, a job card (R438, R172, R360). -/

/-- Cycles until the reply of a load of these pieces would reach its core (R297). -/
def State.loadTime (s : State) (c : CtxId) (ps : List Piece) : Nat :=
  ps.foldl (fun n p => max n (s.fetchTime c p.pa)) 1

/-- The bytes of an L1 that holds every line. -/
def State.l1Bytes (s : State) (k : CoreId) (ps : List Piece) : List Byte :=
  ps.flatMap (fun p => match s.l1 k (lineOf p.pa) with
    | some x => LineData.bytes x.data (p.pa % 128) p.len
    | none => [])

/-- The bytes of a range of one page, read as a load of the running context: from its L1 at once, from the serving slice when
the reply would come, or from an external window in as many requests as it has lines (R332, R445; log entry 10). Stage 1 is
the second half. -/
def State.loadBytes (s : State) (i : Instr) (ps : List Piece) (go : State → List Byte → State) : State :=
  let c := s.cur
  let n := (ps.map (·.len)).sum
  let p := ps.headD {}
  if s.stage = 0 then
    if (s.region p.pa).outside then
      let got := s.me.srcBytes.length
      if n ≤ got then go (s.setMe { s.me with srcBytes := [] }) (s.me.srcBytes.take n)
      else
        let pa := p.pa + got
        let len := min (n - got) (128 - pa % 128)
        let id := s.token
        let s := s.tick1.wait c (.reply id)
        match s.region pa with
        | .host port => s.send (.hostLoad port pa len id)
        | .peer k =>
          let core := 4096 * s.dev.chip.toNat + coreOf c
          if (s.portFor core (4096 * s.peerChip k) 0).isNone then
            let a := s.freeBytes len
            a.1.later 1 ordReply (.replyArrival c { id := id, bytes := a.2, adv := false })
          else s.linkOut core (s.peerChip k) id (.load pa len id)
        | _ => s
    else if (s.bothOf c).all (fun c => s.l1Hits (coreOf c) ps) then
      let b := s.l1Bytes (coreOf c) ps
      go (s.l1Load (coreOf c) ps).1 b
    else
      let s := s.setMe { s.me with load := some { pieces := ps } }
      let id := s.token
      (s.tick1.wait c (.reply id)).port c
        { sig := (wordOfInstr i).toNat :: ps.map (·.pa), id := id, delay := s.loadTime c ps, ord := ordLate, stage := 1
          instr := some i, both := true }
  else
    match s.me.why, s.me.load with
    | .reply _, some r =>
      if r.pieces.all (fun p => s.cohReady p.pa p.len) then
        let b := r.pieces.flatMap (fun p => s.cohRead p.pa p.len)
        let s := r.pieces.foldl (fun s p => if s.lentAway p.pa then s.violate p.pa else s.raiseCt (coreOf c) (s.latestWts p.pa)) s
        let s := r.pieces.foldl (fun s p => s.markRead p.pa p.len) s
        go (s.setMe { s.me with load := none }) b
      else (r.pieces.foldl (fun s p => s.nudge p.pa p.len) s).schedule (s.cycle + 1) ordLate c 1 i
    | _, _ => s

/-! Routes (R430, R434). -/

/-- The sender has messages in flight to a chip on a port that the route entry no longer has (R430). -/
def State.routeHold (s : State) (c : CtxId) (chip : Nat) : Bool :=
  s.sent.any (fun o => o.who == c && o.msg.core / 4096 == chip && match o.port with
    | some p => !(s.routeMask chip).getLsbD p
    | none => false)

/-- A message leaves the chip by its port, or is not sent and completes with ABSENT (R430, R436). -/
def State.linkSend (s : State) (m : Msg) : State :=
  match s.portFor (m.src / 16) m.core m.cls.toNat with
  | none => s.later 1 ordReply (.remoteStatusArrival (m.src % 65536) m.id 3 0 none)
  | some p =>
    let put (o : SentOp) : SentOp := if o.id == m.id then { o with port := some p, msg := m } else o
    ({ s with sent := s.sent.map put }).send (.remote p m)

/-! Statuses at the sender (R436, R437). -/

/-- RMST takes a status. -/
def Ctx.noteStatus (x : Ctx) (code : BitVec 8) (posted : Bool) : Ctx :=
  { x with last := code, pfail := if posted ∧ code ≠ 0 ∧ x.pfail ≠ -1 then x.pfail + 1 else x.pfail }

/-- A status found at the sender: nothing is sent, and the grain goes on (R437). -/
def State.remoteBad (s : State) (d : BitVec 4) (code : BitVec 8) (posted : Bool) (val : W64) : State :=
  (s.setMe (s.me.noteStatus code posted)).put d val

/-- Send a remote operation: the grain waits for its status, or the operation counts until its acknowledgement (R437). -/
def State.sendRemote (s : State) (d : BitVec 4) (waits valBack aq : Bool) (m : Msg) (sig : List Nat) : State :=
  let c := s.cur
  let id := s.token
  let s := s.tick1
  let x := s.me
  let own := m.core / 4096 == s.dev.chip.toNat
  let m := { m with
    id := id, src := s.ctxNumber c, slot := s.slotOf c, dom := s.dev.dom, inc := s.dev.inc
    want := Tab.get 0 s.dev.incs (m.core / 4096), wait := waits, num := x.num, ct := if own then s.ct (coreOf c) else 0 }
  let s := s.setMe { x with num := x.num + 1 }
  let o : SentOp := { id := id, who := c, rd := d, posted := !waits, val := valBack, aq := aq, msg := m }
  let s := { s with sent := s.sent ++ [o] }
  let s := if waits then s.wait c (.reply id)
    else
      let p : Pend := { id := id, cls := m.cls }
      let s := s.setMe { s.me.adv with pend := s.me.pend ++ [p] }
      if s.stage = 0 then s else s.wake c
  s.port c { sig := sig, id := id, delay := if own then s.toCluster (clusterOf c) (m.core % 4096 / 8) else 0, ord := ordLate
             ev := .remoteMessageArrival m }

/-- The status of a remote operation at its sender, and at its twin. The write or atomic has been performed without a timestamp
that the sender's core knows, so overtaken leases are dropped (R437, R439, R150, R423; log entry 16). -/
def State.statusFor (s : State) (o : SentOp) (code : BitVec 8) (val : W64) : State :=
  let c := o.who
  let s := { s with sent := s.sent.filter (fun x => !(x.id == o.id && x.who == o.who)) }
  let reply (s : State) (v : W64) (k : Conds) : State := s.now (.replyArrival c { id := o.id, rd := o.rd, wr := true, val := v, conds := k })
  if o.spawn.isSome then reply s (zx code) 0
  else if o.posted then
    (s.bothOf c).foldl (fun (s : State) c =>
      if (s.ctx c).pend.any (fun p => p.id == o.id) then
        (s.setCtx c ((s.ctx c).noteStatus code true)).ackOne c o.id { bank := true }
      else s.ackOrphan c o.id true) s
  else if (s.ctx c).awaits o.id then
    let s := (s.bothOf c).foldl (fun (s : State) c => (s.setCtx c ((s.ctx c).noteStatus code false)).dropStale (coreOf c)) s
    let k : Conds := match o.msg.kind with
      | .atomic 12 _ v _ => if code = 0 ∧ o.rd ≠ 0 then (fxNew 12 val v 0).2 else 0
      | _ => 0
    reply s (if o.val then (if code = 0 then val else 0) else zx code) k
  else s

/-- A status returns to its sender; in a freeze it is held like a reply. One from another chip passes its checks, and one that
acknowledges another message lets go of it (R421, R430, R432, R437). -/
def State.doRemoteStatusArrival (s : State) (c : CtxId) (id : Nat) (code : BitVec 8) (val : W64) (l : Option Link) : State :=
  s.fromLink l (fun s =>
    let k := coreOf c
    if (s.core k).frozen s.cycle then s.eventAt (s.core k).thaw ordReply (.remoteStatusArrival c id code val none)
    else (s.sent.filter (fun o => o.id == id)).foldl (fun s o => s.statusFor o code val)
      (if s.links.any (fun o => o.l.no == id) then s.linkAck id else s))

/-! The remote instructions (R435 to R442). -/

/-- Fields of the remote control word. -/
def rcCore (g : W64) : Nat := (g.extractLsb' 0 24).toNat
/-- LENM1 + 1. -/
def rcLen (g : W64) : Nat := (g.extractLsb' 24 7).toNat + 1
/-- CLS. -/
def rcCls (g : W64) : BitVec 4 := g.extractLsb' 32 4
/-- OPF. -/
def rcOpf (g : W64) : BitVec 4 := g.extractLsb' 39 4

/-- A range of n bytes passes a 64 KiB boundary (R436). -/
def crosses64K (a : W64) (n : Nat) : Bool := 65536 < a.toNat % 65536 + n

/-- An argument of RWR is bad (R436, R438). -/
def rwrBad (t src g : W64) : Bool :=
  let n := rcLen g
  g.extractLsb' 43 21 != 0#21 || g.getLsbD 36 || rcOpf g != 0 || (g.getLsbD 38 && !g.getLsbD 37) || crosses64K src n
    || (if g.getLsbD 37 then
          t.getLsbD 39 || t.extractLsb' 52 12 != 0#12 || (t.extractLsb' 24 8).toNat != rcCore g / 8 % 256
        else crosses64K t n)

/-- The operation must wait for stores before it, for room, or for a route (R123, R317, R328, R430). -/
def State.remoteHold (s : State) (g : W64) (posted : Bool) (ps : List Piece) (va : W64) (n : Nat) : Bool :=
  s.mustHold s.cur { op := .load 6, va := va, size := n, cls := rcCls g, rl := g.getLsbD 31, posted := posted } ps
    || s.routeHold s.cur (rcCore g / 4096)

/-- RWR (R438). -/
def State.rwr (s : State) (i : Instr) (d a b c : BitVec 4) : State :=
  let t := s.rd a
  let src := s.rd b
  let g := s.rd c
  let n := rcLen g
  let send (s : State) (bytes : List Byte) : State :=
    let kind : MsgKind := if g.getLsbD 37 then
        .bolt (t.setWidth 32) (t.extractLsb' 32 7).toNat (t.extractLsb' 40 12).toNat (g.getLsbD 38) bytes
      else .write t bytes
    (s.sendRemote d (d != 0) false false { core := rcCore g, cls := rcCls g, rl := g.getLsbD 31, kind := kind }
      ((wordOfInstr i).toNat :: t.toNat :: g.toNat :: bytes.map (·.toNat)))
  if s.stage ≠ 0 then s.loadBytes i [] send
  else s.plain i (fun s =>
    if rwrBad t src g then s.remoteBad d 6 (d == 0) 6
    else if ctxNo s.cur = 15 ∧ d ≠ 0 then s.remoteBad d 7 false 7
    else s.translateRun src n .r (fun s ps _ =>
      if s.remoteHold g (d == 0) ps src n then s.wait s.cur .held else s.loadBytes i ps send))

/-- An argument of RAMO is bad (R436, R439). -/
def ramoBad (t g : W64) : Bool :=
  g.extractLsb' 43 21 != 0#21 || rcLen g != 1 || g.getLsbD 37 || g.getLsbD 38 || (rcOpf g).toNat < 2 || 12 < (rcOpf g).toNat
    || !aligned t (fxSize (rcOpf g))

/-- RAMO (R439). -/
def State.ramo (s : State) (i : Instr) (d a b c : BitVec 4) : State :=
  s.plain i (fun s =>
    let t := s.rd a
    let g := s.rd c
    let waits := d != 0 || rcOpf g == 11
    if ramoBad t g then s.remoteBad d 6 (!waits) 0
    else if ctxNo s.cur = 15 ∧ waits then s.remoteBad d 7 false 0
    else if s.remoteHold g (!waits) [] 0 0 then s.wait s.cur .held
    else s.sendRemote d waits true (g.getLsbD 36)
      { core := rcCore g, cls := rcCls g, rl := g.getLsbD 31, kind := .atomic (rcOpf g) t (s.rd b) (s.rd d) }
      [(wordOfInstr i).toNat, t.toNat, g.toNat, (s.rd b).toNat, (s.rd d).toNat])

/-- RMSG (R440). -/
def State.rmsg (s : State) (i : Instr) (d a c : BitVec 4) : State :=
  s.plain i (fun s =>
    let t := s.rd a
    let g := s.rd c
    if g.extractLsb' 36 28 ≠ 0#28 ∨ rcLen g ≠ 1 ∨ !aligned t 4 then s.remoteBad d 6 (d == 0) 6
    else if ctxNo s.cur = 15 then s.remoteBad d 7 (d == 0) 7
    else if s.remoteHold g (d == 0) [] 0 0 then s.wait s.cur .held
    else s.sendRemote d (d != 0) false false
      { core := rcCore g, cls := rcCls g, rl := g.getLsbD 31, kind := .active t (s.rd 1) (s.rd 2) (s.rd 3) (s.rd 4) }
      [(wordOfInstr i).toNat, t.toNat, g.toNat, (s.rd 1).toNat, (s.rd 2).toNat, (s.rd 3).toNat, (s.rd 4).toNat])

/-- RWAKE (R442). -/
def State.rwake (s : State) (i : Instr) (d a c : BitVec 4) : State :=
  s.plain i (fun s =>
    let g := s.rd c
    if !s.privOf s.cur then s.trapPriv i
    else if g.extractLsb' 24 40 ≠ 0#40 then s.remoteBad d 6 (d == 0) 6
    else if ctxNo s.cur = 15 ∧ d ≠ 0 then s.remoteBad d 7 false 7
    else if s.remoteHold g (d == 0) [] 0 0 then s.wait s.cur .held
    else s.sendRemote d (d != 0) false false { core := rcCore g, kind := .wake (s.rd a) } [(wordOfInstr i).toNat, (s.rd a).toNat, g.toNat])

def execRwr (d a b c : BitVec 4) (s : State) : Host.Outcome State Fault Refusal := .next (s.rwr (.rwr d a b c) d a b c)
def execRamo (d a b c : BitVec 4) (s : State) : Host.Outcome State Fault Refusal := .next (s.ramo (.ramo d a b c) d a b c)
def execRmsg (d a c : BitVec 4) (s : State) : Host.Outcome State Fault Refusal := .next (s.rmsg (.rmsg d a c) d a c)
def execRwake (d a c : BitVec 4) (s : State) : Host.Outcome State Fault Refusal := .next (s.rwake (.rwake d a c) d a c)

/-! At the target core (R145, R429, R432, R438 to R442). -/

/-- A message enters the queue of its core; RMSG is then DONE (R145, R440). -/
def State.enqueue (s : State) (k : CoreId) (m : Msg) : State :=
  let s := s.setCore k { s.core k with msgQ := (s.core k).msgQ ++ [m] }
  match m.kind with
  | .active _ _ _ _ _ => (s.keepRemote k m 0 0).statusBack m 0 0
  | _ => s

/-- A message that its sender sends again is already here. -/
def Core.hasMsg (x : Core) (m : Msg) : Bool := (x.msgQ ++ x.msgWait).any (fun y => y.src == m.src && y.num == m.num)

/-- A message is checked at its target and enters the queue of its core; one for another chip goes on to its link (R429,
R430, R432, R436, R442). -/
def State.doRemoteMessageArrival (s : State) (m : Msg) : State :=
  let from_ := m.src / 65536
  let k := m.core % 4096
  let far := from_ != s.dev.chip.toNat
  if m.core / 4096 ≠ s.dev.chip.toNat then s.linkSend m
  else if far && s.dropsFrom from_ m.dom m.inc then s.incDrop
  else if far && m.want != s.dev.inc then s.statusBack m 4 0
  else if !s.clusterValid (coreCluster k) then s.statusBack m 3 0
  else
    let kept := if m.again then (Tab.get [] (s.core k).rkept m.src).find? (fun e => e.1 == m.num) else none
    match kept with
    | some (_, code, v) => s.statusBack m code v
    | none =>
      match m.kind with
      | .wake v => ((s.keepRemote k m 0 0).now (.wakeArrival k v)).statusBack m 0 0
      | _ =>
        if !(s.core k).slots.getLsbD m.slot.toNat then s.statusBack m 5 0
        else if m.again && ((s.core k).hasMsg m || (s.ctx (16 * k + 15)).msg.any (fun y => y.src == m.src && y.num == m.num)) then s
        else if (s.core k).msgQ.length < 32 then (s.enqueue k m).soon (.messageTake k)
        else s.setCore k { s.core k with msgWait := (s.core k).msgWait ++ [m] }

/-- A wake sets WKVAL and adds 1 to WKCNT, saturating; it is an event of the steward (R442). -/
def State.doWakeArrival (s : State) (k : CoreId) (v : W64) : State :=
  let x := s.core k
  (s.setCore k { x with wkval := v, wkcnt := if x.wkcnt = -1 then x.wkcnt else x.wkcnt + 1 }).stewardEvent k

/-- First slot of a context from a cycle on (R140). -/
def State.slotFrom (s : State) (c : CtxId) (t : Nat) : Nat :=
  let p := if dieOf c = 0 then s.phase0 else s.phase1
  t + (ctxNo c + 16 - (t + p) % 16) % 16

/-- Context 15, running and with no message, takes the oldest of its queue, and a message that waits in the mesh takes the
place. A write or atomic is performed in its next issue slot; a handler is run (R145, R440, R441). -/
def State.doMessageTake (s : State) (k : CoreId) : State :=
  let c := 16 * k + 15
  let x := s.ctx c
  if x.st = .waiting ∧ x.why = .event ∧ x.msg.isNone ∧ !s.beingStopped c then
    match (s.core k).msgQ with
    | [] => s
    | m :: t =>
      let s := s.setCore k { s.core k with msgQ := t }
      let s := match (s.core k).msgWait with
        | [] => s
        | w :: rest => (s.setCore k { s.core k with msgWait := rest }).enqueue k w
      let s := s.setCtx c { s.ctx c with msg := some m }
      let due := s.slotFrom c (s.cycle + 1)
      match m.kind with
      | .active _ _ _ _ _ => s.now (.rmsgRun k m)
      | .atomic _ _ _ _ => (s.wait c .timed).eventAt due (1000 + c) (.ramoPerform k m)
      | .wake _ => s.endMessage k
      | _ => (s.wait c .timed).eventAt due (1000 + c) (.rwrPerform k m)
  else s

/-- Context 15 performs this message now; none in a freeze, which only delays it (R421). -/
def State.performing (s : State) (k : CoreId) (m : Msg) (e : Ev) (go : State → State) : State :=
  let c := 16 * k + 15
  if (s.ctx c).msg ≠ some m ∨ (s.ctx c).why ≠ .timed then s
  else if (s.core k).frozen s.cycle then s.eventAt (s.slotFrom c (s.core k).thaw) (1000 + c) e
  else go s

/-- Logical time of a message's write: that of its sender or of its target's core, whichever is later (R328, R333). -/
def State.msgCt (s : State) (k : CoreId) (m : Msg) : W64 := if (s.ct k).ult m.ct then m.ct else s.ct k

/-- A remote write to an external window goes out line by line, in ascending order, each after the last one's acknowledgement; it
is done once the last has been acknowledged (R316, R438, R445). The lines and bytes left stand in the context. -/
def State.rwrOutside (s : State) (k : CoreId) (m : Msg) (r : Req) : State :=
  let c := 16 * k + 15
  let again (s : State) : State := s.later 1 (1000 + c) (.rwrPerform k m)
  if (s.ctx c).pend.any (fun p => p.id == r.id) then again s
  else match r.pieces with
    | [] => (s.setCtx c { s.ctx c with load := none, srcBytes := [] }).finishMsg k m 0 0
    | p :: t =>
      let id := s.token
      let bytes := (s.ctx c).srcBytes.take p.len
      let w : Pend := { id := id, cls := m.cls, len := p.len, pieces := [p] }
      let s := s.tick1.setCtx c { s.ctx c with
        load := some { r with id := id, pieces := t }, srcBytes := (s.ctx c).srcBytes.drop p.len, pend := (s.ctx c).pend ++ [w] }
      match s.region p.pa with
      | .host port => again (s.send (.hostStore port p.pa bytes))
      | .peer q =>
        let one : Req := { id := id, who := c, op := .store, pieces := [p], posted := true }
        let core := 4096 * s.dev.chip.toNat + k
        if (s.portFor core (4096 * s.peerChip q) 0).isNone then again (s.peerAbsent one)
        else again (s.linkOut core (s.peerChip q) id (.store p.pa bytes id) (some one))
      | _ => again s

/-- The memory form of RWR, whose write raises the logical time of context 15's core (R328, R333, R438); the bolt form goes to
the owning bank. -/
def State.doRwrPerform (s : State) (k : CoreId) (m : Msg) : State :=
  s.performing k m (.rwrPerform k m) (fun s =>
    let c := 16 * k + 15
    let again (s : State) : State := s.later 1 (1000 + c) (.rwrPerform k m)
    match m.kind, (s.ctx c).load with
    | .write _ _, some r => s.rwrOutside k m r
    | .write va bytes, none =>
      (match s.translateNow m.slot false va .w with
      | .error _ => s.finishMsg k m 2 0
      | .ok (pa, _) =>
        if !s.dirtyReady m.slot va then again (s.nudgeLeaf m.slot va)
        else if (s.region pa).outside then
          let s := s.setDirty m.slot va
          (s.setCtx c { s.ctx c with srcBytes := bytes }).rwrOutside k m { who := c, pieces := splitLines pa bytes.length }
        else match s.refusedByte pa bytes.length with
          | some b => (s.countRefused b).finishMsg k m 1 0
          | none =>
            if s.cohReady pa bytes.length then
              let s := (s.setDirty m.slot va).cohPutAt pa bytes (s.msgCt k m)
              let s := (splitLines pa bytes.length).foldl (fun s p => s.raiseCt k (s.latestWts p.pa)) s
              s.finishMsg k m 0 0
            else again (s.nudge pa bytes.length))
    | .bolt _ _ _ _ _, _ => s.later 5 (1000 + c) (.rwrBoltWrite m)
    | _, _ => s)

/-- The bolt form of RWR at the owning bank, as one step (R438, R453). -/
def State.doRwrBoltWrite (s : State) (m : Msg) : State :=
  let k := m.core % 4096
  match m.kind with
  | .bolt h row off valid bytes =>
    let refuse (s : State) : State := (s.countLoom (coreCluster k) 6 1).finishMsg k m 1 0
    (match s.handle (k / 2048) h with
    | .cur cl e b =>
      let pos := row * b.stride + off
      if !s.cohReady (windowBase cl + 4096 * b.page + pos) bytes.length then s.later 1 500 (.rwrBoltWrite m)
      else if b.isOpen && !b.out && pos + bytes.length ≤ b.rows * b.stride then
        let s := s.cohPut (windowBase cl + 4096 * b.page + pos) bytes
        let last := (pos + bytes.length - 1) / b.stride
        let mask : BitVec 128 := BitVec.ofNat 128 ((List.range 128).foldl (fun n r => if row ≤ r ∧ r ≤ last then n + 2 ^ r else n) 0)
        let s := if valid then s.setBolt cl e { (s.cluster cl).bolt e with valid := b.valid ||| mask } else s
        s.finishMsg k m 0 0
      else refuse s
    | _ => refuse s)
  | _ => s

/-- Context 15 sends a remote atomic to its home (R439). -/
def State.doRamoPerform (s : State) (k : CoreId) (m : Msg) : State :=
  s.performing k m (.ramoPerform k m) (fun s =>
    match m.kind with
    | .atomic fn va v cmp =>
      (match s.translateNow m.slot false va .rw with
      | .error _ => s.finishMsg k m 2 0
      | .ok (pa, _) =>
        let c := 16 * k + 15
        if (s.region pa).outside && !externalOk (s.region pa) (.fx fn) then s.finishMsg k m 2 0
        else if !s.dirtyReady m.slot va then (s.nudgeLeaf m.slot va).later 1 (1000 + c) (.ramoPerform k m)
        else
          let s := s.setDirty m.slot va
          let id := s.token
          let p : Piece := { pa := pa, len := fxSize fn }
          let r : Req := { id := id, who := c, op := .fx fn, pieces := [p], va := va, val := v, cmp := cmp, cls := m.cls
                           ct := s.msgCt k m, num := (s.ctx c).num, slot := m.slot, born := s.cycle }
          let s := s.tick1.wait c (.reply id)
          let s := s.setCtx c { s.ctx c with load := some r, num := (s.ctx c).num + 1 }
          if (s.region pa).outside then s.external r else s.sendNext r)
    | _ => s)

/-- Context 15 runs an active message's handler at user level in the message's slot (R440). -/
def State.doRmsgRun (s : State) (k : CoreId) (m : Msg) : State :=
  let c := 16 * k + 15
  match m.kind with
  | .active pc a1 a2 a3 a4 =>
    let x := s.freshCtx c pc false m.slot [(1, a1), (2, a2), (3, a3), (4, a4), (5, BitVec.ofNat 64 m.src)]
    (s.setCtx c { x with st := .issuing, msg := some m, readyAt := s.cycle + 1 }).dropStale k
  | _ => s

/-! Links (R431, R433, R434). -/

/-- A flit that fails its CRC is replayed, so the messages it carried arrive once and in order (R433). -/
def State.doFlitCrcFail (s : State) (_port : Nat) : State := s

/-- A lane that fails training leaves its port on two lanes or one (R433, R471). -/
def State.doLaneTrainingFail (s : State) (port : Nat) : State :=
  let n := s.thatch.lncfg.extractLsb' (2 * port) 2
  let m : BitVec 2 := if n = 0 then 1 else if n = 1 then 2 else n
  { s with thatch := { s.thatch with
    lncfg := (s.thatch.lncfg &&& ~~~(3#36 <<< (2 * port))) ||| (m.setWidth 36 <<< (2 * port)) } }

/-- An access through a peer window has no route any more: it completes as one that was never sent (R434, R445; log entry 63). -/
def State.linkLost (s : State) (o : LinkOut) : State :=
  match o.req with
  | some r => s.peerAbsent r
  | none =>
    match o.b with
    | .load pa len id =>
      let a := s.freeBytes len
      let s := a.1
      if s.dev.reads.any (fun e => e.1 == id) then
        { s with dev := { s.dev with reads := s.dev.reads.map (fun e => if e.1 == id then (id, some a.2) else e) } }
      else match s.ctxs.find? (fun e => e.2.awaits id) with
        | some e => s.later 1 ordReply (.replyArrival e.1 { id := id, bytes := a.2, adv := false })
        | none =>
          if (s.ctx id).why = .fetch then s.later 1 ordReply (.fetchMissFill id (lineOf pa) (BitVec.ofNat 1024 (leNat a.2))) else s
    | _ => s

/-- A SPAWN for another chip is sent again (R434). -/
def State.respawn (s : State) (o : SentOp) (r : SpawnReq) : State :=
  match s.portFor (r.from_ / 16) r.core 0 with
  | none => s.later 1 ordReply (.remoteStatusArrival o.who o.id 3 0 none)
  | some p =>
    let r := { r with again := true }
    let put (x : SentOp) : SentOp := if x.id == o.id then { x with port := some p, spawn := some r } else x
    ({ s with sent := s.sent.map put }).send (.spawn p r)

/-- Another message is sent again on the port that its route now gives (R434). -/
def State.relink (s : State) (o : LinkOut) : State :=
  match s.portFor o.core (4096 * o.chip) 0 with
  | none => ({ s with links := s.links.filter (· != o) }).linkLost o
  | some p =>
    let l := { o.l with again := true }
    ({ s with links := s.links.map (fun x => if x == o then { x with port := some p, l := l } else x) }).send (.link p o.chip l o.b)

/-- A link goes down: its port leaves every route, and the messages not yet acknowledged on it are sent again in their order on
the port that R430 now chooses, marked as resends, or complete with ABSENT (R434). -/
def State.doLinkDown (s : State) (port : Nat) : State :=
  let s := { s with dev := { s.dev with down := s.dev.down ||| (1#18 <<< port) } }
  let s := { s with links := s.links.filter s.linkOpen }
  let ops := s.sent.filter (fun o => o.port == some port)
  let links := s.links.filter (fun o => o.port == some port)
  let order := (ops.map (·.id) ++ links.map (·.l.no)).foldl (fun l n => insertNat n l) []
  order.foldl (fun s n =>
    let s := (ops.filter (fun o => o.id == n)).foldl (fun (s : State) o =>
      match o.spawn with
      | some r => s.respawn o r
      | none => s.linkSend { o.msg with again := true }) s
    (links.filter (fun o => o.l.no == n)).foldl State.relink s) s.chipsLost

/-- A port has lanes and is not down (R434, R471). -/
def State.portUp (s : State) (p : Nat) : Bool := !s.dev.down.getLsbD p && s.thatch.lncfg.extractLsb' (2 * p) 2 != 3#2

/-- A sync flit: the leader's count goes out on every enabled link, and any other chip aligns its count to the flit's; a rick
that waits for it is then READY (R431, R417; log entry 63). -/
def State.doSyncFlit (s : State) (t : W64) : State :=
  let lead := s.dev.chip == 0
  let s := { s with dev := { s.dev with sync := true, dtime := if lead then s.dev.dtime else t - BitVec.ofNat 64 s.cycle } }
  let s := if lead then ((List.range 18).filter s.portUp).foldl (fun (s : State) p => s.send (.sync p s.dtimeNow)) s else s
  s.dev.gangs.foldl (fun s e => if e.2.rick && e.2.admitted && !e.2.released then s.soon (.rickReady s.dev.chip.toNat e.1 none) else s) s

/-! Lending pages (R448 to R450). -/

/-- Entry of a frame number in the lend table. -/
def State.lendOf (s : State) (f : Nat) : Lend := Tab.get {} s.dev.lends f
/-- Replace an entry of the lend table. -/
def State.setLend (s : State) (f : Nat) (l : Lend) : State := { s with dev := { s.dev with lends := Tab.set s.dev.lends f l } }

/-- RLEND finds its arguments bad: 6 BADARG, 1 BADFRAME, 0 good (R448). -/
def State.lendArgs (s : State) (f g : W64) : W64 :=
  if g.toNat / 2 ^ 14 ≠ 0 ∨ g.toNat % 4 = 3 then 6
  else if f.toNat % 65536 ≠ 0 ∨ s.hbmLen ≤ f.toNat then 1
  else 0

/-- The status that keeps LEND from running; 0 for none (R448). -/
def State.lendCode (s : State) (f : Nat) (g : W64) : W64 :=
  if 4096 ≤ (s.dev.lends.filter (fun e => e.2.st != 0)).length then 2
  else if (s.lendOf f).st ≠ 0 then 3
  else if (if g.getLsbD 2 then !(Tab.get (false, 0) s.dev.peers (g.extractLsb' 4 10).toNat).1 else !s.dev.cxl) then 4
  else 0

/-- LEND: the entry becomes LENDING and each of the page's lines takes its step as CINV gives it; the last one makes the page
LENT, tells the borrower and answers the grain (R449). -/
def State.lend (s : State) (d : BitVec 4) (f : Nat) (g : W64) : State :=
  let c := s.cur
  let id := s.token
  let s := s.tick1.wait c (.reply id)
  let s := s.setLend f { s.lendOf f with st := 1, kind := g.getLsbD 2, peer := if g.getLsbD 2 then g.extractLsb' 4 10 else 0 }
  let s := { s with ranges := Tab.set s.ranges id { who := some (c, d), left := 512, lend := some f } }
  (List.range 512).foldl (fun s j =>
    let line := 512 * f + j
    s.later (s.toSlice (clusterOf c) (homeOf line)) ordLate (.lineStep line 1 true id)) s

/-- RLEND LEND, and a control word with the reserved operation (R448, R449). -/
def State.rlendLend (s : State) (i : Instr) (d a b : BitVec 4) : State :=
  s.plain i (fun s =>
    if !s.privOf s.cur then s.trapPriv i
    else if s.lendArgs (s.rd a) (s.rd b) ≠ 0 then s.put d (s.lendArgs (s.rd a) (s.rd b))
    else s.drained i (fun s =>
      let f := (s.rd a).toNat / 65536
      let k := s.lendCode f (s.rd b)
      if k ≠ 0 then s.put d k else s.lend d f (s.rd b)))

/-- RLEND RECALL: the lines are called back from the borrower, and the grain waits for the last acknowledgement (R449). -/
def State.rlendRecall (s : State) (i : Instr) (d a b : BitVec 4) : State :=
  s.plain i (fun s =>
    if !s.privOf s.cur then s.trapPriv i
    else if s.lendArgs (s.rd a) (s.rd b) ≠ 0 then s.put d (s.lendArgs (s.rd a) (s.rd b))
    else
      let f := (s.rd a).toNat / 65536
      let l := s.lendOf f
      if l.st ≠ 2 then s.put d 3
      else
        let c := s.cur
        let id := s.token
        let s := s.tick1.wait c (.reply id)
        let lines := (List.range 512).map (512 * f + ·)
        let s := s.setLend f { l with st := 3, left := lines, who := some (c, d) }
        lines.foldl (fun (s : State) n =>
          if l.kind then s.dieOut 0 (s.peerChip l.peer.toNat) (.recall n) else s.send (.recall n)) s)

/-- RLEND QUERY (R448). -/
def State.rlendQuery (s : State) (i : Instr) (d a b : BitVec 4) : State :=
  s.plain i (fun s =>
    if !s.privOf s.cur then s.trapPriv i
    else if s.lendArgs (s.rd a) (s.rd b) ≠ 0 then s.put d (s.lendArgs (s.rd a) (s.rd b))
    else
      let l := s.lendOf ((s.rd a).toNat / 65536)
      s.put d (if l.st = 0 then 0 else fields [(3, l.peer.toNat), (2, l.kind.toNat), (0, l.st.toNat)]))

/-- A recall ends: the page is OWNED, and the grain that waits takes a status. -/
def State.endRecall (s : State) (f : Nat) (code : W64) : State :=
  let l := s.lendOf f
  let s := s.setLend f { viol := l.viol }
  match l.who with
  | some (c, d) => s.unitReply c 0 { rd := d, wr := true, val := code }
  | none => s

/-- The borrower has acknowledged a line (R449). -/
def State.doRecallAck (s : State) (line : Nat) (from_ : Option Link) : State :=
  s.fromLink from_ (fun s =>
    let f := line / 512
    let l := s.lendOf f
    if l.st ≠ 3 then s
    else
      let left := l.left.filter (· != line)
      let s := s.setLend f { l with left := left }
      if left.isEmpty then s.endRecall f 0 else s)

/-- The borrower is gone: the recall ends with LOST, and HBM4 stands as it is (R449). -/
def State.doRecallLost (s : State) (f : Nat) : State := if (s.lendOf f).st = 3 then s.endRecall f 5 else s

def execRlendLend (d a b : BitVec 4) (s : State) : Host.Outcome State Fault Refusal := .next (s.rlendLend (.rlendLend d a b) d a b)
def execRlendRecall (d a b : BitVec 4) (s : State) : Host.Outcome State Fault Refusal :=
  .next (s.rlendRecall (.rlendRecall d a b) d a b)
def execRlendQuery (d a b : BitVec 4) (s : State) : Host.Outcome State Fault Refusal :=
  .next (s.rlendQuery (.rlendQuery d a b) d a b)

def execMessageTake (s : State) : Host.Outcome State Fault Refusal :=
  .next (match s.ev with
    | .messageTake k => s.doMessageTake k
    | _ => s)
def execRemoteMessageArrival (s : State) : Host.Outcome State Fault Refusal :=
  .next (match s.ev with
    | .remoteMessageArrival m => s.doRemoteMessageArrival m
    | _ => s)
def execRwrPerform (s : State) : Host.Outcome State Fault Refusal :=
  .next (match s.ev with
    | .rwrPerform k m => s.doRwrPerform k m
    | _ => s)
def execRwrBoltWrite (s : State) : Host.Outcome State Fault Refusal :=
  .next (match s.ev with
    | .rwrBoltWrite m => s.doRwrBoltWrite m
    | _ => s)
def execRamoPerform (s : State) : Host.Outcome State Fault Refusal :=
  .next (match s.ev with
    | .ramoPerform k m => s.doRamoPerform k m
    | _ => s)
def execRmsgRun (s : State) : Host.Outcome State Fault Refusal :=
  .next (match s.ev with
    | .rmsgRun k m => s.doRmsgRun k m
    | _ => s)
def execRemoteStatusArrival (s : State) : Host.Outcome State Fault Refusal :=
  .next (match s.ev with
    | .remoteStatusArrival c id code v l => s.doRemoteStatusArrival c id code v l
    | _ => s)
def execWakeArrival (s : State) : Host.Outcome State Fault Refusal :=
  .next (match s.ev with
    | .wakeArrival k v => s.doWakeArrival k v
    | _ => s)
def execFlitCrcFail (s : State) : Host.Outcome State Fault Refusal :=
  .next (match s.ev with
    | .flitCrcFail p => s.doFlitCrcFail p
    | _ => s)
def execLaneTrainingFail (s : State) : Host.Outcome State Fault Refusal :=
  .next (match s.ev with
    | .laneTrainingFail p => s.doLaneTrainingFail p
    | _ => s)
def execLinkDown (s : State) : Host.Outcome State Fault Refusal :=
  .next (match s.ev with
    | .linkDown p => s.doLinkDown p
    | _ => s)
def execSyncFlit (s : State) : Host.Outcome State Fault Refusal :=
  .next (match s.ev with
    | .syncFlit t => s.doSyncFlit t
    | _ => s)
def execRecallAck (s : State) : Host.Outcome State Fault Refusal :=
  .next (match s.ev with
    | .recallAck n l => s.doRecallAck n l
    | _ => s)
def execRecallLost (s : State) : Host.Outcome State Fault Refusal :=
  .next (match s.ev with
    | .recallLost f => s.doRecallLost f
    | _ => s)

end Sys2Proof.Machine
end

