-- ==== Sys2Proof/Machine/Grains.lean ====
section
/-!
DEFINITION. Starting, stopping, recruiting and moving grains: CSTART, CSTOP, CREAP, SPAWN, RFORK and MIGR, with the events of
spawns and migrations (R146, R150 to R152, R159 to R162, R165 to R170, R193).
-/

namespace Sys2Proof.Machine

/-! Contexts that can be taken (R146, R423). -/

/-- The context is the odd one of a coupled twill pair. -/
def State.oddTwin (s : State) (c : CtxId) : Bool := coreOf c % 2 == 1 && (s.twin c).isSome

/-- The context is free for a job slot: Stopped, numbered 1 to 14, its core taking the slot, and no odd twin (R146, R423). -/
def State.isFree (s : State) (slot : BitVec 4) (c : CtxId) : Bool :=
  (s.ctx c).st == .stopped && 1 ≤ ctxNo c && ctxNo c ≤ 14 && (s.core (coreOf c)).slots.getLsbD slot.toNat && !s.oddTwin c

/-- The free contexts of a core, lowest first. -/
def State.freeOf (s : State) (slot : BitVec 4) (k : CoreId) : List CtxId := (coreCtxs k).filter (s.isFree slot)

/-- A context takes its starting state; the twin of an even one takes the same (R35, R423). -/
def State.startCtx (s : State) (c : CtxId) (x : Ctx) : State :=
  let s := s.setCtx c x
  match s.twin c with
  | some c2 => s.setCtx c2 { x with epoch := (s.ctx c2).epoch + 1, num := x.num }
  | none => s

/-! Context control (R144, R164 to R168). -/

/-- CSTART (R165). -/
def State.cstart (s : State) (i : Instr) (d a b v : BitVec 4) : State :=
  s.plain i (fun s =>
    if !isSteward s.cur then s.trapPriv i
    else
      let g := s.rd a
      let n := (g.extractLsb' 0 4).toNat
      let c := s.cur + n
      if n = 0 then s.put d 2
      else if (s.ctx c).st ≠ .stopped ∨ s.oddTwin c then s.put d 1
      else if n = 15 then
        let x := s.freshCtx c 0 false 0 []
        ((s.setCtx c { x with st := .waiting, why := .event }).put d 0).soon (.messageTake (coreOf c))
      else if s.rd b &&& 3 ≠ 0 then s.put d 3
      else
        let x := s.freshCtx c (s.rd b) (g.getLsbD 4) (g.extractLsb' 8 4) [(1, s.rd v)]
        (s.startCtx c { x with st := if g.getLsbD 5 then .held else .issuing, readyAt := s.cycle + 16 }).put d 0)

/-- A request of the context, or one sent in its name, has left and has not been performed or answered: that of an instruction at
a unit, or the load or atomic that the context waits for, while it is not held back to be sent again (R166, R183). -/
def State.requestOut (s : State) (c : CtxId) (id : Nat) : Bool :=
  let x := s.ctx c
  s.agenda.any (fun e => match e.act with
    | .run _ => e.who == c && e.stage != 0
    | _ => false)
  || ((x.load.isSome || (match x.acc with
      | some a => a.2.2 == id
      | none => false))
    && !(s.cluster (clusterOf c)).openQ.any (fun q => q.id == id)
    && !s.agenda.any (fun e => match e.act with
      | .ev (.fullEmptyResend r) => r.who == c && r.id == id
      | _ => false))

/-- The context has an access in flight, which CSTOP and FREC SAVE wait for: an unacknowledged store, a load's reply, a
migration, or a message that it performs; before a save also a fetch (R166, R408, R474; log entry 65). -/
def State.inFlight (s : State) (save : Bool) (c : CtxId) : Bool :=
  let x := s.ctx c
  !x.pend.isEmpty || x.csrTo.isSome || x.st == .migrating || (x.msg.isSome && x.why == .timed) || (match x.why with
    | .reply id => s.requestOut c id
    | .fetch => save
    | .walk fetch => save && fetch
    | _ => false)

/-- A context that is being stopped or saved issues no more; what it has parked or waiting elsewhere is withdrawn, but not a
reply that is on its way (R166). -/
def State.halt (s : State) (save : Bool) (c : CtxId) : State :=
  let x := s.ctx c
  let still (s : State) : State := s.setCtx c { s.ctx c with st := .waiting, why := .none }
  if x.msg.isSome ∧ x.why = .timed then s
  else match x.st, x.why with
  | .issuing, _ => still s
  | .waiting, .reply id => if s.requestOut c id then s else still (s.withdraw c)
  | .waiting, .fetch => if save then s else still s
  | .waiting, .walk fetch => if save && fetch then s else still (s.withdraw c)
  | .waiting, _ => still (s.withdraw c)
  | .parked, _ => still (s.withdraw c)
  | .dispatchWait, _ => still (s.withdraw c)
  | _, _ => s

/-- CSTOP (R166). Stage 1 is a later look at the target. -/
def State.cstop (s : State) (i : Instr) (d a : BitVec 4) : State :=
  let finish (s : State) (n code : Nat) : State :=
    let c := s.cur + n
    let s := (s.bothOf c).foldl (fun s c => (s.withdraw c).discard c) s
    let s := s.put d (BitVec.ofNat 64 code)
    if s.stage = 0 then s else s.wake s.cur
  let look (s : State) (n code : Nat) : State :=
    let l := s.bothOf (s.cur + n)
    let s := l.foldl (fun s c => s.halt false c) s
    if l.any (s.inFlight false) then (s.wait s.cur (.stopping (16 * code + n))).schedule (s.cycle + 1) ordLate s.cur 1 i
    else finish s n code
  if s.stage ≠ 0 then
    match s.me.why with
    | .stopping m => look s (m % 16) (m / 16)
    | _ => s
  else s.plain i (fun s =>
    if !isSteward s.cur then s.trapPriv i
    else
      let n := ((s.rd a).extractLsb' 0 4).toNat
      let x := s.ctx (s.cur + n)
      if n = 0 then s.put d 0xF
      else if x.gang.isSome ∨ s.oddTwin (s.cur + n) then s.put d 0xE
      else look s n x.st.code)

/-- CREAP (R167). -/
def State.creap (s : State) (i : Instr) (d a : BitVec 4) : State :=
  s.plain i (fun s =>
    if !isSteward s.cur then s.trapPriv i
    else
      let n := ((s.rd a).extractLsb' 0 4).toNat
      let c := s.cur + n
      let st := (s.ctx c).st
      let code : W64 := BitVec.ofNat 64 st.code
      if s.oddTwin c ∨ (st ≠ .ended ∧ st ≠ .trapped) then s.put d code
      else
        let s := if n = 15 then
            let k := coreOf c
            (s.setCore k { s.core k with trapQ := (s.core k).trapQ.filter (· != 15) }).endMessage k
          else (s.bothOf c).foldl (fun s c => s.discard c) s
        s.put d (code + 16))

def execCstart (d a b c : BitVec 4) (s : State) : Host.Outcome State Fault Refusal := .next (s.cstart (.cstart d a b c) d a b c)
def execCstop (d a : BitVec 4) (s : State) : Host.Outcome State Fault Refusal := .next (s.cstop (.cstop d a) d a)
def execCreap (d a : BitVec 4) (s : State) : Host.Outcome State Fault Refusal := .next (s.creap (.creap d a) d a)

/-! SPAWN (R150, R151, R169). -/

/-- SPAWN: its request leaves, and the spawner waits for one status. -/
def State.spawn (s : State) (i : Instr) (d a b : BitVec 4) : State :=
  s.plain i (fun s =>
    let g := s.rd a
    let pc := s.rd b
    let c := s.cur
    if pc &&& 3 ≠ 0 then s.trapMe causeMisfetch 0 pc
    else
      let core := (g.extractLsb' 0 24).toNat
      let chip := core / 4096
      let own := chip == s.dev.chip.toNat
      let id := s.token
      if g.extractLsb' 24 40 ≠ 0#40 then
        (s.tick1.wait c (.reply id)).later 1 ordReply (.replyArrival c { id := id, rd := d, wr := true, val := 3, did := true })
      else if s.routeHold c chip then s.wait c .held
      else
        let r : SpawnReq := {
          id := id, from_ := s.ctxNumber c, rd := d, core := core, pc := pc, a1 := s.rd 1, a2 := s.rd 2, a3 := s.rd 3, a4 := s.rd 4
          slot := s.slotOf c, num := s.me.num, dom := s.dev.dom, inc := s.dev.inc, want := Tab.get 0 s.dev.incs chip }
        let s := (s.tick1.setMe { s.me with num := s.me.num + 1 }).wait c (.reply id)
        let o : SentOp := { id := id, who := c, rd := d, msg := { id := id, src := r.from_, core := core }, spawn := some r }
        let s := if own then s else { s with sent := s.sent ++ [o] }
        s.port c { sig := [(wordOfInstr i).toNat, core, pc.toNat, r.a1.toNat, r.a2.toNat, r.a3.toNat, r.a4.toNat], id := id
                   delay := if own then s.toCluster (clusterOf c) (core % 4096 / 8) else 0, ord := 1000 + c, ev := .spawnArrival r })

/-- The status of a spawn goes back; that of another chip's is kept, for a resend (R412, R434). -/
def State.spawnBack (s : State) (r : SpawnReq) (code : W64) : State :=
  if r.from_ / 65536 = s.dev.chip.toNat then
    s.later (s.toCluster (r.core % 4096 / 8) (r.from_ % 65536 / 128)) ordReply
      (.replyArrival (r.from_ % 65536) { id := r.id, rd := r.rd, wr := true, val := code, did := true })
  else
    let s := s.keepFor (r.core % 4096) r.from_ r.num (code.setWidth 8) 0
    s.linkBack r.core (r.from_ / 65536) (.status r.from_ r.id (code.setWidth 8) 0)

/-- A spawn leaves the chip by its port, or ends ABSENT (R151, R430). -/
def State.spawnLink (s : State) (r : SpawnReq) : State :=
  match s.portFor (r.from_ / 16) r.core 0 with
  | none => s.later 1 ordReply (.remoteStatusArrival (r.from_ % 65536) r.id 3 0 none)
  | some p =>
    let put (o : SentOp) : SentOp := if o.id == r.id then { o with port := some p } else o
    ({ s with sent := s.sent.map put }).send (.spawn p r)

/-- A spawn at its target core starts the lowest free context, or is refused; a spawn of another chip is checked like any
message (R150, R432). -/
def State.doSpawnArrival (s : State) (r : SpawnReq) : State :=
  let chip := r.from_ / 65536
  let far := chip != s.dev.chip.toNat
  let k := r.core % 4096
  if r.core / 4096 ≠ s.dev.chip.toNat then s.spawnLink r
  else if far && s.dropsFrom chip r.dom r.inc then s.incDrop
  else if far && r.want != s.dev.inc then s.spawnBack r 4
  else match (if r.again then (Tab.get [] (s.core k).rkept r.from_).find? (fun e => e.1 == r.num) else none) with
  | some (_, code, _) => s.spawnBack r (zx code)
  | none =>
  if !s.clusterValid (coreCluster k) then s.spawnBack r 3
  else if !(s.core k).slots.getLsbD r.slot.toNat then s.spawnBack r 2
  else
    match s.freeOf r.slot k with
    | [] => s.spawnBack r 1
    | c :: _ =>
      let x := s.freshCtx c r.pc false r.slot [(1, r.a1), (2, r.a2), (3, r.a3), (4, r.a4)]
      ((s.startCtx c { x with st := .issuing, auto := true, roam := true, readyAt := s.cycle + 1 }).dropStale k).spawnBack r 0

def execSpawn (d a b : BitVec 4) (s : State) : Host.Outcome State Fault Refusal := .next (s.spawn (.spawn d a b) d a b)

/-! RFORK (R152, R170). -/

/-- The contexts that a fork of the cluster takes: cores c XOR 0 to c XOR 7, free contexts in ascending number. -/
def State.recruits (s : State) (c : CtxId) (slot : BitVec 4) (n : Nat) : List CtxId :=
  ((List.range 8).flatMap (fun j => s.freeOf slot (8 * clusterOf c + Nat.xor (coreOf c % 8) j))).take n

/-- Start of part i of m of a trip count n. -/
def forkLo (n m i : Nat) : Nat := i * n / m

/-- The recruits of a fork start, each with its range, its index and the join cell; their first issue follows the forker's
resumption and the write of the join cell. -/
def State.startRecruits (s : State) (c : CtxId) (pc join : W64) (n m first : Nat) : List CtxId → Nat → State
  | [], _ => s
  | r :: t, i =>
    let f := s.ctx c
    let x := s.freshCtx r pc false (s.slotOf c)
      [(1, BitVec.ofNat 64 (forkLo n m i)), (2, BitVec.ofNat 64 (forkLo n m (i + 1))), (3, BitVec.ofNat 64 i), (4, join)]
    let s := s.startCtx r { x with st := .issuing, auto := true, roam := f.roam && f.gang.isNone, gang := f.gang, readyAt := first }
    let s := s.dropStale (coreOf r)
    let s := match f.gang with
      | some g =>
        let y : Gang := Tab.get {} s.dev.gangs g
        { s with dev := { s.dev with gangs := Tab.set s.dev.gangs g { y with members := y.members ++ [r] } } }
      | none => s
    s.startRecruits c pc join n m first t (i + 1)

/-- RFORK: at issue its checks, and in the order of the cycle's requests its recruits (R146, R168). -/
def State.rfork (s : State) (i : Instr) (d a b j : BitVec 4) : State :=
  let c := s.cur
  let n := ((s.rd a).extractLsb' 0 32).toNat
  let k := max 1 ((s.rd a).extractLsb' 32 16).toNat
  let pc := s.rd b
  let join := s.rd j
  if s.stage ≠ 0 then
    match s.me.why, s.me.load with
    | .reply id, some q =>
      let pa := (q.pieces.headD {}).pa
      let l := s.recruits c (s.slotOf c) (max 1 ((n + k - 1) / k) - 1)
      let m := 1 + l.length
      let owner := match s.region pa with
        | .scratch cl _ => cl
        | _ => clusterOf c
      let write := s.toBank (clusterOf c) owner
      let no := s.token
      let p : Pend := { id := no, va := join, len := 8, pieces := q.pieces }
      let s := (s.bothOf c).foldl (fun s c => s.setCtx c { s.ctx c with pend := (s.ctx c).pend ++ [p] }) s.tick1
      let s := s.later write (1000 + c) (.bankAccess { id := no, who := c, op := .store, pieces := q.pieces, va := join
                                                       val := BitVec.ofNat 64 m, posted := true, ia := s.me.pc, slot := s.slotOf c })
      let s := s.startRecruits c pc join n m (s.cycle + max 24 write + 1) l 1
      (s.bothOf c).foldl (fun s c =>
        (s.setCtx c { s.ctx c with load := none }).later 24 ordReply (.rforkResume c id d (BitVec.ofNat 64 (forkLo n m 1)))) s
    | _, _ => s
  else s.plain i (fun s =>
    if pc &&& 3 ≠ 0 then s.trapMe causeMisfetch 0 pc
    else if !aligned join 8 then s.trapMe causeMisaccess 0 join
    else s.translateRun join 8 .w (fun s ps _ =>
      match s.region (ps.headD {}).pa with
      | .scratch _ _ =>
        if (s.refusedByte (ps.headD {}).pa 8).isSome then (s.count c cRefused).trapMe causeRefusal 0 join
        else if s.mustHold c { op := .store, va := join, posted := true } ps then s.wait c .held
        else (s.setMe { s.me with load := some { pieces := ps } }).sendUnit i 0 (1000 + c) [(s.rd a).toNat, pc.toNat, join.toNat]
      | _ => s.trapMe causeScratch 0 join))

/-- The forker goes on, 24 cycles after its issue (R152). -/
def State.doRforkResume (s : State) (c : CtxId) (id : Nat) (d : BitVec 4) (v : W64) : State :=
  if (s.ctx c).awaits id then s.now (.replyArrival c { id := id, rd := d, wr := true, val := v, did := true }) else s

def execRfork (d a b j : BitVec 4) (s : State) : Host.Outcome State Fault Refusal := .next (s.rfork (.rfork d a b j) d a b j)

/-! Migration (R159 to R162, R193). -/

/-- MIGR (R193). Stewards and message contexts are granted no context, since they cannot leave theirs (R144, R145). Where several
causes apply, GANG is looked at before NOHOME, and that before HERE (DESIGN CHOICE, log entry 66). -/
def State.migr (s : State) (i : Instr) (d a : BitVec 4) : State :=
  s.plain i (fun s =>
    let c := s.cur
    s.translate (s.rd a) .r (fun s pa _ =>
      let home := match s.region pa with
        | .hbm => some (homeOf (lineOf pa))
        | .scratch cl _ => some (s.quadOf cl)
        | _ => none
      if s.me.gang.isSome then s.put d 3
      else match home with
      | none => s.put d 4
      | some h =>
        if h = s.quadOf (clusterOf c) then s.put d 2
        else if !s.me.pend.isEmpty then s.wait c .held
        else
          let id := s.token
          (s.tick1.wait c (.reply id)).later (s.toSlice (clusterOf c) h) (1000 + c) (.migrationGrant c h none d (s.me.pc + 4))))

/-- The context that the mesh stop of a quad grants, searching clusters, cores and contexts in ascending order (R160). -/
def State.grantOf (s : State) (q : SliceId) (slot : BitVec 4) : Option CtxId :=
  (((List.range 4).filterMap (fun p => s.quadCluster q p)).flatMap (fun cl =>
    (List.range 8).flatMap (fun j => s.freeOf slot (8 * cl + j)))).head?

/-- GSR as a migration message and a save image carry it. -/
def State.gsr32 (s : State) (c : CtxId) : BitVec 32 := (s.gsr c).setWidth 32
/-- A context takes GSR from a message or an image. -/
def Ctx.setGsr (x : Ctx) (g : BitVec 32) : Ctx :=
  { x with ocls := g.extractLsb' 28 4, ferc := g.extractLsb' 20 8, pfmt := g.extractLsb' 8 12, pp := g.getLsbD 2, priv := g.getLsbD 0 }

/-- Live registers by number. -/
def Ctx.liveRegs (x : Ctx) : List Nat := (List.range 16).filter (fun n => n != 0 && !x.dead.getLsbD n)
/-- DEAD from LIVE. -/
def deadOf (live : BitVec 16) : BitVec 16 := ~~~live &&& 0xFFFE
/-- Live registers take values in ascending order. -/
def Ctx.putRegs (x : Ctx) : List Nat → List W64 → Ctx
  | n :: t, v :: vs => Ctx.putRegs { x with g := if h : n < 16 then x.g.set n v else x.g } t vs
  | _, _ => x

/-- The message of a migrating grain (R160). -/
def State.migMsg (s : State) (c : CtxId) (pld : Bool) (d : BitVec 4) (pc : W64) : MigMsg :=
  let x := s.ctx c
  { lgn := x.lgn, slot := s.slotOf c, live := ~~~x.dead &&& 0xFFFE, pld := pld, plr := if pld then d else 0, inc := s.dev.inc
    pc := pc, gsr := s.gsr32 c, tmask := x.tmask, regs := x.liveRegs.map (fun n => x.g.toArray.getD n 0) }

/-- Replace a core's forwarding entries. -/
def State.setFwds (s : State) (k : CoreId) (l : List Fwd) : State := s.setCore k { s.core k with fwds := l }

/-- No context is granted: a load goes on as an access from the old core, a store issues again there, MIGR ends NOROOM (R160,
R193). -/
def State.noGrant (s : State) (c : CtxId) (home : SliceId) (req : Option Nat) (d : BitVec 4) (pc : W64) : State :=
  let k := coreOf c
  let x := s.ctx c
  match req with
  | some id =>
    let held := ((s.core k).fwds.find? (fun f => f.id == id)).bind (·.held)
    let s := s.setFwds k ((s.core k).fwds.filter (fun f => f.id != id))
    (match held with
    | some r => s.now (.replyArrival c r)
    | none => s)
  | none =>
    match x.why with
    | .reply id =>
      let back := s.toSlice (clusterOf c) home
      if pc = x.pc then
        (s.setCtx c { x with stay := some pc }).later back ordReply (.replyArrival c { id := id, adv := false })
      else s.later back ordReply (.replyArrival c { id := id, rd := d, wr := true, val := 1 })
    | _ => s

/-- The mesh stop of the home's quad grants the lowest free context, which becomes Held and whose core takes the carried
logical time; the old context becomes Migrating and sends its message (R160). -/
def State.doMigrationGrant (s : State) (c : CtxId) (home : SliceId) (req : Option Nat) (d : BitVec 4) (pc : W64) : State :=
  match (s.ctx c).why with
  | .reply _ =>
    let slot := s.slotOf c
    (match if ctxNo c = 0 ∨ ctxNo c = 15 ∨ (s.twin c).isSome then none else s.grantOf home slot with
    | none => s.noGrant c home req d pc
    | some dst =>
      let m := s.migMsg c req.isSome d pc
      let s := s.raiseCt (coreOf dst) (s.ct (coreOf c))
      let s := s.setCtx dst { s.ctx dst with st := .held }
      let s := s.setCtx c { s.ctx c with st := .migrating, why := .none }
      s.later (s.toSlice (clusterOf c) home + s.toCluster (clusterOf c) (clusterOf dst)) (1000 + c) (.migrationAccept c dst m d req))
  | _ => s

/-- The destination accepts: it goes on at the carried PC, or waits for the load's reply, which moves it past the load to the
carried PC; the old context becomes Stopped, its counts go to the residue counters, and a forwarding entry is set up (R160 to
R162). Accesses before the move are ordered before those after it (R321). A destination that a CSTOP has stopped while the message was
on its way accepts all the same (DESIGN CHOICE, log entry 64). -/
def State.doMigrationAccept (s : State) (src dst : CtxId) (m : MigMsg) (d : BitVec 4) (req : Option Nat) : State :=
  let k := coreOf src
  let evc := (s.ctx src).evc
  let f := (s.core k).fwds.find? (fun f => some f.id == req)
  let x : Ctx := { ({} : Ctx) with
    pc := if req.isSome then m.pc - 4 else m.pc
    slot := m.slot, lgn := m.lgn, dead := deadOf m.live, tmask := m.tmask, auto := true, roam := (s.ctx src).roam
    epoch := (s.ctx dst).epoch + 1, num := (s.ctx dst).num, jobs := (s.ctx src).jobs }
  let jobs := Tab.mapVal (fun (j : Job) => if j.used && j.who == src then { j with who := dst } else j) s.dev.jobs
  let s := { s with dev := { s.dev with jobs := jobs } }
  let x := (x.setGsr m.gsr).putRegs ((List.range 16).filter (fun n => m.live.getLsbD n)) m.regs
  let x := match req with
    | some id => { x with st := .waiting, why := .reply id, load := f.bind (·.req) }
    | none => { x.wr d 0 with st := .issuing, readyAt := s.cycle + 1 }
  let s := ((s.setCtx dst x).discard src).dropStale (coreOf dst)
  let s := s.setCore k { s.core k with
    mres := (s.core k).mres.gain evc
    mout := if (s.core k).mout = -1 then (s.core k).mout else (s.core k).mout + 1 }
  match f with
  | none => s
  | some f =>
    match f.held with
    | some r =>
      (s.setFwds k ((s.core k).fwds.filter (fun y => y.id != f.id))).later (s.toCluster (clusterOf src) (clusterOf dst)) ordReply
        (.replyArrival dst { r with fill := none })
    | none =>
      (s.setFwds k ((s.core k).fwds.map (fun y => if y.id == f.id then { y with accepted := true, dst := dst } else y))).later 1024 ordReply
        (.forwardEntryLapse k f.id)

/-- A reply for a migrating load at its old core: held before acceptance, forwarded within 1024 cycles of it, and dropped and
counted after the entry has lapsed (R161). -/
def State.doMigratedReply (s : State) (c : CtxId) (r : Reply) : State :=
  let k := coreOf c
  match (s.core k).fwds.find? (fun f => f.id == r.id) with
  | none => s
  | some f =>
    let others := (s.core k).fwds.filter (fun y => y.id != f.id)
    if !f.accepted then s.setFwds k (others ++ [{ f with held := some r }])
    else if f.req.isNone then
      let s := s.setFwds k others
      s.setCore k { s.core k with dropped := if (s.core k).dropped = -1 then (s.core k).dropped else (s.core k).dropped + 1 }
    else
      (s.setFwds k others).later (s.toCluster (clusterOf c) (clusterOf f.dst)) ordReply (.replyArrival f.dst { r with fill := none })

/-- A forwarding entry lapses: the destination issues the load afresh from its own core, and the old reply will be dropped
(R161). -/
def State.doForwardEntryLapse (s : State) (k : CoreId) (id : Nat) : State :=
  match (s.core k).fwds.find? (fun f => f.id == id) with
  | none => s
  | some f =>
    match f.req with
    | none => s
    | some q =>
      let s := s.setFwds k ((s.core k).fwds.map (fun y => if y.id == id then { y with req := none } else y))
      if (s.ctx f.dst).awaits id then
        let r := { q with who := f.dst, ct := s.ct (coreOf f.dst), pieces := q.pieces, done := 0, got := 0 }
        let (delay, ord, e) := s.route r
        s.later (s.toCluster (coreCluster k) (clusterOf f.dst) + delay) ord e
      else s

def execMigr (d a : BitVec 4) (s : State) : Host.Outcome State Fault Refusal := .next (s.migr (.migr d a) d a)

def execSpawnArrival (s : State) : Host.Outcome State Fault Refusal :=
  .next (match s.ev with
    | .spawnArrival r => s.doSpawnArrival r
    | _ => s)
def execRforkResume (s : State) : Host.Outcome State Fault Refusal :=
  .next (match s.ev with
    | .rforkResume c id d v => s.doRforkResume c id d v
    | _ => s)
def execMigrationGrant (s : State) : Host.Outcome State Fault Refusal :=
  .next (match s.ev with
    | .migrationGrant c h r d pc => s.doMigrationGrant c h r d pc
    | _ => s)
def execMigrationAccept (s : State) : Host.Outcome State Fault Refusal :=
  .next (match s.ev with
    | .migrationAccept a b m d r => s.doMigrationAccept a b m d r
    | _ => s)
def execMigratedReply (s : State) : Host.Outcome State Fault Refusal :=
  .next (match s.ev with
    | .migratedReply c r => s.doMigratedReply c r
    | _ => s)
def execForwardEntryLapse (s : State) : Host.Outcome State Fault Refusal :=
  .next (match s.ev with
    | .forwardEntryLapse k id => s.doForwardEntryLapse k id
    | _ => s)

end Sys2Proof.Machine
end

