-- ==== Sys2Proof/Machine/Barriers.lean ====
section
/-!
DEFINITION. Barriers: BARC over a sheaf and BARW over a stook, their episodes, time-outs and combined counter records (R189 to
R192, R69, R162).
-/

namespace Sys2Proof.Machine

/-- Episodes of one barrier of a gang in a cluster, the present one first. -/
def State.episodes (s : State) (wire : Bool) (cl : ClusterId) (g : Nat) : List Episode :=
  Tab.get [] (if wire then (s.cluster cl).barw else (s.cluster cl).barc) g
/-- Replace them; an empty list is not kept. -/
def State.setEpisodes (s : State) (wire : Bool) (cl : ClusterId) (g : Nat) (l : List Episode) : State :=
  let x := s.cluster cl
  let put (t : Tab (List Episode)) : Tab (List Episode) := if l.isEmpty then Tab.erase t g else Tab.set t g l
  s.setCluster cl (if wire then { x with barw := put x.barw } else { x with barc := put x.barc })

/-- The member grains of a gang in a cluster. -/
def State.membersIn (s : State) (g : Nat) (cl : ClusterId) : List CtxId := (s.gang g).members.filter (fun c => clusterOf c == cl)
/-- A member has ended: it is Ended, or has been reaped since (R189). -/
def State.hasEnded (s : State) (g : Nat) (c : CtxId) : Bool := (s.ctx c).gang != some g || (s.ctx c).st == .ended

/-- Clusters of the stook that a cluster of a gang belongs to: those of its own die (R189). -/
def State.stookOf (s : State) (g : Nat) (cl : ClusterId) : List ClusterId := (s.gang g).cls.filter (fun x => x / 256 == cl / 256)
/-- Width plus height of a stook's rectangle (R190). -/
def Gang.span (x : Gang) : Nat := x.desc.wm1 + x.desc.hm1 + 2

/-- The place of the open episode, the first that is not complete. -/
def openIdx (l : List Episode) : Nat := l.length - (l.filter (fun e => !e.closed)).length

/-- Every participant of a cluster's open episode has arrived or ended. -/
def State.allHere (s : State) (g : Nat) (cl : ClusterId) (e : Episode) : Bool :=
  !e.arrived.isEmpty && (s.membersIn g cl).all (fun c => s.hasEnded g c || e.arrived.any (fun a => a.who == c))

/-- An episode of BARC whose last participant has arrived completes; a cluster's part of one of BARW raises its tap 4 cycles
later (R190). A cluster with no participant left raises its tap with the others. -/
def State.checkBarrier (s : State) (wire : Bool) (g : Nat) (cl : ClusterId) : State :=
  let l := s.episodes wire cl g
  match l.find? (fun e => !e.closed) with
  | none => s
  | some e =>
    if !s.allHere g cl e ∨ e.tap ∨ e.tapAt ≠ 0 then s
    else if wire then
      (s.setEpisodes wire cl g (l.set (openIdx l) { e with tapAt := s.cycle + 4 })).later 4 ordReply (.barwTapRise g cl)
    else (s.setEpisodes wire cl g (l.set (openIdx l) { e with closed := true })).later 6 ordReply (.barcDone g cl)

/-- The members of a gang in a cluster that are Ended, as they count as arrived: with their counters and no record (R189, R192). -/
def State.endedHere (s : State) (g : Nat) (cl : ClusterId) : List Arrival :=
  ((s.membersIn g cl).filter (fun c => (s.ctx c).gang == some g && (s.ctx c).st == .ended)).map (fun c =>
    { who := c, evc := (s.ctx c).evc, cycle := s.cycle, ended := true })

/-- Members that have ended while an episode of their cluster is incomplete count as arrived in it (R189). -/
def State.joinEnded (s : State) (wire : Bool) (g : Nat) (cl : ClusterId) : State :=
  let l := s.episodes wire cl g
  match l.find? (fun e => !e.closed) with
  | none => s
  | some e =>
    let more := (s.endedHere g cl).filter (fun a => !e.arrived.any (fun x => x.who == a.who && x.ended))
    if more.isEmpty then s else s.setEpisodes wire cl g (l.set (openIdx l) { e with arrived := e.arrived ++ more })

/-- A grain arrives at its barrier, in Dispatch wait (R189, R191). -/
def State.doBarrierArrival (s : State) (c : CtxId) (wire : Bool) (d : BitVec 4) (rcd : W64) : State :=
  match (s.ctx c).gang with
  | none => s
  | some g =>
    let cl := clusterOf c
    let s := (s.park c .dispatchWait .barrier).watch c
    let tok := s.token
    let s := s.tick1
    let l := s.episodes wire cl g
    let l := if l.any (fun e => !e.closed) then l else l ++ [{ parity := match l.getLast? with
      | some e => !e.parity
      | none => false }]
    let i := openIdx l
    let e := l.getD i {}
    let a : Arrival := { who := c, rd := d, rcd := rcd, evc := (s.ctx c).evc, cycle := s.cycle, token := tok }
    let s := (s.setEpisodes wire cl g (l.set i { e with arrived := e.arrived ++ [a] })).joinEnded wire g cl
    let t := (s.ctx c).btmo.toNat
    let s := if t = 0 then s else s.later t 165000 (.barrierTimeout c tok)
    s.checkBarrier wire g cl

/-- BARC and BARW at issue: the record's alignment, then the wait for stores, then the arrival (R164, R189). -/
def State.barrier (s : State) (i : Instr) (wire : Bool) (d a : BitVec 4) : State :=
  s.plain i (fun s =>
    if !aligned (s.rd a) 128 then s.trapMe causeMisaccess 0 (s.rd a)
    else if s.me.gang.isNone then s.put d 2
    else s.drained i (fun s => s.now (.barrierArrival s.cur wire d (s.rd a))))

def execBarc (d a : BitVec 4) (s : State) : Host.Outcome State Fault Refusal := .next (s.barrier (.barc d a) false d a)
def execBarw (d a : BitVec 4) (s : State) : Host.Outcome State Fault Refusal := .next (s.barrier (.barw d a) true d a)

/-! Records and departure (R190, R192). -/

/-- The combined counters of an episode: the participants' at their arrivals, and each core's residue counters once (R69,
R162). -/
def State.combined (s : State) (l : List Arrival) : EvcSet :=
  let own := l.foldl (fun x a => x.join a.evc) EvcSet.zero
  ((l.map (fun a => coreOf a.who)).eraseDups).foldl (fun x k => x.join (s.core k).mres) own

/-- The arrival whose record is written: non-zero gR, lowest LGN (R192). -/
def State.recordOf (s : State) (l : List Arrival) : Option Arrival :=
  (l.filter (fun a => a.rcd != 0)).foldl (fun (best : Option Arrival) a =>
    match best with
    | none => some a
    | some b => if (s.ctx a.who).lgn.ult (s.ctx b.who).lgn then some a else some b) none

/-- The 128 bytes of a counter record. -/
def recordBytes (x : EvcSet) : List Byte := (List.range 16).flatMap (fun n => leBytes 8 (x.nth n).read.toNat)

/-- A unit's run of bytes, each line's at once where it can be written now and otherwise in pieces of 8; full-empty bits stand
(R298). -/
def State.unitWrite (s : State) (pa : Nat) (bs : List Byte) : State :=
  (splitLines pa bs.length).foldl (fun s p =>
    let b := (bs.drop (p.pa - pa)).take p.len
    if (s.region p.pa).outside || s.cohReady p.pa p.len then s.unitStore false p.pa b
    else (List.range ((p.len + 7) / 8)).foldl (fun s i => s.unitStore false (p.pa + 8 * i) ((b.drop (8 * i)).take 8)) s) s

/-- A unit can write a run of bytes in this cycle, as one step (R291). -/
def State.unitCan (s : State) (pa n : Nat) : Bool := (s.region pa).outside || s.cohReady pa n

/-- The record of an episode is written, or cannot be: its answer is the status of every participant (R192). -/
def State.writeRecord (s : State) (l : List Arrival) : State × W64 :=
  match s.recordOf l with
  | none => (s, 0)
  | some a =>
    match s.translateNow (s.slotOf a.who) (s.privOf a.who) a.rcd .w with
    | .error _ => (s, 3)
    | .ok (pa, _) =>
      if (s.refusedByte pa 128).isSome then (s, 3)
      else ((s.setDirty (s.slotOf a.who) a.rcd).unitWrite pa (recordBytes (s.combined l)), 0)

/-- Whether the record of an episode, if it can be written at all, can be written in this cycle; and what the wait for that sets
off. -/
def State.recordWait (s : State) (l : List Arrival) : Option State :=
  match s.recordOf l with
  | none => none
  | some a =>
    let slot := s.slotOf a.who
    match s.translateNow slot (s.privOf a.who) a.rcd .w with
    | .error _ => none
    | .ok (pa, _) =>
      if (s.refusedByte pa 128).isSome ∨ (s.dirtyReady slot a.rcd ∧ s.unitCan pa 128) then none
      else some ((s.nudgeLeaf slot a.rcd).nudge pa 128)

/-- A participant leaves its barrier with a status and goes on in its first slot after this cycle (R142, R190). -/
def State.leave (s : State) (a : Arrival) (v : W64) : State :=
  if !a.ended ∧ (s.ctx a.who).why = .barrier then
    match (if s.heldBack a.who then (s.ctx a.who).gang else none) with
    | some g =>
      let id := s.token
      (s.tick1.setCtx a.who { s.ctx a.who with why := .unit id }).keepEvent g
        (.replyArrival a.who { id := id, rd := a.rd, wr := true, val := v, bank := true })
    | none => ((s.setCtx a.who ((s.ctx a.who).wr a.rd v).adv).wake a.who).dropStale (coreOf a.who)
  else s

/-- The present episode of a BARC is done, once its record is written (R190, R192). -/
def State.doBarcDone (s : State) (g : Nat) (cl : ClusterId) : State :=
  match s.episodes false cl g with
  | [] => s
  | e :: t =>
    if !e.closed then s
    else match s.recordWait e.arrived with
    | some s => s.later 1 ordReply (.barcDone g cl)
    | none =>
      let (s, v) := (s.setEpisodes false cl g t).writeRecord e.arrived
      e.arrived.foldl (fun s a => s.leave a v) s

/-- A cluster raises its tap; the last of the stook completes the episode (R190). -/
def State.doBarwTapRise (s : State) (g : Nat) (cl : ClusterId) : State :=
  let l := s.episodes true cl g
  match l.find? (fun e => !e.closed) with
  | none => s
  | some e =>
    if e.tapAt ≠ s.cycle then s
    else
      let s := s.setEpisodes true cl g (l.set (openIdx l) { e with tap := true, tapAt := 0 })
      let up (c : ClusterId) : Bool :=
        (match (s.episodes true c g).find? (fun e => !e.closed) with
        | some e => e.tap
        | none => (s.membersIn g c).all (s.hasEnded g))
      if (s.stookOf g cl).all up then
        let s := (s.stookOf g cl).foldl (fun s c =>
          let l := s.episodes true c g
          match l.find? (fun e => !e.closed) with
          | some e => s.setEpisodes true c g (l.set (openIdx l) { e with closed := true })
          | none => s) s
        s.later ((s.gang g).span + 6) ordReply (.barwDone (2 * g + cl / 256))
      else s

/-- The present episode of a BARW is done in every cluster of the stook; the number names gang and die (R190). -/
def State.doBarwDone (s : State) (key : Nat) : State :=
  let g := key / 2
  let cls := (s.gang g).cls.filter (fun c => c / 256 == key % 2)
  let parts := cls.filterMap (fun c => match s.episodes true c g with
    | e :: _ => if e.closed then some (c, e) else none
    | [] => none)
  let all := parts.flatMap (fun p => p.2.arrived)
  match s.recordWait all with
  | some s => s.later 1 ordReply (.barwDone key)
  | none =>
    let s := parts.foldl (fun s p => s.setEpisodes true p.1 g ((s.episodes true p.1 g).drop 1)) s
    let (s, v) := s.writeRecord all
    all.foldl (fun s a => s.leave a v) s

/-- A participant's time is up: it withdraws its arrival, its cluster's tap falls, and it leaves with TIMEOUT, unless its
episode is complete (R191). -/
def State.doBarrierTimeout (s : State) (c : CtxId) (tok : Nat) : State :=
  match (s.ctx c).gang with
  | none => s
  | some g =>
    if s.heldBack c then s.keepEvent g (.barrierTimeout c tok) else
    let cl := clusterOf c
    [false, true].foldl (fun s wire =>
      let l := s.episodes wire cl g
      match l.find? (fun e => !e.closed) with
      | none => s
      | some e =>
        match e.arrived.find? (fun a => !a.ended && a.token == tok) with
        | none => s
        | some a =>
          let e := { e with arrived := e.arrived.filter (fun x => x.ended || x.token != tok), tap := false, tapAt := 0 }
          let l := if e.arrived.all (·.ended) then l.eraseIdx (openIdx l) else l.set (openIdx l) e
          (s.setEpisodes wire cl g l).leave a 1) s

/-- A cluster whose members have all ended, none of them in an episode that waits, raises its tap like an arrival (R189). -/
def State.endedTap (s : State) (g : Nat) (cl : ClusterId) : State :=
  let isOpen (c : ClusterId) : Bool := (s.episodes true c g).any (fun e => !e.closed)
  if (s.stookOf g cl).any isOpen && !isOpen cl && (s.membersIn g cl).all (s.hasEnded g) then
    (s.setEpisodes true cl g (s.episodes true cl g ++ [{ arrived := s.endedHere g cl, tapAt := s.cycle + 4 }])).later 4 ordReply (.barwTapRise g cl)
  else s

/-- A member of a gang has ended or left: its cluster's open episodes are looked at again (R189). -/
def State.checkBarriers (s : State) (g : Nat) : State :=
  (s.gang g).cls.foldl (fun s cl =>
    ((((s.joinEnded false g cl).joinEnded true g cl).checkBarrier false g cl).checkBarrier true g cl).endedTap g cl) s

def execBarrierArrival (s : State) : Host.Outcome State Fault Refusal :=
  .next (match s.ev with
    | .barrierArrival c w d r => s.doBarrierArrival c w d r
    | _ => s)
def execBarcDone (s : State) : Host.Outcome State Fault Refusal :=
  .next (match s.ev with
    | .barcDone g cl => s.doBarcDone g cl
    | _ => s)
def execBarwTapRise (s : State) : Host.Outcome State Fault Refusal :=
  .next (match s.ev with
    | .barwTapRise g cl => s.doBarwTapRise g cl
    | _ => s)
def execBarwDone (s : State) : Host.Outcome State Fault Refusal :=
  .next (match s.ev with
    | .barwDone k => s.doBarwDone k
    | _ => s)
def execBarrierTimeout (s : State) : Host.Outcome State Fault Refusal :=
  .next (match s.ev with
    | .barrierTimeout c k => s.doBarrierTimeout c k
    | _ => s)

end Sys2Proof.Machine
end

