-- ==== Sys2Proof/Machine/CacheOps.lean ====
section
/-!
DEFINITION. The range instructions CFLUSH, CINV and CDISC, and TLBINV and ATRANS (R308 to R312).
-/

namespace Sys2Proof.Machine

/-- The frame of an address is lent (R309). -/
def State.frameLent (s : State) (pa : Nat) : Bool := s.lentAway pa

/-- Lines acted on and pieces skipped are added to a range instruction's count, and its line steps to those awaited (R310). -/
def State.rangeCount (s : State) (id lines skips steps : Nat) : State :=
  let o : RangeOp := Tab.get {} s.ranges id
  { s with ranges := Tab.set s.ranges id { o with
      left := o.left + steps, res := fields [(32, min (bitsAt o.res 32 16 + skips) 0xFFFF), (0, bitsAt o.res 0 32 + lines)] } }

/-- The lines of one translated piece take their steps, each as it reaches its home; lines outside HBM4 are in no cache but the
core's instruction cache, which CINV rids of them (R33, R291, R309). -/
def State.rangePiece (s : State) (op : BitVec 2) (id a l base pa : Nat) : State :=
  let c := s.cur
  let first := max a base / 128
  let n := (min (a + l) (base + 65536) + 127) / 128 - first
  let lines := (List.range n).map (fun i => (128 * (first + i), (pa + (128 * (first + i) - base)) / 128))
  if pa < hbmBytes then
    (lines.foldl (fun (s : State) (v, line) =>
      s.later (s.toSlice (clusterOf c) (homeOf line)) ordLate (.lineStep line op (a ≤ v && v + 128 ≤ a + l) id)) s).rangeCount id n 0 n
  else
    let k := coreOf c
    let s := if op = 1 then
        s.setCore k { s.core k with icache := (s.core k).icache.filter (fun e => !(lines.map (·.2)).contains e.1) }
      else s
    s.rangeCount id n 0 0

/-- The last piece has been done: the instruction waits for its line steps, or completes (R310). -/
def State.rangeEnd (s : State) (id : Nat) (d : BitVec 4) : State :=
  let c := s.cur
  let o : RangeOp := Tab.get {} s.ranges id
  let s := (s.setMe { s.me with range := none }).wait c (.reply id)
  if o.left ≤ 1 then
    ({ s with ranges := Tab.erase s.ranges id }).later 1 ordReply (.replyArrival c { id := id, rd := d, wr := true, val := o.res, did := true })
  else { s with ranges := Tab.set s.ranges id { o with left := o.left - 1 } }

/-- The pieces of a range instruction from the j-th on, in ascending order: each is looked up as an access is, which may wait for
the cluster TLB or a walk, and its lines take their steps, or it is skipped (R305, R310). -/
def State.rangePieces (s : State) (op : BitVec 2) (id a l : Nat) (d : BitVec 4) : Nat → Nat → State
  | 0, _ => s.rangeEnd id d
  | n + 1, j =>
    let c := s.cur
    let base := a / 65536 * 65536 + 65536 * j
    let va : W64 := BitVec.ofNat 64 base
    let here (s : State) : State := s.setMe { s.me with range := some (id, j) }
    let skip (s : State) : State := (s.rangeCount id 0 1 0).rangePieces op id a l d n (j + 1)
    match s.found c va with
    | .failed _ => skip (s.setMe { s.me with walked := none })
    | .near e => (here s).nearFill c e false
    | .miss => (here s).askWalk c va false false
    | .core e =>
      let pa := e.phys va.toNat
      if s.checkLeaf e (s.privOf c) (if op = 2 then .w else .r) pa ≠ 0 ∨ s.frameLent pa then skip s
      else (s.rangePiece op id a l base pa).rangePieces op id a l d n (j + 1)

/-- A range instruction (R309, R310): its checks, the wait for stores, and its pieces; one that has waited for a translation goes
on with the piece it has come to. -/
def State.rangeInstr (s : State) (i : Instr) (op : BitVec 2) (d a b : BitVec 4) : State :=
  s.plain i (fun s =>
    let va := (s.rd a).toNat
    let l := (s.rd b).toNat
    let n := (va + l - 1) / 65536 - va / 65536 + 1
    match s.me.range with
    | some (id, j) => s.rangePieces op id va l d (n - j) j
    | none =>
      if l = 0 then s.put d 0
      else if 2 ^ 30 < l then s.put d (failCode 1)
      else if 2 ^ 64 < va + l then s.put d (failCode 2)
      else s.drained i (fun s =>
        let id := s.token
        ({ s.tick1 with ranges := Tab.set s.ranges id { who := some (s.cur, d), left := 1 } } : State).rangePieces op id va l d n 0))

def execCflush (d a b : BitVec 4) (s : State) : Host.Outcome State Fault Refusal := .next (s.rangeInstr (.cflush d a b) 0 d a b)
def execCinv (d a b : BitVec 4) (s : State) : Host.Outcome State Fault Refusal := .next (s.rangeInstr (.cinv d a b) 1 d a b)
def execCdisc (d a b : BitVec 4) (s : State) : Host.Outcome State Fault Refusal := .next (s.rangeInstr (.cdisc d a b) 2 d a b)

/-! TLBINV (R311). -/

/-- A core lies within a TLBINV's scope of a context. -/
def inScope (scope : Nat) (c : CtxId) (k : CoreId) : Bool :=
  match scope with
  | 0 => coreOf c == k
  | 1 => clusterOf c == coreCluster k
  | 2 => dieOf c == k / 2048
  | _ => true
/-- A cluster lies within its scope; scope 0 has the core's own. -/
def clusterInScope (scope : Nat) (c : CtxId) (k : ClusterId) : Bool :=
  match scope with
  | 0 => clusterOf c == k
  | 1 => clusterOf c == k
  | 2 => dieOf c == k / 256
  | _ => true

/-- Some byte of a run of virtual bytes lies in the page of some entry. -/
def anyMaps (l : List TlbEnt) (slot : BitVec 4) (va : W64) (n : Nat) : Bool :=
  l.any (fun e => e.maps slot va.toNat || e.maps slot (va.toNat + (n - 1)))

/-- The accesses of a context that removed entries have translated and that have not been performed: its posted ones, the one it
waits for, and its fetch (R311). A copy of ECPY counts whatever it touches. -/
def State.accessesOf (s : State) (l : List TlbEnt) (c : CtxId) : List (CtxId × Bool × Nat) :=
  let x := s.ctx c
  let slot := s.slotOf c
  (x.pend.filter (fun p => p.copy || anyMaps l slot p.va p.len)).map (fun p => (c, false, p.id))
    ++ (match x.acc with
      | some (va, n, id) => if x.awaits id && anyMaps l slot va n then [(c, false, id)] else []
      | none => [])
    ++ (if x.why = .fetch ∧ anyMaps l slot x.pc 4 then [(c, true, x.epoch)] else [])

/-- Such an access has not been performed yet. -/
def State.accessOut (s : State) (w : CtxId × Bool × Nat) : Bool :=
  let x := s.ctx w.1
  if w.2.1 then x.why == .fetch && x.epoch == w.2.2 else x.awaits w.2.2 || x.pend.any (fun p => p.id == w.2.2)

/-- TLBINV: entries go and walks in flight are voided at once; it completes when the accesses translated by removed entries have
been performed and those walks have finished. An address that is not canonical lies in no page. -/
def State.tlbinv (s : State) (i : Instr) (d a b : BitVec 4) : State :=
  let c := s.cur
  let g := s.rd b
  let slot : BitVec 4 := g.extractLsb' 0 4
  let scope := (g.extractLsb' 4 2).toNat
  if s.stage ≠ 0 then
    match s.me.why with
    | .reply id =>
      let o : RangeOp := Tab.get {} s.ranges id
      if o.waits.any s.accessOut || s.slices.any (fun e => e.2.walks.any (fun w => w.slot == slot && w.void)) then
        s.schedule (s.cycle + 1) ordReply c 1 i
      else ({ s with ranges := Tab.erase s.ranges id }).now (.replyArrival c { id := id, rd := d, wr := true, did := true })
    | _ => s
  else s.plain i (fun s =>
    if !s.privOf c then s.trapPriv i
    else s.drained i (fun s =>
      let hit (e : TlbEnt) : Bool := e.slot == slot && (g.getLsbD 6 || (canonical (s.rd a) && e.maps slot (s.rd a).toNat))
      let gone := s.cores.flatMap (fun k => if inScope scope c k.1 then k.2.tlb.filter hit else [])
        ++ s.clusters.flatMap (fun k => if clusterInScope scope c k.1 then k.2.tlb.filter hit else [])
      let waits := s.ctxs.flatMap (fun x => if inScope scope c (coreOf x.1) && s.slotOf x.1 == slot then s.accessesOf gone x.1 else [])
      let id := s.token
      let core (k : Nat × Core) : Nat × Core :=
        if inScope scope c k.1 then (k.1, { k.2 with tlb := k.2.tlb.filter (fun e => !hit e) }) else k
      let cluster (k : Nat × Cluster) : Nat × Cluster :=
        if clusterInScope scope c k.1 then (k.1, { k.2 with tlb := k.2.tlb.filter (fun e => !hit e) }) else k
      let void (w : WalkReq) : WalkReq := if w.slot == slot then { w with void := true } else w
      -- a result on its way to its requester is installed nowhere either
      let lost (x : Ctx) : Ctx := match x.leaf with
        | some e => if e.slot == slot then { x with leaf := none } else x
        | none => x
      let s := { s with
        cores := s.cores.map core
        clusters := s.clusters.map cluster
        ctxs := Tab.mapVal lost s.ctxs
        slices := Tab.mapVal (fun y => { y with walks := y.walks.map void }) s.slices
        ranges := Tab.set s.ranges id { who := some (c, d), waits := waits } }
      let t := match scope with
        | 0 => 16
        | 1 => 20
        | 2 => 200
        | _ => 400
      (s.tick1.wait c (.reply id)).schedule (s.cycle + t) ordReply c 1 i))

def execTlbinv (d a b : BitVec 4) (s : State) : Host.Outcome State Fault Refusal := .next (s.tlbinv (.tlbinv d a b) d a b)

/-! ATRANS (R312). -/

/-- The answer of ATRANS for an outcome. -/
def atransWord : Except (BitVec 8) (Nat × TlbEnt) → W64
  | .error k => fields [(63, 1), (0, k.toNat)]
  | .ok (pa, e) => fields [(55, e.mig.toNat), (54, e.d.toNat), (52, e.size.toNat), (0, pa)]

/-- ATRANS looks up as an access does; it waits for a walk or for the fill from the cluster TLB, and goes on (R312, R305). -/
def State.atrans (s : State) (i : Instr) (d a b : BitVec 4) : State :=
  s.plain i (fun s =>
    let c := s.cur
    let need : Option Need := match ((s.rd b).extractLsb' 0 2).toNat with
      | 0 => some .r
      | 1 => some .w
      | 2 => some .x
      | _ => none
    match need with
    | none => s.put d (fields [(63, 1), (0, 0xF)])
    | some need =>
      let va := s.rd a
      match s.found c va with
      | .failed k => (s.setCtx c { s.ctx c with walked := none }).put d (atransWord (.error k))
      | .core e =>
        let k := s.checkLeaf e (s.privOf c) need (e.phys va.toNat)
        s.put d (atransWord (if k ≠ 0 then .error k else .ok (e.phys va.toNat, e)))
      | .near e => s.nearFill c e false
      | .miss => s.askWalk c va false false)

def execAtrans (d a b : BitVec 4) (s : State) : Host.Outcome State Fault Refusal := .next (s.atrans (.atrans d a b) d a b)

end Sys2Proof.Machine
end

