-- ==== Sys2Proof/Machine/UnitIo.lean ====
section
/-!
DEFINITION. Reads and writes of memory by the units that act on their own: translation of a run of bytes at once, reads that
may wait for a line or for an external window, and writes of whole runs (R298, R304, R365, R376, R445; log entry 10).
-/

namespace Sys2Proof.Machine

/-- Split a run of virtual bytes at page boundaries: address and length. -/
def pageRuns (va : W64) (n : Nat) : List (W64 × Nat) :=
  let o := va.toNat % 65536
  (List.range ((o + n + 65535) / 65536)).map (fun i =>
    let lo := max o (65536 * i)
    (va + BitVec.ofNat 64 (lo - o), min (o + n) (65536 * (i + 1)) - lo))

/-- As translateNow for a unit, which no B-store window stops: class BSWIN is a grain's (R292, R306). -/
def State.translateUnit (s : State) (slot : BitVec 4) (priv : Bool) (va : W64) (need : Need) : Except (BitVec 8) Nat :=
  match (s.walk slot va).ent with
  | none => .error (s.walk slot va).cls
  | some e =>
    let k := s.checkLeaf e priv need (e.phys va.toNat)
    if k ≠ 0 ∧ k ≠ clsBswin then .error k else .ok (e.phys va.toNat)

/-- The physical pieces, by line, of a run of virtual bytes, or the class of the first page that fails. -/
def State.unitPieces (s : State) (slot : BitVec 4) (priv : Bool) (need : Need) (va : W64) (n : Nat) : Except (BitVec 8) (List Piece) :=
  (pageRuns va n).foldl (fun acc (a, m) =>
    match acc with
    | .error e => .error e
    | .ok l => match s.translateUnit slot priv a need with
      | .error e => .error e
      | .ok pa => .ok (l ++ splitLines pa m)) (.ok [])

/-- A unit's read of one line of an external window goes out under a token. -/
def State.askOutside (s : State) (p : Piece) : State × Nat :=
  let id := s.token
  let s := s.tick1
  let s := { s with dev := { s.dev with reads := s.dev.reads ++ [(id, none)] } }
  let core := 4096 * s.dev.chip.toNat
  (match s.region p.pa with
  | .host port => s.send (.hostLoad port p.pa p.len id)
  | .peer k =>
    if (s.portFor core (4096 * s.peerChip k) 0).isNone then
      let a := s.freeBytes p.len
      { a.1 with dev := { a.1.dev with reads := a.1.dev.reads.map (fun e => if e.1 == id then (id, some a.2) else e) } }
    else s.linkOut core (s.peerChip k) id (.load p.pa p.len id)
  | _ => s, id)

/-- How far a unit's read has come: the token of the external read that is out, the bytes so far, and whether all are there. -/
structure Got where
  ext  : Nat := 0
  buf  : List Byte := []
  done : Bool := false

/-- Read the pieces of a run that are left. -/
def State.readPieces (s : State) : List Piece → Nat → List Byte → State × Got
  | [], ext, buf => (s, { ext := ext, buf := buf, done := true })
  | p :: t, ext, buf =>
    if (s.region p.pa).outside then
      if ext = 0 then
        let (s, id) := s.askOutside p
        (s, { ext := id, buf := buf })
      else match s.dev.reads.find? (fun e => e.1 == ext) with
        | some (_, some b) =>
          { s with dev := { s.dev with reads := s.dev.reads.filter (fun e => e.1 != ext) } }.readPieces t 0 (buf ++ b.take p.len)
        | _ => (s, { ext := ext, buf := buf })
    else if s.cohReady p.pa p.len then
      (if s.lentAway p.pa then s.violate p.pa else s.markRead p.pa p.len).readPieces t ext (buf ++ s.cohRead p.pa p.len)
    else (s.nudge p.pa p.len, { ext := ext, buf := buf })

/-- The pieces left after n bytes, which are whole pieces. -/
def dropPieces : List Piece → Nat → List Piece
  | [], _ => []
  | p :: t, n => if n < p.len then p :: t else dropPieces t (n - p.len)

/-- Go on reading a run of which some bytes are already there. -/
def State.unitRead (s : State) (ps : List Piece) (ext : Nat) (buf : List Byte) : State × Got :=
  s.readPieces (dropPieces ps buf.length) ext buf

/-- Every line of the pieces, and every leaf whose D the write sets, can be written in this cycle. -/
def State.unitReady (s : State) (slot : BitVec 4) (va : W64) (ps : List Piece) : Bool :=
  ps.all (fun p => (s.region p.pa).outside || s.cohReady p.pa p.len)
    && (pageRuns va ((ps.map (·.len)).sum)).all (fun (a, _) => s.dirtyReady slot a)

/-- What a unit that must wait to write a run sets off (R339). -/
def State.nudgeRun (s : State) (slot : BitVec 4) (va : W64) (ps : List Piece) : State :=
  let s := ps.foldl (fun s p => if (s.region p.pa).outside then s else s.nudge p.pa p.len) s
  (pageRuns va ((ps.map (·.len)).sum)).foldl (fun s (a, _) => s.nudgeLeaf slot a) s

/-- The pages of a run take D (R304). -/
def State.dirtyRun (s : State) (slot : BitVec 4) (va : W64) (n : Nat) : State :=
  (pageRuns va n).foldl (fun s (a, _) => s.setDirty slot a) s

/-- Some byte of the pieces is refused (R282). -/
def State.refusedPieces (s : State) (ps : List Piece) : Bool := ps.any (fun p => (s.refusedByte p.pa p.len).isSome)

/-- The first refused byte of a run that begins at a virtual address (R282). -/
def State.refusedVa (s : State) (va : W64) : List Piece → Option W64
  | [] => none
  | p :: t => match s.refusedByte p.pa p.len with
    | some b => some (va + BitVec.ofNat 64 (b - p.pa))
    | none => s.refusedVa (va + BitVec.ofNat 64 p.len) t

/-- Write pieces that are ready; full-empty bits stand. -/
def State.writePieces (s : State) : List Piece → List Byte → State
  | [], _ => s
  | p :: t, bs =>
    let b := bs.take p.len
    let s := match s.region p.pa with
      | .host port => s.send (.hostStore port p.pa b)
      | .peer k => s.tick1.linkOut (4096 * s.dev.chip.toNat) (s.peerChip k) s.token (.store p.pa b 0)
      | .none => s
      | _ => s.cohWrite1 p.pa b 0 none
    s.writePieces t (bs.drop p.len)

/-- Write the pieces of a run, in order, as far as they can be written in this cycle: the state and the bytes written (R291). -/
def State.writeSome (s : State) : List Piece → List Byte → State × Nat
  | [], _ => (s, 0)
  | p :: t, bs =>
    if (s.region p.pa).outside || s.cohReady p.pa p.len then
      let (s, n) := (s.writePieces [p] bs).writeSome t (bs.drop p.len)
      (s, n + p.len)
    else (s.nudge p.pa p.len, 0)

/-- D of every page of a run can be set in this cycle. -/
def State.dirtyRunReady (s : State) (slot : BitVec 4) (va : W64) (n : Nat) : Bool :=
  (pageRuns va n).all (fun (a, _) => s.dirtyReady slot a)

/-- Write a run of ready pieces and set D of its pages. -/
def State.unitPut (s : State) (slot : BitVec 4) (va : W64) (ps : List Piece) (bs : List Byte) : State :=
  (s.dirtyRun slot va bs.length).writePieces ps bs

end Sys2Proof.Machine
end

