-- ==== Sys2Proof/Machine/Gleaner.lean ====
section
/-!
DEFINITION. The Gleaner of each slice: embedding table shards, their generations, batches and prefetches (R373 to R378).
-/

namespace Sys2Proof.Machine

/-- Place of an engine's step in its cycle. -/
def ordEngine : Nat := 70000

/-- Dword n of a block of bytes. -/
def dwordAt (bs : List Byte) (n : Nat) : W64 := BitVec.ofNat 64 (leNat ((bs.drop (8 * n)).take 8))
/-- The dwords of a block of bytes. -/
def dwordsOf (bs : List Byte) (n : Nat) : List W64 := (List.range n).map (dwordAt bs)

/-- OPEN of a parity in dword 5 (R373). -/
def openCount (w : W64) (parity : Nat) : Nat := bitsAt w (if parity = 0 then 16 else 32) 16
/-- OPEN of a parity changed by one, up or down. -/
def openAdd (w : W64) (parity : Nat) (up : Bool) : W64 :=
  let one : W64 := if parity = 0 then 0x10000 else 0x100000000
  if up then w + one else w - one

/-- The batches of a slice's Gleaner replaced. -/
def State.setBatches (s : State) (k : SliceId) (l : List Batch) : State := s.setSlice k { s.slice k with batches := l }
/-- One batch replaced. -/
def State.setBatch (s : State) (k : SliceId) (b : Batch) : State :=
  s.setBatches k ((s.slice k).batches.map (fun x => if x.no == b.no then b else x))

/-- A zero field of the descriptor or the batch block is not zero, or ROWB is out of its range (R375). -/
def badDesc (desc blk : List W64) : Bool :=
  let d3 := desc.getD 3 0
  let rowb := bitsAt d3 0 16
  bitsAt d3 21 43 != 0 || bitsAt (desc.getD 5 0) 48 16 != 0 || desc.getD 6 0 != 0 || desc.getD 7 0 != 0
    || rowb % 64 != 0 || rowb < 64 || 16384 < rowb
    || bitsAt (blk.getD 1 0) 16 48 != 0 || (blk.drop 4).any (fun w => w != 0)

/-- N, DST or READY of a batch block is not as it must be (R375). A DST that does not translate is left to the prefetch. -/
def State.badBatch (s : State) (slot : BitVec 4) (priv : Bool) (blk : List W64) : Bool :=
  let dst := blk.getD 2 0
  bitsAt (blk.getD 1 0) 0 16 == 0 || !aligned (blk.getD 3 0) 8
    || (dst != 0 && match s.translateNow slot priv dst .w with
      | .ok (pa, _) => (match s.region pa with
        | .scratch _ _ => false
        | _ => true)
      | .error _ => false)

/-- Dword 5 of a descriptor takes a value (R373). -/
def State.putDword5 (s : State) (desc : Nat) (w : W64) : State := s.cohWrite (desc + 40) (leBytes 8 w.toNat) 0 none

/-! The instruction at the Gleaner (R375). -/

/-- open: its checks in order, then the batch is bound to the present generation and its prefetch starts. -/
def State.gleanOpenAt (s : State) (k : SliceId) (desc : Nat) (a : W64) (va : W64) (blk : List W64) : State × W64 :=
  let c := s.cur
  let slot := s.slotOf c
  let card := dwordsOf (s.cohRead desc 64) 8
  if badDesc card blk then (s, failCode 3)
  else if s.badBatch slot (s.privOf c) blk then (s, failCode 5)
  else if 16 ≤ (s.slice k).batches.length then (s, failCode 1)
  else
    let w := card.getD 5 0
    let g : BitVec 16 := w.setWidth 16
    let no := s.token
    let b : Batch := {
      no := no, desc := desc, card := card, blk := va, slot := slot, priv := s.privOf c, g := g, idx := blk.getD 0 0
      n := bitsAt (blk.getD 1 0) 0 16, dst := blk.getD 2 0, ready := blk.getD 3 0 }
    let s := (s.setDirty slot a).putDword5 desc (openAdd w (g.toNat % 2) true)
    let s := s.tick1.setBatches k ((s.slice k).batches ++ [b])
    (s.later 1 ordEngine (.gleanPrefetchRow k no), g.setWidth 64)

/-- A batch whose ready word has been written is closed: its OPEN count falls and it is forgotten; any other close that waits
for it finds it gone (R375). -/
def State.closeBatch (s : State) (k : SliceId) (b : Batch) (l : List (CtxId × BitVec 4 × Nat)) : State :=
  match l with
  | [] => s
  | (c, d, id) :: rest =>
    let s := s.putDword5 b.desc (openAdd (s.cohRead8 (b.desc + 40)) (b.g.toNat % 2) false)
    let s := s.setBatches k ((s.slice k).batches.filter (fun x => x.no != b.no))
    let s := s.later (s.toSlice (clusterOf c) k) ordReply (.replyArrival c { id := id, rd := d, wr := true, did := true })
    rest.foldl (fun s (c, d, id) =>
      s.later (s.toSlice (clusterOf c) k) ordReply (.replyArrival c { id := id, rd := d, wr := true, val := failCode 4, did := true })) s

/-- A step at the Gleaner: it waits while a line that it needs is on its way, and then the reply goes back. `more` is what its other
waits set off. -/
def State.gleanStep (s : State) (i : Instr) (d : BitVec 4) (more : State → State)
    (f : State → SliceId → Nat → Option (State × Option W64)) : State :=
  let c := s.cur
  match s.me.why, s.me.load with
  | .reply _, some q =>
    let desc := (q.pieces.headD {}).pa
    let k := s.pointSlice desc
    let again (s : State) : State := s.schedule (s.cycle + 1) (1000 + c) c 1 i
    if !s.cohReady desc 64 then again (s.nudge desc 64)
    else match f s k desc with
      | none => again (more s)
      | some (s, none) => (s.setCtx c { s.ctx c with load := none }).markRead desc 64
      | some (s, some v) =>
        ((s.setCtx c { s.ctx c with load := none, srcBytes := [] }).markRead desc 64).unitReply c (s.toSlice (clusterOf c) k) { rd := d, wr := true, val := v }
  | _, _ => s

/-- A GLEAN leaves for the Gleaner of its descriptor's home; one in an external window has none and is not permitted
(R373, R445). -/
def State.gleanSend (s : State) (i : Instr) (need : Need) (a : W64) (sig : List Nat) : State :=
  let c := s.cur
  s.translate a need (fun s pa _ =>
    if (s.region pa).outside then s.trapMe causeTrans clsNoperm a
    else
      let s := s.setMe { s.me with load := some { pieces := [{ pa := pa, len := 64 }] } }
      s.sendUnit i (s.toSlice (clusterOf c) (s.pointSlice pa)) (1000 + c) (a.toNat :: sig))

/-- open: the alignment of both addresses, their translations, and a batch block of an external window read first. -/
def State.gleanOpen (s : State) (i : Instr) (d a b : BitVec 4) : State :=
  let ga := s.rd a
  let gb := s.rd b
  if s.stage = 0 then
    s.plain i (fun s =>
      if !aligned ga 64 then s.trapMe causeMisaccess 0 ga
      else if !aligned gb 64 then s.trapMe causeMisaccess 0 gb
      else s.translate ga .rw (fun s _ _ => s.translate gb .r (fun s pb _ =>
        if (s.region pb).outside then
          s.loadBytes i [{ pa := pb, len := 64 }] (fun s bs => (s.setMe { s.me with srcBytes := bs }).gleanSend i .rw ga [gb.toNat])
        else s.gleanSend i .rw ga [gb.toNat])))
  else
    let slot := s.slotOf s.cur
    let rest (s : State) : State := match s.translateNow slot (s.privOf s.cur) gb .r with
      | .error _ => s.nudgeLeaf slot ga
      | .ok (pb, _) => (s.nudgeLeaf slot ga).nudge pb 64
    s.gleanStep i d rest (fun s k desc =>
      if !s.dirtyReady slot ga then none
      else if s.me.srcBytes.length = 64 then
        let (s, v) := s.gleanOpenAt k desc ga gb (dwordsOf s.me.srcBytes 8)
        some (s, some v)
      else match s.translateNow slot (s.privOf s.cur) gb .r with
        | .error _ => some (s, some (failCode 5))
        | .ok (pb, _) =>
          if !s.cohReady pb 64 then none
          else
            let (s, v) := s.gleanOpenAt k desc ga gb (dwordsOf (s.cohRead pb 64) 8)
            some (s.markRead pb 64, some v))

/-- close: the batch of the block address; it goes once its ready word has been written. -/
def State.gleanClose (s : State) (i : Instr) (d a b : BitVec 4) : State :=
  let ga := s.rd a
  let gb := s.rd b
  if s.stage = 0 then
    s.plain i (fun s =>
      if !aligned ga 64 then s.trapMe causeMisaccess 0 ga
      else if !aligned gb 64 then s.trapMe causeMisaccess 0 gb
      else s.gleanSend i .rw ga [gb.toNat])
  else
    let slot := s.slotOf s.cur
    s.gleanStep i d id (fun s k desc =>
      match (s.slice k).batches.find? (fun x => x.blk == gb && x.slot == slot && x.desc == desc) with
      | none => some (s, some (failCode 4))
      | some x =>
        let me := (s.cur, d, s.me.token)
        if x.finished then some (s.closeBatch k x [me], none)
        else some (s.setBatch k { x with closers := x.closers ++ [me] }, none))

/-- flip: a release; the other parity must have no open batch (R375). -/
def State.gleanFlip (s : State) (i : Instr) (d a : BitVec 4) : State :=
  let ga := s.rd a
  if s.stage = 0 then
    s.plain i (fun s =>
      if !aligned ga 64 then s.trapMe causeMisaccess 0 ga
      else s.translate ga .rw (fun s _ _ => s.drained i (fun s => s.gleanSend i .rw ga [])))
  else
    let slot := s.slotOf s.cur
    s.gleanStep i d (fun s => s.nudgeLeaf slot ga) (fun s _ desc =>
      if !s.dirtyReady slot ga then none
      else
        let w := s.cohRead8 (desc + 40)
        let g := bitsAt w 0 16
        if openCount w ((g + 1) % 2) ≠ 0 then some (s, some (failCode 2))
        else
          let v : W64 := (w &&& ~~~(0xFFFF : W64)) ||| BitVec.ofNat 64 ((g + 1) % 65536)
          some ((s.setDirty slot ga).putDword5 desc v, some v))

/-- query: dword 5 (R375). -/
def State.gleanQuery (s : State) (i : Instr) (d a : BitVec 4) : State :=
  let ga := s.rd a
  if s.stage = 0 then
    s.plain i (fun s => if !aligned ga 64 then s.trapMe causeMisaccess 0 ga else s.gleanSend i .r ga [])
  else s.gleanStep i d id (fun s _ desc => some (s, some (s.cohRead8 (desc + 40))))

def execGleanOpen (d a b : BitVec 4) (s : State) : Host.Outcome State Fault Refusal := .next (s.gleanOpen (.gleanOpen d a b) d a b)
def execGleanClose (d a b : BitVec 4) (s : State) : Host.Outcome State Fault Refusal := .next (s.gleanClose (.gleanClose d a b) d a b)
def execGleanFlip (d a b : BitVec 4) (s : State) : Host.Outcome State Fault Refusal := .next (s.gleanFlip (.gleanFlip d a b) d a)
def execGleanQuery (d a b : BitVec 4) (s : State) : Host.Outcome State Fault Refusal := .next (s.gleanQuery (.gleanQuery d a b) d a)

/-! The prefetch (R376). -/

/-- The ready word is written as a release, full in the same step, and closes that wait for it are served. -/
def State.gleanReady (s : State) (k : SliceId) (b : Batch) : State :=
  let again (s : State) : State := (s.setBatch k b).later 1 ordEngine (.gleanPrefetchRow k b.no)
  let v : W64 := fields [(63, 1), (62, b.err.toNat), (32, min b.skipped 0xFFFF), (0, b.placed)]
  if !b.closers.isEmpty ∧ !s.cohReady (b.desc + 40) 8 then again (s.nudge (b.desc + 40) 8)
  else
    let finish (s : State) : State :=
      let b := { b with finished := true }
      (s.setBatch k b).closeBatch k b b.closers
    match s.translateNow b.slot b.priv b.ready .w with
    | .error _ => finish s
    | .ok (pa, _) =>
      if (s.refusedByte pa 8).isSome then finish s
      else if !s.dirtyReady b.slot b.ready ∨ !s.unitCan pa 8 then again ((s.nudgeLeaf b.slot b.ready).nudge pa 8)
      else finish ((s.setDirty b.slot b.ready).unitStore true pa (leBytes 8 v.toNat))

/-- The counter of a row group can rise in this cycle: its line or bank, its leaf's D, and the atomic unit of its home slice are free
(R376, R386). -/
def State.gleanCanCount (s : State) (slot : BitVec 4) (va : W64) (pa : Nat) : Bool :=
  s.cohReady pa 4 && s.dirtyReady slot va && (hbmBytes ≤ pa || s.unitFree (homeOf (lineOf pa)))

/-- The access counter of a row group rises by 1, saturating, as the one operation of its home slice's unit in this cycle. -/
def State.gleanCount (s : State) (slot : BitVec 4) (va : W64) (pa : Nat) : State :=
  let n := leNat (s.cohRead pa 4)
  let s := if pa < hbmBytes then s.useUnit (homeOf (lineOf pa)) else s
  if n = 0xFFFFFFFF ∨ (s.refusedByte pa 4).isSome then s
  else (s.setDirty slot va).cohWrite pa (leBytes 4 (n + 1)) 0 none

/-- Row x of a batch: brought to its place or its home slices, and counted; a failed translation or a refused write ends the
prefetch with ERR. -/
def State.gleanRow (s : State) (k : SliceId) (b : Batch) (x : Nat) : State :=
  let next (s : State) (b : Batch) : State := (s.setBatch k b).later 1 ordEngine (.gleanPrefetchRow k b.no)
  let row0 := bitsAt (b.card.getD 2 0) 0 32
  let nrows := bitsAt (b.card.getD 2 0) 32 32
  let rowb := bitsAt (b.card.getD 3 0) 0 16
  if x < row0 ∨ row0 + nrows ≤ x then next s { b with skipped := b.skipped + 1, i := b.i + 1, x := none, buf := [] }
  else
    let src := b.card.getD (b.g.toNat % 2) 0 + BitVec.ofNat 64 ((x - row0) * rowb)
    let dst := b.dst + BitVec.ofNat 64 (b.i * rowb)
    let cnt := b.card.getD 4 0 + BitVec.ofNat 64 (4 * ((x - row0) / 2 ^ bitsAt (b.card.getD 3 0) 16 5))
    let done (b : Batch) : Batch := { b with placed := b.placed + 1, i := b.i + 1, x := none, buf := [], put := 0 }
    match s.unitPieces b.slot b.priv .r src rowb,
        (if b.dst = 0 then .ok [] else s.unitPieces b.slot b.priv .w dst rowb : Except (BitVec 8) (List Piece)),
        s.translateNow b.slot b.priv cnt .rw with
    | .ok ps, .ok qs, .ok (ca, _) =>
      let hold (s : State) (b : Batch) : State := next ((s.nudge ca 4).nudgeLeaf b.slot cnt) b
      if s.refusedPieces qs ∨ (s.region ca).outside then s.gleanReady k { b with err := true }
      else if b.dst = 0 then
        if !s.gleanCanCount b.slot cnt ca then hold s b
        else
          let s := (ps.filter (fun p => p.pa < hbmBytes)).foldl (fun s p =>
            s.now (.servingSliceLoad { op := .load 3, pieces := [p], posted := true, last := true })) s
          next (s.gleanCount b.slot cnt ca) (done b)
      else
        let (s, got) := s.unitRead ps b.ext b.buf
        let b := { b with ext := got.ext, buf := got.buf }
        if !got.done then next s b
        else if !s.dirtyRunReady b.slot dst rowb then next (s.nudgeRun b.slot dst qs) b
        else
          let (s, n) := (s.dirtyRun b.slot dst rowb).writeSome (dropPieces qs b.put) (b.buf.drop b.put)
          let b := { b with put := b.put + n }
          if b.put < rowb then next s b
          else if !s.gleanCanCount b.slot cnt ca then hold s b
          else next (s.gleanCount b.slot cnt ca) (done b)
    | _, _, _ => s.gleanReady k { b with err := true }

/-- One row request of a batch's prefetch. -/
def State.doGleanPrefetchRow (s : State) (k : SliceId) (no : Nat) : State :=
  match (s.slice k).batches.find? (fun x => x.no == no) with
  | none => s
  | some b =>
    if b.finished then s
    else if b.err ∨ b.n ≤ b.i then s.gleanReady k b
    else match b.x with
      | some x => s.gleanRow k b x
      | none =>
        match s.unitPieces b.slot b.priv .r (b.idx + BitVec.ofNat 64 (4 * b.i)) 4 with
        | .error _ => s.gleanReady k { b with err := true }
        | .ok ps =>
          let (s, got) := s.unitRead ps b.ext b.buf
          let b := { b with ext := got.ext, buf := got.buf }
          if got.done then s.gleanRow k { b with x := some (leNat b.buf), buf := [] } (leNat b.buf)
          else (s.setBatch k b).later 1 ordEngine (.gleanPrefetchRow k no)

def execGleanPrefetchRow (s : State) : Host.Outcome State Fault Refusal :=
  .next (match s.ev with
    | .gleanPrefetchRow k no => s.doGleanPrefetchRow k no
    | _ => s)

end Sys2Proof.Machine
end

