-- ==== Sys2Proof/Machine/FloatOps.lean ====
section
/-!
DEFINITION. The grain instructions of majors 0x0E to 0x11: FP32 arithmetic, conversion and packing, index intersection and
the format prefix (R116, R117, R125 to R133, R80).
-/

namespace Sys2Proof.Machine

/-! The prefix (R43, R80, R117). -/

/-- Which values of the payload an instruction accepts (R117). -/
structure Accept where
  fmts   : List Nat
  /-- SCALE 1 is accepted with E2M1. -/
  scale1 : Bool := false
  rounds : List Nat := [0, 1, 2, 3, 4]
  sat    : Bool := true
  deriving DecidableEq, Repr

/-- The payload is accepted: its format, no scale or block scales with E2M1, its rounding, SAT, and no sparsity (R117). -/
def Accept.ok (k : Accept) (p : BitVec 12) : Bool :=
  k.fmts.contains (plFmt p) && (plScale p == 0 || (k.scale1 && plScale p == 1 && plFmt p == 4))
    && k.rounds.contains (plRound p) && (k.sat || !plSat p) && plSparse p == 0

/-- Majors 0x0E: FP32 alone. -/
def accFp : Accept := { fmts := [0] }
/-- CVTF. -/
def accCvtf : Accept := { fmts := [0, 1, 2, 3, 4] }
/-- CVTI. -/
def accCvti : Accept := { fmts := [5, 6] }
/-- NARROW. -/
def accNarrow : Accept := { fmts := [1, 2, 3, 4], scale1 := true }
/-- WIDEN. -/
def accWiden : Accept := { fmts := [1, 2, 3, 4, 5], scale1 := true }
/-- PACK and UNPACK. -/
def accPack : Accept := { fmts := [0, 1, 2, 3, 4, 5, 6], rounds := [0], sat := false }
/-- MKSCL. -/
def accMkscl : Accept := { fmts := [4], scale1 := true, rounds := [0, 1, 2, 3], sat := false }

/-- A payload of a format alone (R43). -/
def plDefault (fmt : Nat) : BitVec 12 := BitVec.ofNat 12 (fmt * 256)

/-- The payload that a format-sensitive instruction uses: the pending one, or its default (R43, R80). -/
def Ctx.payload (x : Ctx) (dflt : Nat) : BitVec 12 := if x.pp then x.pfmt else plDefault dflt

/-- A format-sensitive instruction: it traps on a pending payload that it does not accept; else it writes its result, counts
its conditions once, and consumes the prefix (R66, R80, R117). -/
def State.fsens (s : State) (i : Instr) (k : Accept) (dflt : Nat) (d : BitVec 4)
    (f : BitVec 12 → Rnd → W64 × Conds) : State :=
  let x := s.me
  let p := x.payload dflt
  if x.pp ∧ !k.ok p then s.trapPfx i
  else
    let (v, c) := f p (plRnd p ((x.rd d).toNat % 65536))
    let s := s.setMe { ((x.wr d v).adv) with pp := false }
    s.count s.cur c

/-- The FP32 code in a register's low half (R116). -/
def f32 (v : W64) : Nat := v.toNat % 2 ^ 32
/-- A code zero-extended to a register, with its conditions (R116). -/
def zcode (r : Nat × Conds) : W64 × Conds := (BitVec.ofNat 64 r.1, r.2)

/-! FP32 arithmetic (R125 to R128). -/

/-- An FP32 instruction of two sources. -/
def State.fp2 (s : State) (i : Instr) (d a b : BitVec 4) (f : Rnd → Nat → Nat → Nat × Conds) : State :=
  s.fsens i accFp 0 d (fun _ r => zcode (f r (f32 (s.rd a)) (f32 (s.rd b))))

/-- An FP32 compare (R128). -/
def State.fcmp (s : State) (i : Instr) (d a b : BitVec 4) (f : Nat → Nat → Bool × Conds) : State :=
  s.fsens i accFp 0 d (fun _ _ =>
    let (t, c) := f (f32 (s.rd a)) (f32 (s.rd b))
    (if t then 1 else 0, c))

def execFadd (d a b : BitVec 4) (s : State) : Host.Outcome State Fault Refusal := .next (s.fp2 (.fadd d a b) d a b fadd)
def execFsub (d a b : BitVec 4) (s : State) : Host.Outcome State Fault Refusal := .next (s.fp2 (.fsub d a b) d a b fsub)
def execFmul (d a b : BitVec 4) (s : State) : Host.Outcome State Fault Refusal := .next (s.fp2 (.fmul d a b) d a b fmul)
def execFdiv (d a b : BitVec 4) (s : State) : Host.Outcome State Fault Refusal := .next (s.fp2 (.fdiv d a b) d a b fdiv)
def execFsqrt (d a : BitVec 4) (s : State) : Host.Outcome State Fault Refusal :=
  .next (s.fsens (.fsqrt d a) accFp 0 d (fun _ r => zcode (fsqrt r (f32 (s.rd a)))))
def execFma (d a b c : BitVec 4) (s : State) : Host.Outcome State Fault Refusal :=
  .next (s.fsens (.fma d a b c) accFp 0 d (fun _ r => zcode (ffma r (f32 (s.rd a)) (f32 (s.rd b)) (f32 (s.rd c)))))
def execFmin (d a b : BitVec 4) (s : State) : Host.Outcome State Fault Refusal :=
  .next (s.fp2 (.fmin d a b) d a b (fun _ x y => fmaxmin fp32 false x y))
def execFmax (d a b : BitVec 4) (s : State) : Host.Outcome State Fault Refusal :=
  .next (s.fp2 (.fmax d a b) d a b (fun _ x y => fmaxmin fp32 true x y))

/-- FSGNJ: a with the sign that the mode chooses (R127). -/
def fsgnj (m : BitVec 4) (a b : W64) : W64 :=
  let sgn := if m = 0 then b.getLsbD 31 else if m = 1 then !b.getLsbD 31 else a.getLsbD 31 != b.getLsbD 31
  (a &&& 0x7FFFFFFF) ||| (if sgn then 0x80000000 else 0)

def execFsgnj (d a b m : BitVec 4) (s : State) : Host.Outcome State Fault Refusal :=
  .next (s.fsens (.fsgnj d a b m) accFp 0 d (fun _ _ => (fsgnj m (s.rd a) (s.rd b), 0)))
def execFeq (d a b : BitVec 4) (s : State) : Host.Outcome State Fault Refusal := .next (s.fcmp (.feq d a b) d a b feq)
def execFlt (d a b : BitVec 4) (s : State) : Host.Outcome State Fault Refusal := .next (s.fcmp (.flt d a b) d a b flt)
def execFle (d a b : BitVec 4) (s : State) : Host.Outcome State Fault Refusal := .next (s.fcmp (.fle d a b) d a b fle)

/-! Conversion and packing (R129 to R132). -/

def execCvtf (d a u : BitVec 4) (s : State) : Host.Outcome State Fault Refusal :=
  .next (s.fsens (.cvtf d a u) accCvtf 0 d (fun p r =>
    zcode (roundInt (fmtOf (plFmt p)) r (if u = 1 then ((s.rd a).toNat : Int) else (s.rd a).toInt))))
def execCvti (d a : BitVec 4) (s : State) : Host.Outcome State Fault Refusal :=
  .next (s.fsens (.cvti d a) accCvti 6 d (fun p r =>
    let (i, c) := toInt (fmtWidth (plFmt p)) r (f32 (s.rd a))
    (BitVec.ofInt 64 i, c)))

/-- The block scale that NARROW and WIDEN apply, when SCALE is 1 (R129). -/
def State.scaleOf (s : State) (p : BitVec 12) (b : BitVec 4) : Option Nat :=
  if plScale p = 1 then some ((s.rd b).toNat % 256) else none

def execNarrow (d a b : BitVec 4) (s : State) : Host.Outcome State Fault Refusal :=
  .next (s.fsens (.narrow d a b) accNarrow 1 d (fun p r =>
    zcode (narrow (plFmt p) r (s.scaleOf p b) (f32 (s.rd a)))))
def execWiden (d a b : BitVec 4) (s : State) : Host.Outcome State Fault Refusal :=
  .next (s.fsens (.widen d a b) accWiden 1 d (fun p _ =>
    zcode (widen (plFmt p) (s.scaleOf p b) (s.rd a).toNat, 0)))

/-- Index of the packed element that a register names (R131). -/
def packIndex (w : Nat) (k : W64) : Nat := k.toNat % 64 % (64 / w)
/-- gB with element k replaced (R131). -/
def packElem (w : Nat) (base v k : W64) : W64 :=
  let n := w * packIndex w k
  let m := BitVec.ofNat 64 (2 ^ w - 1)
  (base &&& ~~~(m <<< n)) ||| ((v &&& m) <<< n)
/-- Element k of gA, sign-extended for the integer formats (R131). -/
def unpackElem (fmt : Nat) (a k : W64) : W64 :=
  let w := fmtWidth fmt
  let e := a.toNat / 2 ^ (w * packIndex w k) % 2 ^ w
  if fmt = 5 ∨ fmt = 6 then BitVec.ofInt 64 (toSigned w e) else BitVec.ofNat 64 e

def execPack (d a b c : BitVec 4) (s : State) : Host.Outcome State Fault Refusal :=
  .next (s.fsens (.pack d a b c) accPack 1 d (fun p _ =>
    (packElem (fmtWidth (plFmt p)) (s.rd a) (s.rd b) (s.rd c), 0)))
def execUnpack (d a b : BitVec 4) (s : State) : Host.Outcome State Fault Refusal :=
  .next (s.fsens (.unpack d a b) accPack 1 d (fun p _ => (unpackElem (plFmt p) (s.rd a) (s.rd b), 0)))
def execMkscl (d a : BitVec 4) (s : State) : Host.Outcome State Fault Refusal :=
  .next (s.fsens (.mkscl d a) accMkscl 4 d (fun p _ => zcode (mkscl (plRound p) (f32 (s.rd a)))))

/-! Index intersection (R133). -/

/-- The n lanes of w bits. -/
def lanesOf (n w : Nat) (a : W64) : List Nat := (List.range n).map (fun i => a.toNat / 2 ^ (w * i) % 2 ^ w)
/-- Lanes that are not empty and occur in the other list. -/
def matches_ (w : Nat) (a b : List Nat) : List Bool := a.map (fun x => x != 2 ^ w - 1 && b.contains x)
/-- Bits of a list, first lowest. -/
def bitsNat (l : List Bool) : Nat := l.foldr (fun b n => 2 * n + b.toNat) 0

/-- The result of ISECT. -/
def isect (w32 : Bool) (a b : W64) : W64 :=
  let w := if w32 then 32 else 16
  let n := if w32 then 2 else 4
  let la := lanesOf n w a
  let lb := lanesOf n w b
  let am := matches_ w la lb
  let bm := matches_ w lb la
  let la1 := la.getD (n - 1) 0
  let lb1 := lb.getD (n - 1) 0
  BitVec.ofNat 64 (bitsNat am + 16 * bitsNat bm + 256 * am.count true
    + (if la1 ≤ lb1 then 2048 else 0) + (if lb1 ≤ la1 then 4096 else 0))

def execIsect (d a b w : BitVec 4) (s : State) : Host.Outcome State Fault Refusal :=
  .next (s.plain (.isect d a b w) (fun s => s.put d (isect (w = 1) (s.rd a) (s.rd b))))

/-! The prefix (R80). -/

def execFmt (p : BitVec 12) (s : State) : Host.Outcome State Fault Refusal :=
  .next (s.plain (.fmt p) (fun s => s.setMe { s.me.adv with pfmt := p, pp := true }))

end Sys2Proof.Machine
end

