-- ==== Sys2Proof/Machine/Integer.lean ====
section
/-!
DEFINITION. The grain instructions of majors 0x01 to 0x0A: integer, bit, hash, compare, constants and control (R95 to R115).
Each reads its sources before it writes its destination (R97), and with a prefix pending takes the illegal-prefix trap (R98).
-/

namespace Sys2Proof.Machine

/-- An instruction of two register sources and one result (R99). -/
def State.alu2 (s : State) (i : Instr) (d a b : BitVec 4) (f : W64 → W64 → W64) : State :=
  s.plain i (fun s => s.put d (f (s.rd a) (s.rd b)))
/-- An instruction of one register source and one result (R105). -/
def State.alu1 (s : State) (i : Instr) (d a : BitVec 4) (f : W64 → W64) : State :=
  s.plain i (fun s => s.put d (f (s.rd a)))

/-- Rotate left by n, n below 64 (R99). -/
def rotl (a : W64) (n : Nat) : W64 := (a <<< n) ||| (a >>> ((64 - n) % 64))
/-- Rotate right by n, n below 64 (R99). -/
def rotr (a : W64) (n : Nat) : W64 := (a >>> n) ||| (a <<< ((64 - n) % 64))
/-- The 64-bit shift count of a register (R100). -/
def sh6 (b : W64) : Nat := b.toNat % 64
/-- The 32-bit shift count of a register (R100). -/
def sh5 (b : W64) : Nat := b.toNat % 32
/-- The low 32 bits. -/
def lo32 (a : W64) : W32 := a.setWidth 32

/-- The exact signed quotient, truncated toward zero, with the boundary cases of R102. -/
def divS (a b : W64) : W64 := if b = 0 then -1 else BitVec.ofInt 64 (Int.tdiv a.toInt b.toInt)
/-- The signed remainder (R101, R102). -/
def remS (a b : W64) : W64 := if b = 0 then a else BitVec.ofInt 64 (Int.tmod a.toInt b.toInt)
/-- The unsigned quotient (R102). -/
def divU (a b : W64) : W64 := if b = 0 then -1 else BitVec.ofNat 64 (a.toNat / b.toNat)
/-- The unsigned remainder (R102). -/
def remU (a b : W64) : W64 := if b = 0 then a else BitVec.ofNat 64 (a.toNat % b.toNat)
/-- Bits [127:64] of the signed product (R101). -/
def mulHS (a b : W64) : W64 := BitVec.ofInt 64 ((a.toInt * b.toInt) / 2 ^ 64)
/-- Bits [127:64] of the unsigned product (R101). -/
def mulHU (a b : W64) : W64 := BitVec.ofNat 64 (a.toNat * b.toNat / 2 ^ 64)

/-- The number of zero bits above the highest 1 (R105). -/
def clz (a : W64) : Nat := if a = 0 then 64 else 63 - a.toNat.log2
/-- Bits of a from position i up for n more positions, until one is set. -/
def ctzFrom (a : W64) : Nat → Nat → Nat
  | 0, i => i
  | n + 1, i => if a.getLsbD i then i else ctzFrom a n (i + 1)
/-- The number of zero bits below the lowest 1 (R105). -/
def ctz (a : W64) : Nat := ctzFrom a 64 0
/-- The number of 1 bits among the low n (R105). -/
def popBelow (a : W64) : Nat → Nat
  | 0 => 0
  | n + 1 => popBelow a n + (if a.getLsbD n then 1 else 0)
/-- Bits in reverse order (R105). -/
def brev (a : W64) : W64 := a.reverse
/-- Byte k of a 64-bit value. -/
def byteOf (a : W64) (k : Nat) : Byte := a.extractLsb' (8 * k) 8
/-- Bytes in reverse order (R105). -/
def bswap (a : W64) : W64 :=
  byteOf a 0 ++ byteOf a 1 ++ byteOf a 2 ++ byteOf a 3 ++ byteOf a 4 ++ byteOf a 5 ++ byteOf a 6 ++ byteOf a 7

/-- BEXT (R106). -/
def bext (a c : W64) : W64 :=
  let w := fieldWidth c
  let f := (a.toNat / 2 ^ fieldPos c) % 2 ^ w
  if fieldSigned c ∧ f ≥ 2 ^ (w - 1) then BitVec.ofInt 64 ((f : Int) - 2 ^ w) else BitVec.ofNat 64 f
/-- BINS (R106). -/
def bins (base c v : W64) : W64 :=
  let m : W64 := BitVec.ofNat 64 ((2 ^ fieldWidth c - 1) * 2 ^ fieldPos c)
  (base &&& ~~~m) ||| ((v <<< fieldPos c) &&& m)

/-- HASH (R107). -/
def hashMix (k seed : W64) : W64 :=
  let x := k ^^^ seed
  let x := x ^^^ (x >>> 31)
  let x := x * 0x9E6B5A13C4F27D31
  let x := x ^^^ (x >>> 29)
  let x := x * 0xD3A264C17B95E80F
  x ^^^ (x >>> 32)

/-- One bit of the reflected CRC-32C (R108). -/
def crcBit (c : W32) : W32 := if c.getLsbD 0 then (c >>> 1) ^^^ 0x82F63B78 else c >>> 1
/-- One byte of the CRC (R108). -/
def crcByte (c : W32) (b : Byte) : W32 := Nat.repeat crcBit 8 (c ^^^ b.setWidth 32)
/-- The CRC over bytes, first byte first (R108). -/
def crcBytes (c : W32) (bs : List Byte) : W32 := bs.foldl crcByte c
/-- CRC over the low 1 << SZ bytes of a value (R108). -/
def crcOf (c v : W64) (sz : BitVec 4) : W64 :=
  zx (crcBytes (lo32 c) ((List.range (2 ^ sz.toNat)).map (byteOf v)))

/-- A 0 or 1 result. -/
def boolW (b : Bool) : W64 := if b then 1 else 0

/-- IMM16 in quarter HX (R110). -/
def quarter (imm : BitVec 16) (h : BitVec 2) : W64 := zx imm <<< (16 * h.toNat)

/-! Integer register operations (R99, R100). -/

def execAdd (d a b : BitVec 4) (s : State) : Host.Outcome State Fault Refusal := .next (s.alu2 (.add d a b) d a b (· + ·))
def execSub (d a b : BitVec 4) (s : State) : Host.Outcome State Fault Refusal := .next (s.alu2 (.sub d a b) d a b (· - ·))
def execAddw (d a b : BitVec 4) (s : State) : Host.Outcome State Fault Refusal :=
  .next (s.alu2 (.addw d a b) d a b (fun x y => sext32 (x + y)))
def execSubw (d a b : BitVec 4) (s : State) : Host.Outcome State Fault Refusal :=
  .next (s.alu2 (.subw d a b) d a b (fun x y => sext32 (x - y)))
def execAnd (d a b : BitVec 4) (s : State) : Host.Outcome State Fault Refusal := .next (s.alu2 (.and_ d a b) d a b (· &&& ·))
def execOr (d a b : BitVec 4) (s : State) : Host.Outcome State Fault Refusal := .next (s.alu2 (.or_ d a b) d a b (· ||| ·))
def execXor (d a b : BitVec 4) (s : State) : Host.Outcome State Fault Refusal := .next (s.alu2 (.xor_ d a b) d a b (· ^^^ ·))
def execAndn (d a b : BitVec 4) (s : State) : Host.Outcome State Fault Refusal :=
  .next (s.alu2 (.andn d a b) d a b (fun x y => x &&& ~~~y))
def execOrn (d a b : BitVec 4) (s : State) : Host.Outcome State Fault Refusal :=
  .next (s.alu2 (.orn d a b) d a b (fun x y => x ||| ~~~y))
def execXnor (d a b : BitVec 4) (s : State) : Host.Outcome State Fault Refusal :=
  .next (s.alu2 (.xnor d a b) d a b (fun x y => ~~~(x ^^^ y)))
def execSll (d a b : BitVec 4) (s : State) : Host.Outcome State Fault Refusal :=
  .next (s.alu2 (.sll d a b) d a b (fun x y => x <<< sh6 y))
def execSrl (d a b : BitVec 4) (s : State) : Host.Outcome State Fault Refusal :=
  .next (s.alu2 (.srl d a b) d a b (fun x y => x >>> sh6 y))
def execSra (d a b : BitVec 4) (s : State) : Host.Outcome State Fault Refusal :=
  .next (s.alu2 (.sra d a b) d a b (fun x y => x.sshiftRight (sh6 y)))
def execRol (d a b : BitVec 4) (s : State) : Host.Outcome State Fault Refusal :=
  .next (s.alu2 (.rol d a b) d a b (fun x y => rotl x (sh6 y)))
def execRor (d a b : BitVec 4) (s : State) : Host.Outcome State Fault Refusal :=
  .next (s.alu2 (.ror d a b) d a b (fun x y => rotr x (sh6 y)))
def execSllw (d a b : BitVec 4) (s : State) : Host.Outcome State Fault Refusal :=
  .next (s.alu2 (.sllw d a b) d a b (fun x y => sx (lo32 x <<< sh5 y)))
def execSrlw (d a b : BitVec 4) (s : State) : Host.Outcome State Fault Refusal :=
  .next (s.alu2 (.srlw d a b) d a b (fun x y => sx (lo32 x >>> sh5 y)))
def execSraw (d a b : BitVec 4) (s : State) : Host.Outcome State Fault Refusal :=
  .next (s.alu2 (.sraw d a b) d a b (fun x y => sx ((lo32 x).sshiftRight (sh5 y))))

/-! Multiply and divide (R101, R102). -/

def execMul (d a b : BitVec 4) (s : State) : Host.Outcome State Fault Refusal := .next (s.alu2 (.mul d a b) d a b (· * ·))
def execMulh (d a b : BitVec 4) (s : State) : Host.Outcome State Fault Refusal := .next (s.alu2 (.mulh d a b) d a b mulHS)
def execMulhu (d a b : BitVec 4) (s : State) : Host.Outcome State Fault Refusal := .next (s.alu2 (.mulhu d a b) d a b mulHU)
def execMulw (d a b : BitVec 4) (s : State) : Host.Outcome State Fault Refusal :=
  .next (s.alu2 (.mulw d a b) d a b (fun x y => sx (lo32 x * lo32 y)))
def execDiv (d a b : BitVec 4) (s : State) : Host.Outcome State Fault Refusal := .next (s.alu2 (.div d a b) d a b divS)
def execDivu (d a b : BitVec 4) (s : State) : Host.Outcome State Fault Refusal := .next (s.alu2 (.divu d a b) d a b divU)
def execRem (d a b : BitVec 4) (s : State) : Host.Outcome State Fault Refusal := .next (s.alu2 (.rem d a b) d a b remS)
def execRemu (d a b : BitVec 4) (s : State) : Host.Outcome State Fault Refusal := .next (s.alu2 (.remu d a b) d a b remU)

/-! Immediate operations (R103). -/

def execAddi (d a : BitVec 4) (imm : BitVec 14) (s : State) : Host.Outcome State Fault Refusal :=
  .next (s.alu1 (.addi d a imm) d a (· + sx imm))
def execAndi (d a : BitVec 4) (imm : BitVec 14) (s : State) : Host.Outcome State Fault Refusal :=
  .next (s.alu1 (.andi d a imm) d a (· &&& sx imm))
def execOri (d a : BitVec 4) (imm : BitVec 14) (s : State) : Host.Outcome State Fault Refusal :=
  .next (s.alu1 (.ori d a imm) d a (· ||| sx imm))
def execXori (d a : BitVec 4) (imm : BitVec 14) (s : State) : Host.Outcome State Fault Refusal :=
  .next (s.alu1 (.xori d a imm) d a (· ^^^ sx imm))
def execSlli (d a : BitVec 4) (sh : BitVec 6) (s : State) : Host.Outcome State Fault Refusal :=
  .next (s.alu1 (.slli d a sh) d a (· <<< sh.toNat))
def execSrli (d a : BitVec 4) (sh : BitVec 6) (s : State) : Host.Outcome State Fault Refusal :=
  .next (s.alu1 (.srli d a sh) d a (· >>> sh.toNat))
def execSrai (d a : BitVec 4) (sh : BitVec 6) (s : State) : Host.Outcome State Fault Refusal :=
  .next (s.alu1 (.srai d a sh) d a (fun x => x.sshiftRight sh.toNat))

/-! Bit manipulation (R105, R106). -/

def execClz (d a : BitVec 4) (s : State) : Host.Outcome State Fault Refusal :=
  .next (s.alu1 (.clz d a) d a (fun x => BitVec.ofNat 64 (clz x)))
def execCtz (d a : BitVec 4) (s : State) : Host.Outcome State Fault Refusal :=
  .next (s.alu1 (.ctz d a) d a (fun x => BitVec.ofNat 64 (ctz x)))
def execPopc (d a : BitVec 4) (s : State) : Host.Outcome State Fault Refusal :=
  .next (s.alu1 (.popc d a) d a (fun x => BitVec.ofNat 64 (popBelow x 64)))
def execBrev (d a : BitVec 4) (s : State) : Host.Outcome State Fault Refusal := .next (s.alu1 (.brev d a) d a brev)
def execBswap (d a : BitVec 4) (s : State) : Host.Outcome State Fault Refusal := .next (s.alu1 (.bswap d a) d a bswap)
def execBext (d a b : BitVec 4) (s : State) : Host.Outcome State Fault Refusal := .next (s.alu2 (.bext d a b) d a b bext)
def execBins (d a b c : BitVec 4) (s : State) : Host.Outcome State Fault Refusal :=
  .next (s.plain (.bins d a b c) (fun s => s.put d (bins (s.rd a) (s.rd b) (s.rd c))))

/-! Hash and check (R107, R108). -/

def execHash (d a b : BitVec 4) (s : State) : Host.Outcome State Fault Refusal := .next (s.alu2 (.hash d a b) d a b hashMix)
def execCrc (d a b z : BitVec 4) (s : State) : Host.Outcome State Fault Refusal :=
  .next (s.alu2 (.crc d a b z) d a b (fun x y => crcOf x y z))

/-! Compare and select (R109). -/

def execSlt (d a b : BitVec 4) (s : State) : Host.Outcome State Fault Refusal :=
  .next (s.alu2 (.slt d a b) d a b (fun x y => boolW (x.slt y)))
def execSltu (d a b : BitVec 4) (s : State) : Host.Outcome State Fault Refusal :=
  .next (s.alu2 (.sltu d a b) d a b (fun x y => boolW (x.ult y)))
def execSeq (d a b : BitVec 4) (s : State) : Host.Outcome State Fault Refusal :=
  .next (s.alu2 (.seq d a b) d a b (fun x y => boolW (x == y)))
def execSel (d a b c : BitVec 4) (s : State) : Host.Outcome State Fault Refusal :=
  .next (s.plain (.sel d a b c) (fun s => s.put d (if s.rd a ≠ 0 then s.rd b else s.rd c)))

/-! Constant building (R110). -/

def execHset (d : BitVec 4) (h : BitVec 2) (imm : BitVec 16) (s : State) : Host.Outcome State Fault Refusal :=
  .next (s.plain (.hset d h imm) (fun s => s.put d (quarter imm h)))
def execHins (d : BitVec 4) (h : BitVec 2) (imm : BitVec 16) (s : State) : Host.Outcome State Fault Refusal :=
  .next (s.plain (.hins d h imm) (fun s => s.put d ((s.rd d &&& ~~~quarter 0xFFFF h) ||| quarter imm h)))

/-! Compare and branch (R111). -/

/-- A compare and branch. -/
def State.branch (s : State) (i : Instr) (cond : Nat) (a b : BitVec 4) (off : BitVec 15) : State :=
  s.plain i (fun s =>
    if branchTaken cond (s.rd a) (s.rd b) then s.setMe { s.me with pc := branchTarget s.me.pc off } else s.setMe s.me.adv)

def execBeq (a b : BitVec 4) (off : BitVec 15) (s : State) : Host.Outcome State Fault Refusal := .next (s.branch (.beq a b off) 0 a b off)
def execBne (a b : BitVec 4) (off : BitVec 15) (s : State) : Host.Outcome State Fault Refusal := .next (s.branch (.bne a b off) 1 a b off)
def execBlt (a b : BitVec 4) (off : BitVec 15) (s : State) : Host.Outcome State Fault Refusal := .next (s.branch (.blt a b off) 2 a b off)
def execBge (a b : BitVec 4) (off : BitVec 15) (s : State) : Host.Outcome State Fault Refusal := .next (s.branch (.bge a b off) 3 a b off)
def execBltu (a b : BitVec 4) (off : BitVec 15) (s : State) : Host.Outcome State Fault Refusal := .next (s.branch (.bltu a b off) 4 a b off)
def execBgeu (a b : BitVec 4) (off : BitVec 15) (s : State) : Host.Outcome State Fault Refusal := .next (s.branch (.bgeu a b off) 5 a b off)

/-! Jumps, calls and returns (R112 to R114). -/

def execJal (d : BitVec 4) (off : BitVec 22) (s : State) : Host.Outcome State Fault Refusal :=
  .next (s.plain (.jal d off) (fun s =>
    let x := s.me
    s.setMe { (x.kill.wr d (x.pc + 4)) with pc := jalTarget x.pc off }))
def execJalr (d a : BitVec 4) (s : State) : Host.Outcome State Fault Refusal :=
  .next (s.plain (.jalr d a) (fun s =>
    let x := s.me
    let t := x.rd a
    if t &&& 3 ≠ 0 then s.trapMe causeMisfetch 0 t else s.setMe { (x.wr d (x.pc + 4)) with pc := t }))
def execRet (a : BitVec 4) (s : State) : Host.Outcome State Fault Refusal :=
  .next (s.plain (.ret a) (fun s =>
    let x := s.me
    let t := x.rd a
    if t &&& 3 ≠ 0 then s.trapMe causeMisfetch 0 t else s.setMe { x.kill with pc := t }))

end Sys2Proof.Machine
end

