-- ==== Sys2Proof/Machine/LoomOps.lean ====
section
/-!
DEFINITION. The Loom's slot instructions (R228 to R267): the register files and ports that they read, when their results
land, the late faults, and the meaning of each. A slot instruction runs with the running number of the state naming its
Loom, after its bundle's dispatch has counted Loom time.
-/

namespace Sys2Proof.Machine

/-! Predicates and masks (R204). -/

/-- The predicate of an S, M or X word reads true. -/
def LoomCore.on (k : LoomCore) (p : Pred) : Bool := !p.pe || (k.sp.getD p.pi.toNat false != p.pn)
/-- Every lane. -/
def allLanes : BitVec 128 := BitVec.allOnes 128
/-- The lanes that a V word's mask leaves active. -/
def LoomCore.mask (k : LoomCore) (p : Pred) : BitVec 128 :=
  let m := k.vm.getD p.pi.toNat 0
  if p.pe then (if p.pn then ~~~m else m) else allLanes
/-- The active lanes' numbers. -/
def lanesIn (m : BitVec 128) : List Nat := (List.range 128).filter (fun i => m.getLsbD i)

/-! Registers (R199). -/

/-- An S register. -/
def LoomCore.sReg (k : LoomCore) (r : BitVec 5) : W32 := k.s.getD r.toNat 0
/-- A V register. -/
def LoomCore.vReg (k : LoomCore) (r : Nat) : Vec := Tab.get Vec.zero k.v r
/-- An M register. -/
def LoomCore.mReg (k : LoomCore) (r : BitVec 5) : W32 := k.m.getD r.toNat 0
/-- An X register. -/
def LoomCore.xReg (k : LoomCore) (r : BitVec 5) : W64 := k.x.getD r.toNat 0

/-- The file and number of the register that a result is for; vm, sp and sq have none. -/
def LResult.reg : LResult → Option (Nat × Nat)
  | .s d _ => some (0, d)
  | .v d _ _ => some (1, d)
  | .m d _ => some (2, d)
  | .x d _ => some (3, d)
  | _ => none

/-- A result of the running bundle is put in flight, to land L − 1 Loom times later; one that XCPY suppresses is not (R205,
R206, R207). -/
def LoomCore.fly (k : LoomCore) (slot lat : Nat) (r : LResult) : LoomCore :=
  if slot < 3 ∧ r.reg.isSome ∧ r.reg = k.supp then k
  else { k with flight := k.flight ++
    [{ at_ := k.now + lat - 1, disp := k.now, slot := slot, res := r, pend := k.dbgp && r.reg.isSome }] }

/-- A result of the running Loom's bundle. -/
def State.fly (s : State) (slot lat : Nat) (r : LResult) : State := s.setLk s.cur ((s.lk s.cur).fly slot lat r)

/-! Held bolts and releases (R239, R259). -/

/-- The weave holds a handle; SREL ends the hold at once, whatever rows are still to be placed (R240). -/
def LoomCore.holds (k : LoomCore) (h : BitVec 32) : Option Held := k.held.find? (fun x => x.h == h && !x.srel)
/-- A held bolt named by a register of 32 or 64 bits (R238). -/
def LoomCore.heldAs (k : LoomCore) (v : W64) : Option Held := if v.toNat < 2 ^ 32 then k.holds (v.setWidth 32) else none
/-- Change the record of a held bolt. -/
def LoomCore.setHeld (k : LoomCore) (h : BitVec 32) (f : Held → Held) : LoomCore :=
  { k with held := k.held.map (fun x => if x.h == h then f x else x) }

/-- The weave's hold of a bolt ends: the handle leaves the held set and the declared work (R280). -/
def State.dropHold (s : State) (l : ClusterId) (h : BitVec 32) : State :=
  let x := s.loom l
  s.setLoom l { x with
    work := x.work.filter (fun w => w.1 != h)
    k := { x.k with held := x.k.held.filter (fun y => y.h != h) } }

/-- An input bolt is released: freed now, or deferred to the commit under armed checkpointing (R259, R273). -/
def State.releaseBolt (s : State) (l : ClusterId) (h : BitVec 32) : State :=
  let s := s.dropHold l h
  match s.handle (l / 256) h with
  | .cur cl e b =>
    if (s.loom l).ck.armed then
      let x := s.loom l
      (s.setBolt cl e { b with st := .deferred }).setLoom l { x with ck := { x.ck with releases := x.ck.releases ++ [h] } }
    else s.freeBolt cl e (s.cycle + 1)
  | _ => s

/-- The weave seals an output bolt that it holds, when it is open; the post waits for the commit under armed checkpointing
(R240, R260). The hold ends. -/
def State.sealOutput (s : State) (l : ClusterId) (h : BitVec 32) : State :=
  let s := s.dropHold l h
  match s.handle (l / 256) h with
  | .cur cl e b =>
    if !b.isOpen then s
    else if (s.loom l).ck.armed then
      let x := s.loom l
      (s.setBolt cl e { b with later := 3 }).setLoom l { x with ck := { x.ck with posts := x.ck.posts ++ [h] } }
    else s.sealNow cl e 3
  | _ => s

/-! Late faults (R210, R211, R213, R411). -/

/-- Loom cause codes of R409. -/
def lcIllb : BitVec 8 := 0x01
/-- A read of a pending register. -/
def lcPend : BitVec 8 := 0x02
/-- A seventeenth held bolt. -/
def lcHeldFull : BitVec 8 := 0x03
/-- A handle that fails its check. -/
def lcBadHnd : BitVec 8 := 0x04
/-- A queue's count at 16. -/
def lcQovf : BitVec 8 := 0x05
/-- The store-data queue is empty. -/
def lcSqEmpty : BitVec 8 := 0x06
/-- A beat already taken. -/
def lcBsBusy : BitVec 8 := 0x07
/-- A load-data queue is empty. -/
def lcQEmpty : BitVec 8 := 0x08
/-- A push onto 16 entries. -/
def lcSqFull : BitVec 8 := 0x09
/-- A link that is not enabled. -/
def lcNoLink : BitVec 8 := 0x0A
/-- A data error. -/
def lcDataErr : BitVec 8 := 0x10
/-- A retired Loom. -/
def lcRetired : BitVec 8 := 0x11

/-- Put a replay entry among the others, oldest bundle first; a bundle that has one only loses the performed bit. -/
def addReplay (now : Nat) (r : Replay) : List Replay → List Replay
  | [] => [r]
  | x :: t =>
    if x.seq = r.seq then { x with perf := x.perf &&& r.perf, noEast := x.noEast || r.noEast } :: t
    else if (BitVec.ofNat 16 now - x.seq).toNat < (BitVec.ofNat 16 now - r.seq).toNat then r :: x :: t
    else x :: addReplay now r t

/-- A slot of the bundle at a Loom time has not performed: its replay entry is kept, and the Loom freezes at the end of the
second Loom time after that one (R411). A link that is not enabled is a fault of the V slot, whichever slot pops it (R213). -/
def LoomCore.lateFault (k : LoomCore) (time : Nat) (addr : BitVec 16) (slot : Nat) (cause : BitVec 8) (noEast : Bool := false) : LoomCore :=
  let r : Replay := {
    seq := BitVec.ofNat 16 time, addr := addr, perf := ~~~(1#4 <<< slot)
    slot := if cause = lcNoLink then 1 else BitVec.ofNat 2 slot, cause := cause, noEast := noEast }
  let n := time + 2 - k.now
  { k with
    replay := (addReplay k.now r k.replay).take 3
    freezeIn := some (match k.freezeIn with
      | some m => min m n
      | none => n) }

/-- A late fault of a slot of the running bundle. -/
def State.lateNow (s : State) (slot : Nat) (cause : BitVec 8) : State :=
  let k := s.lk s.cur
  s.setLk s.cur (k.lateFault k.now k.addr slot cause)

/-! Neighbour links (R212, R213). -/

/-- The Loom a number of columns east in the same mesh row. -/
def State.loomBeside (s : State) (l : ClusterId) (east : Bool) : Option ClusterId :=
  let p := s.phys l
  if east then (if p % 16 = 15 then none else s.logical (l / 256) (p + 1))
  else if p % 16 = 0 then none
  else s.logical (l / 256) (p - 1)

/-- The link is enabled: both Looms run weaves of one gang, and this one's checkpointing is not armed (R212, R419). -/
def State.linkOn (s : State) (l : ClusterId) (east : Bool) : Bool :=
  let x := s.loom l
  match s.loomBeside l east with
  | none => false
  | some m => !x.ck.armed && x.gang.isSome && x.gang == (s.loom m).gang && x.st != .stopped && (s.loom m).st != .stopped

/-! The V slot's sources, pops and pushes (R199, R202, R204, R244). -/

/-- The late fault that a slot's sources and forward push meet at dispatch. -/
def State.sourceFault (s : State) (l : ClusterId) (srcs : List (BitVec 5)) (fwd : Bool) : Option (BitVec 8) :=
  let k := s.lk l
  if (srcs.contains 28 ∧ k.q0 = []) ∨ (srcs.contains 29 ∧ k.q1 = []) then some lcQEmpty
  else if (srcs.contains 30 ∧ !s.linkOn l false) ∨ (fwd ∧ !s.linkOn l true) then some lcNoLink
  else none

/-- A push of a one-bundle result, landing at this Loom time, would find 16 entries (R211, R250). -/
def LoomCore.sqFullNow (k : LoomCore) : Bool :=
  let landing := (k.flight.filter (fun f => f.at_ ≤ k.now && (match f.res with
    | .sq _ => true
    | _ => false))).length
  16 ≤ k.sq.length - k.take.toNat + landing

/-- The late fault of a V or M instruction at dispatch: its pops, its push, and a result for sq that lands at once. -/
def State.slotFault (s : State) (l : ClusterId) (srcs : List (BitVec 5)) (fwd : Bool) (d : BitVec 5) (lat : Nat) : Option (BitVec 8) :=
  match s.sourceFault l srcs fwd with
  | some c => some c
  | none => if d = 31 ∧ lat = 1 ∧ (s.lk l).sqFullNow then some lcSqFull else none

/-- The entry of a request marked LAST has been popped: its bolt is released at the end of this Loom time (R259). -/
def LoomCore.popped (k : LoomCore) (r : QRow) : LoomCore :=
  match r.bolt with
  | some h => if r.last then k.setHeld h (fun x => { x with rel := true }) else k
  | none => k

/-- Read a V source, popping a queue or the west link. -/
def State.vRead (s : State) (l : ClusterId) (a : BitVec 5) : State × Vec :=
  let k := s.lk l
  if a = 28 then
    match k.q0 with
    | r :: t => (s.setLk l ({ k with q0 := t }.popped r), r.data)
    | [] => (s, Vec.zero)
  else if a = 29 then
    match k.q1 with
    | r :: t => (s.setLk l ({ k with q1 := t }.popped r), r.data)
    | [] => (s, Vec.zero)
  else if a = 30 then
    match k.west with
    | e :: t => (s.setLk l { k with west := t, westPop := s.cycle }, e.2)
    | [] => (s, Vec.zero)
  else (s, k.vReg a.toNat)

/-- Read several V sources in order. -/
def State.vReads (s : State) (l : ClusterId) : List (BitVec 5) → State × List Vec
  | [] => (s, [])
  | a :: t =>
    let (s, v) := s.vRead l a
    let (s, vs) := s.vReads l t
    (s, v :: vs)

/-- The rows that a V instruction's pops take, should its push be undone (R411). -/
def LoomCore.heads (k : LoomCore) (srcs : List (BitVec 5)) : List QRow :=
  (if srcs.contains 28 then k.q0.take 1 else []) ++ (if srcs.contains 29 then k.q1.take 1 else [])

/-- Push a vector onto the east link (R212), unless the push of a replayed slot has been made already (R412). -/
def State.pushEast (s : State) (l : ClusterId) (v : Vec) : State :=
  match (if (s.lk l).noEast then none else s.loomBeside l true) with
  | none => s
  | some m => s.setLk m { s.lk m with west := (s.lk m).west ++ [(s.cycle, v)] }

/-- A V instruction: it faults late, or reads and pops its sources, forwards, counts its conditions, puts its result in
flight and consumes the prefix when it is format-sensitive (R204, R206, R225, R244). -/
def State.vOp (s : State) (p : Pred) (d : BitVec 5) (srcs : List (BitVec 5)) (fwd : Bool) (lat : Nat) (sens : Bool)
    (f : BitVec 128 → List Vec → Vec × List Conds) : State :=
  let l := s.cur
  let k0 := s.lk l
  match s.slotFault l srcs fwd d lat with
  | some c => s.lateNow 1 c
  | none =>
    let m := k0.mask p
    let (s, vs) := s.vReads l srcs
    let s := if fwd then s.pushEast l (vs.headD Vec.zero) else s
    let (v, cs) := f m vs
    let s := if sens then s.setLk l { s.lk l with vpp := false } else s
    if d = 31 then
      let k := s.lk l
      s.setLk l { k with flight := k.flight ++ [{
        at_ := k.now + lat - 1, disp := k.now, slot := 1
        res := .sq ((List.range 128).map (fun i => if m.getLsbD i then Vec.lane v i else 0))
        cnt := condCounts cs, undo := k0.heads srcs, west := if srcs.contains 30 then k0.west.head? else none
        east := if fwd then some s.cycle else none, pay := if sens ∧ k0.vpp then some k0.vpfmt else none }] }
    else (s.countLanes l (condCounts cs)).fly 1 lat (.v d.toNat v m)

/-- A V instruction of one result and one condition set per lane. -/
def perLane (f : Nat → List W32 → W32 × Conds) (m : BitVec 128) (vs : List Vec) : Vec × List Conds :=
  let out := (List.range 128).map (fun i => f i (vs.map (fun v => Vec.lane v i)))
  (out.map (·.1), (lanesIn m).map (fun i => (out.getD i (0, 0)).2))

/-- Sources of a lane. -/
def src (l : List W32) (n : Nat) : W32 := l.getD n 0

/-- An integer V instruction (R245). -/
def State.vInt (s : State) (p : Pred) (d a b : BitVec 5) (fwd : Bool) (f : W32 → W32 → W32) : State :=
  s.vOp p d [a, b] fwd 1 false (perLane (fun _ x => (f (src x 0) (src x 1), 0)))

/-- The V payload in force (R43, R82). -/
def LoomCore.vPay (k : LoomCore) (dflt : Nat) : BitVec 12 := if k.vpp then k.vpfmt else plDefault dflt
/-- The M payload in force (R43, R82). -/
def LoomCore.mPay (k : LoomCore) (dflt : Nat) : BitVec 12 := if k.mpp then k.mpfmt else plDefault dflt

/-- The rounding of a lane: random bits from the vector that the lent byte names, under RSR (R48, R246). -/
def LoomCore.laneRnd (k : LoomCore) (pay : BitVec 12) (lend : BitVec 8) (i : Nat) : Rnd :=
  plRnd pay ((Vec.lane (k.vReg lend.toNat) i).toNat % 65536)

/-- A code and its conditions as a lane. -/
def laneOf (r : Nat × Conds) : W32 × Conds := (BitVec.ofNat 32 r.1, r.2)

/-- A floating-point V instruction of two sources (R246). -/
def State.vFp (s : State) (p : Pred) (d a b : BitVec 5) (fwd : Bool) (lend : BitVec 8) (lat : Nat)
    (f : Rnd → Nat → Nat → Nat × Conds) : State :=
  let k := s.lk s.cur
  let pay := k.vPay 0
  s.vOp p d [a, b] fwd lat true
    (perLane (fun i x => laneOf (f (k.laneRnd pay lend i) (src x 0).toNat (src x 1).toNat)))

/-- VNRW's lane (R248). -/
def vnrwLane (pay : BitVec 12) (r : Rnd) (scale : Option Nat) (c : W32) : W32 × Conds :=
  if plFmt pay = 5 ∨ plFmt pay = 6 then
    let (i, k) := toInt (fmtWidth (plFmt pay)) r c.toNat
    (BitVec.ofInt 32 i, k)
  else laneOf (narrow (plFmt pay) r scale c.toNat)

/-- VWID's lane (R248). -/
def vwidLane (pay : BitVec 12) (r : Rnd) (scale : Option Nat) (c : W32) : W32 × Conds :=
  if plFmt pay = 6 then laneOf (roundInt fp32 r c.toInt) else (BitVec.ofNat 32 (widen (plFmt pay) scale c.toNat), 0)

/-- VNRW and VWID: the second source is the scale vector under SCALE 1 (R248). -/
def State.vConv (s : State) (p : Pred) (d a b : BitVec 5) (lend : BitVec 8)
    (f : BitVec 12 → Rnd → Option Nat → W32 → W32 × Conds) : State :=
  let k := s.lk s.cur
  let pay := k.vPay 1
  s.vOp p d (if plScale pay = 1 then [a, b] else [a]) false 2 true
    (perLane (fun i x =>
      f pay (k.laneRnd pay lend i) (if plScale pay = 1 then some ((src x 1).toNat % 256) else none) (src x 0)))

/-- A reduction over the active lanes, by the tree of R62 (R249). -/
def reduce (op : Nat → Nat → Nat × Conds) (absent : Nat) (m : BitVec 128) (vs : List Vec) : Vec × List Conds :=
  let v := vs.headD Vec.zero
  let (r, cs) := treeFold op 7 ((List.range 128).map (fun i => if m.getLsbD i then some (Vec.lane v i).toNat else none))
  (List.replicate 128 (BitVec.ofNat 32 (r.getD absent)), cs)

/-- VRSUM's node (R249). -/
def rsumNode (pay : BitVec 12) (a b : Nat) : Nat × Conds :=
  if plFmt pay = 6 then ((a + b) % 2 ^ 32, 0) else fadd (plRnd pay 0) a b
/-- VRMAX's node (R249). -/
def rmaxNode (pay : BitVec 12) (a b : Nat) : Nat × Conds :=
  if plFmt pay = 6 then ((if toSigned 32 a < toSigned 32 b then b else a), 0) else fmaxmin fp32 true a b

/-- VMASK's test of a lane (R252). -/
def vmaskLane (cc : BitVec 3) (a b : W32) : Bool × Conds :=
  match cc.toNat with
  | 4 => flt a.toNat b.toNat
  | 5 => fle a.toNat b.toNat
  | n => (scmpTaken (BitVec.ofNat 3 n) a b, 0)

/-- VMASK (R252). -/
def State.vMask (s : State) (p : Pred) (n : BitVec 2) (cc : BitVec 3) (a b : BitVec 5) : State :=
  let l := s.cur
  match s.sourceFault l [a, b] false with
  | some c => s.lateNow 1 c
  | none =>
    let m := (s.lk l).mask p
    let (s, vs) := s.vReads l [a, b]
    let out := (List.range 128).map (fun i => vmaskLane cc (Vec.lane (vs.getD 0 []) i) (Vec.lane (vs.getD 1 []) i))
    let bits : BitVec 128 := BitVec.ofNat 128 (bitsNat (out.map (·.1)))
    (s.countLanes l (condCounts ((lanesIn m).map (fun i => (out.getD i (false, 0)).2)))).fly 1 1 (.vm n.toNat bits m)

/-! S slot (R234 to R243). -/

/-- An S instruction that writes a register, when its predicate reads true. -/
def State.sOp (s : State) (p : Pred) (d : BitVec 5) (lat : Nat) (f : LoomCore → W32) : State :=
  let k := s.lk s.cur
  if k.on p then s.fly 0 lat (.s d.toNat (f k)) else s

/-- A control transfer with one delay bundle (R197, R229). -/
def State.transfer (s : State) (t : BitVec 12) : State :=
  s.setLk s.cur { s.lk s.cur with xfer := some (t ++ 0#4) }

/-- SNEXT: the oldest entry of the bolt queue becomes held (R238); the place goes to the oldest unposted bolt at once (R280). -/
def State.snext (s : State) (d : BitVec 5) : State :=
  let l := s.cur
  let x := s.loom l
  match x.k.boltQ with
  | [] => s
  | (h, at_) :: t =>
    let is := s.handle (l / 256) h
    let out : Bool := match is with
      | .cur _ _ b => b.out
      | _ => true
    let s := s.setLoom l { x with
      ck := if x.ck.armed then { x.ck with pops := x.ck.pops ++ [(h, at_)] } else x.ck
      k := { x.k with boltQ := t, held := x.k.held ++ [{ h := h, out := out }] } }
    let s := match is with
      | .cur cl e b => s.setBolt cl e { b with popped := true, st := if b.out then b.st else .held }
      | _ => s
    (s.now (.boltPost l)).fly 0 1 (.s d.toNat h)

/-- SREL (R240). -/
def State.srel (s : State) (h : BitVec 32) : State :=
  let l := s.cur
  let k := s.lk l
  match k.holds h with
  | none => s
  | some x => if x.out then s.sealOutput l h else s.setLk l (k.setHeld h (fun x => { x with srel := true }))

/-! M slot (R253 to R256). -/

/-- A wavefront enters the array at this Loom time (R214). -/
def State.inject (s : State) (w : Wave) : State :=
  let k := s.lk s.cur
  s.setLk s.cur { k with waves := k.waves ++ [{ w with t0 := k.now }] }

/-- MPUSH and MZPUSH (R253, R254). -/
def State.mPush (s : State) (p : Pred) (step a b : BitVec 5) (kind : WaveKind) : State :=
  let l := s.cur
  let k := s.lk l
  if !k.on p then s
  else
    match s.sourceFault l [a] false with
    | some c => s.lateNow 2 c
    | none =>
      let (s, v) := s.vRead l a
      let pay := k.mPay 2
      let s := s.inject { kind := kind, a := v, row := (k.mReg b).toNat % 2048, fmt := pay }
      let s := s.setLk l { s.lk l with mpp := false, bf16 := plFmt pay == 1 }
      if step = 0 then s else s.fly 2 1 (.m b.toNat (k.mReg b + step.setWidth 32))

/-- MDRAIN (R255). -/
def State.mDrain (s : State) (p : Pred) (a b : BitVec 5) : State :=
  let k := s.lk s.cur
  if !k.on p then s
  else
    let s := s.inject { kind := .drain, fmt := k.mPay 2, sa := k.mReg a, sb := k.mReg b }
    s.setLk s.cur { s.lk s.cur with mpp := false }

/-- An M instruction that writes a register. -/
def State.mOp (s : State) (p : Pred) (d : BitVec 5) (f : LoomCore → W32) : State :=
  let k := s.lk s.cur
  if k.on p then s.fly 2 1 (.m d.toNat (f k)) else s

/-! X slot (R257 to R267). -/

/-- INC of an X instruction: the row register rises by one (R257). -/
def State.xInc (s : State) (inc : Bool) (r : BitVec 5) (v : W64) : State := if inc then s.fly 3 1 (.x r.toNat (v + 1)) else s

/-- A row is requested for a load-data queue (R209). -/
def State.request (s : State) (r : QRow) : State :=
  let k := s.lk s.cur
  s.setLk s.cur { k with rows := k.rows ++ [{ r with at_ := k.now + 5 }] }

/-- XRQ (R257, R258). -/
def State.xrq (s : State) (flags a b : BitVec 5) : State :=
  let k := s.lk s.cur
  let h : BitVec 32 := (k.xReg a).setWidth 32
  let s := s.request { q := flags.getLsbD 0, bolt := some h, row := (k.xReg b).toNat % 128, last := flags.getLsbD 1 }
  let s := if flags.getLsbD 1 then s.setLk s.cur ((s.lk s.cur).setHeld h (fun x => { x with last := true })) else s
  s.xInc (flags.getLsbD 2) b (k.xReg b)

/-- The store-data queue's oldest entry is taken (R211), and joins the rerun's signature (R420). -/
def State.takeSq (s : State) : State × Vec :=
  let l := s.cur
  let x := s.loom l
  match x.k.sq with
  | [] => (s, Vec.zero)
  | v :: t =>
    let bytes := v.flatMap (fun w => leBytes 4 w.toNat)
    (s.setLoom l { x with
      k := { x.k with sq := t }
      ck := if x.ck.rerun = 0 then x.ck else { x.ck with sig := crcBytes x.ck.sig bytes } }, v)

/-- First byte of a row of a bolt (R271). -/
def rowAt (cl : ClusterId) (b : Bolt) (r : Nat) : Nat := windowBase cl + b.page * 4096 + r * b.stride

/-- A lane converted to an element format (R260). -/
def toElem (fmt : Nat) (v : W32) : Nat × Conds :=
  match fmt with
  | 0 => (v.toNat, 0)
  | 6 => (v.toNat, 0)
  | 5 =>
    let i := v.toInt
    if i < -128 then (0x80, cInvalid) else if i > 127 then (0x7F, cInvalid) else (v.toNat % 256, 0)
  | n => narrow n {} none v.toNat

/-- A row of elements as the number that its bytes hold (R41, R271). -/
def packRow (w : Nat) : List Nat → Nat
  | [] => 0
  | e :: t => e % 2 ^ w + 2 ^ w * packRow w t

/-- Write a row of a bolt and mark it valid; the conversions' conditions count in the Loom's set (R260). -/
def State.writeRow (s : State) (l cl e : Nat) (b : Bolt) (r : Nat) (v : Vec) : State :=
  let w := fmtWidth b.fmt.toNat
  let out := (List.range b.elems).map (fun i => toElem b.fmt.toNat (Vec.lane v i))
  let n := (b.elems * w + 7) / 8
  let a := rowAt cl b r
  let old := leNat (Memory.read s.mem a n)
  let bits := b.elems * w
  let new := old / 2 ^ bits * 2 ^ bits + packRow w (out.map (·.1))
  let s := { s with mem := Memory.write s.mem a (leBytes n new) }
  let s := s.setBolt cl e { b with valid := b.valid ||| 1#128 <<< r }
  s.countLanes l (condCounts (out.map (·.2)))

/-- XWR (R260, R261). -/
def State.xwr (s : State) (flags a b : BitVec 5) : State :=
  let l := s.cur
  let k := s.lk l
  let h : BitVec 32 := (k.xReg a).setWidth 32
  let r := (k.xReg b).toNat % 128
  let (s, v) := s.takeSq
  let open_ : Option (ClusterId × Nat × Bolt) := match s.handle (l / 256) h with
    | .cur cl e b => if b.isOpen then some (cl, e, b) else none
    | _ => none
  let s := match open_ with
    | some (cl, e, x) => if r < x.rows then s.writeRow l cl e x r v else s
    | none => s.countLoom l 6 1
  let s := if flags.getLsbD 0 then s.sealOutput l h else s
  s.xInc (flags.getLsbD 1) b (k.xReg b)

/-- XBRD (R262). -/
def State.xbrd (s : State) (flags b : BitVec 5) : State :=
  let k := s.lk s.cur
  let s := s.request { q := flags.getLsbD 0, row := (k.xReg b).toNat % 2048 }
  s.xInc (flags.getLsbD 2) b (k.xReg b)

/-- XBWR (R263). -/
def State.xbwr (s : State) (flags b : BitVec 5) : State :=
  let l := s.cur
  let k := s.lk l
  let (s, v) := s.takeSq
  let s := s.setLk l { s.lk l with bw := (s.lk l).bw ++ [{ at_ := k.now + 1, row := (k.xReg b).toNat % 2048, vals := v }] }
  s.xInc (flags.getLsbD 1) b (k.xReg b)

/-- Rows of the bolt that a handle names on a Loom's die. -/
def State.rowsOf (s : State) (l : ClusterId) (h : BitVec 32) : Nat :=
  match s.handle (l / 256) h with
  | .cur _ _ b => b.rows
  | _ => 0

/-- XBLD (R264). -/
def State.xbld (s : State) (a b : BitVec 5) : State :=
  let l := s.cur
  let k := s.lk l
  let h : BitVec 32 := (k.xReg a).setWidth 32
  let n := s.rowsOf l h
  let ws := (List.range n).map (fun r =>
    ({ at_ := k.now + 5 + r, row := ((k.xReg b).toNat + r) % 2048, bolt := some (h, r, r + 1 == n) } : BWrite))
  s.setLk l ({ s.lk l with bw := (s.lk l).bw ++ ws }.setHeld h (fun x => { x with last := true, bld := true }))

/-- The value that XCPY copies, as 64 bits, and as a vector for a V source (R266). -/
def LoomCore.copySrc (k : LoomCore) (f : BitVec 2) (a : BitVec 5) (lend : BitVec 8) : W64 × Vec :=
  match f.toNat with
  | 0 => ((k.sReg a).setWidth 64, [])
  | 1 => ((Vec.lane (k.vReg a.toNat) (lend.toNat % 128)).setWidth 64, k.vReg a.toNat)
  | 2 => ((k.mReg a).setWidth 64, [])
  | _ => (k.xReg a, [])

/-- XCPY (R205, R266). -/
def State.xcpy (s : State) (p : Pred) (d a b : BitVec 5) (lend : BitVec 8) : State :=
  let k := s.lk s.cur
  if !k.on p then s
  else
    let f : BitVec 2 := b.extractLsb' 0 2
    let g : BitVec 2 := b.extractLsb' 2 2
    let (v, vec) := k.copySrc f a lend
    let r : LResult := match g.toNat with
      | 0 => .s d.toNat (v.setWidth 32)
      | 1 => .v d.toNat (if f = 1 then vec else List.replicate 128 (v.setWidth 32)) allLanes
      | 2 => .m d.toNat (v.setWidth 32)
      | _ => .x d.toNat v
    let s := if k.supp.isSome then s.setLk s.cur { k with coll := true } else s
    s.fly 3 2 r

/-- An X instruction performed when its predicate reads true. -/
def State.xOp (s : State) (p : Pred) (f : State → State) : State := if (s.lk s.cur).on p then f s else s

/-- Place of a weave's seals in a cycle: after the bundles, and before the grains' requests (R283). -/
def ordSeals : Nat := 85000

/-! The meanings. -/

def execSadd (p : Pred) (d a b : BitVec 5) (s : State) : Host.Outcome State Fault Refusal :=
  .next (s.sOp p d 1 (fun k => k.sReg a + k.sReg b))
def execSsub (p : Pred) (d a b : BitVec 5) (s : State) : Host.Outcome State Fault Refusal :=
  .next (s.sOp p d 1 (fun k => k.sReg a - k.sReg b))
def execSand (p : Pred) (d a b : BitVec 5) (s : State) : Host.Outcome State Fault Refusal :=
  .next (s.sOp p d 1 (fun k => k.sReg a &&& k.sReg b))
def execSor (p : Pred) (d a b : BitVec 5) (s : State) : Host.Outcome State Fault Refusal :=
  .next (s.sOp p d 1 (fun k => k.sReg a ||| k.sReg b))
def execSsll (p : Pred) (d a b : BitVec 5) (s : State) : Host.Outcome State Fault Refusal :=
  .next (s.sOp p d 1 (fun k => k.sReg a <<< ((k.sReg b).toNat % 32)))
def execSsrl (p : Pred) (d a b : BitVec 5) (s : State) : Host.Outcome State Fault Refusal :=
  .next (s.sOp p d 1 (fun k => k.sReg a >>> ((k.sReg b).toNat % 32)))
def execSmul (p : Pred) (d a b : BitVec 5) (s : State) : Host.Outcome State Fault Refusal :=
  .next (s.sOp p d 3 (fun k => k.sReg a * k.sReg b))
def execScmp (p : Pred) (n : BitVec 2) (cc : BitVec 3) (a b : BitVec 5) (s : State) : Host.Outcome State Fault Refusal :=
  let k := s.lk s.cur
  .next (if k.on p then s.fly 0 1 (.sp n.toNat (scmpTaken cc (k.sReg a) (k.sReg b))) else s)
def execSaddi (p : Pred) (d a : BitVec 5) (imm : BitVec 13) (s : State) : Host.Outcome State Fault Refusal :=
  .next (s.sOp p d 1 (fun k => k.sReg a + imm.signExtend 32))
def execSmovi (p : Pred) (d : BitVec 5) (imm : BitVec 18) (s : State) : Host.Outcome State Fault Refusal :=
  .next (s.sOp p d 1 (fun _ => imm.signExtend 32))
def execSbr (p : Pred) (t : BitVec 12) (s : State) : Host.Outcome State Fault Refusal :=
  .next (if (s.lk s.cur).on p then s.transfer t else s)
def execSloop (p : Pred) (d : BitVec 5) (t : BitVec 12) (s : State) : Host.Outcome State Fault Refusal :=
  let k := s.lk s.cur
  let c := k.sReg d - 1
  .next (if k.on p then (if c ≠ 0 then s.transfer t else s).fly 0 1 (.s d.toNat c) else s)
def execSnop (_p : Pred) (s : State) : Host.Outcome State Fault Refusal := .next s
def execSnext (p : Pred) (d : BitVec 5) (s : State) : Host.Outcome State Fault Refusal :=
  .next (if (s.lk s.cur).on p then s.snext d else s)
def execSrel (p : Pred) (a : BitVec 5) (s : State) : Host.Outcome State Fault Refusal :=
  .next (if (s.lk s.cur).on p then s.srel ((s.lk s.cur).sReg a) else s)
def execSckpt (p : Pred) (s : State) : Host.Outcome State Fault Refusal :=
  let x := s.loom s.cur
  .next (if x.k.on p ∧ x.ck.armed then
      (s.setLoom s.cur { x with ck := { x.ck with ask := if x.ck.ask = 2 then 2 else 3 } }).eventAt s.cycle ordSeals (.boltPost s.cur)
    else s)
def execSrsr (p : Pred) (d b : BitVec 5) (s : State) : Host.Outcome State Fault Refusal :=
  let v := (s.loom s.cur).lsr s.cycle
  .next (s.sOp p d 1 (fun _ => if b = 0 then v.setWidth 32 else (v.extractLsb' 32 8).setWidth 32))
def execShalt (p : Pred) (s : State) : Host.Outcome State Fault Refusal :=
  let k := s.lk s.cur
  .next (if k.on p then (s.setLk s.cur { k with halting := true }).eventAt s.cycle ordSeals (.boltPost s.cur) else s)

def execVadd (p : Pred) (d a b : BitVec 5) (fwd : Bool) (s : State) : Host.Outcome State Fault Refusal :=
  .next (s.vInt p d a b fwd (· + ·))
def execVsub (p : Pred) (d a b : BitVec 5) (fwd : Bool) (s : State) : Host.Outcome State Fault Refusal :=
  .next (s.vInt p d a b fwd (· - ·))
def execVand (p : Pred) (d a b : BitVec 5) (fwd : Bool) (s : State) : Host.Outcome State Fault Refusal :=
  .next (s.vInt p d a b fwd (· &&& ·))
def execVor (p : Pred) (d a b : BitVec 5) (fwd : Bool) (s : State) : Host.Outcome State Fault Refusal :=
  .next (s.vInt p d a b fwd (· ||| ·))
def execVxor (p : Pred) (d a b : BitVec 5) (fwd : Bool) (s : State) : Host.Outcome State Fault Refusal :=
  .next (s.vInt p d a b fwd (· ^^^ ·))
def execVsll (p : Pred) (d a b : BitVec 5) (fwd : Bool) (s : State) : Host.Outcome State Fault Refusal :=
  .next (s.vInt p d a b fwd (fun x y => x <<< (y.toNat % 32)))
def execVsra (p : Pred) (d a b : BitVec 5) (fwd : Bool) (s : State) : Host.Outcome State Fault Refusal :=
  .next (s.vInt p d a b fwd (fun x y => x.sshiftRight (y.toNat % 32)))
def execVfadd (p : Pred) (d a b : BitVec 5) (fwd : Bool) (lend : BitVec 8) (s : State) : Host.Outcome State Fault Refusal :=
  .next (s.vFp p d a b fwd lend 3 fadd)
def execVfmul (p : Pred) (d a b : BitVec 5) (fwd : Bool) (lend : BitVec 8) (s : State) : Host.Outcome State Fault Refusal :=
  .next (s.vFp p d a b fwd lend 3 fmul)
def execVfma (p : Pred) (d a b : BitVec 5) (fwd : Bool) (lend : BitVec 8) (s : State) : Host.Outcome State Fault Refusal :=
  let k := s.lk s.cur
  .next (s.vOp p d [a, b] fwd 4 true (perLane (fun i x =>
    laneOf (ffma (plRnd (k.vPay 0) 0) (src x 0).toNat (src x 1).toNat (Vec.lane (k.vReg lend.toNat) i).toNat))))
def execVfmax (p : Pred) (d a b : BitVec 5) (fwd : Bool) (lend : BitVec 8) (s : State) : Host.Outcome State Fault Refusal :=
  .next (s.vFp p d a b fwd lend 2 (fun _ x y => fmaxmin fp32 true x y))
def execVfmin (p : Pred) (d a b : BitVec 5) (fwd : Bool) (lend : BitVec 8) (s : State) : Host.Outcome State Fault Refusal :=
  .next (s.vFp p d a b fwd lend 2 (fun _ x y => fmaxmin fp32 false x y))
def execVnrw (p : Pred) (d a b : BitVec 5) (lend : BitVec 8) (s : State) : Host.Outcome State Fault Refusal :=
  .next (s.vConv p d a b lend vnrwLane)
def execVwid (p : Pred) (d a b : BitVec 5) (lend : BitVec 8) (s : State) : Host.Outcome State Fault Refusal :=
  .next (s.vConv p d a b lend vwidLane)
def execVrsum (p : Pred) (d a : BitVec 5) (s : State) : Host.Outcome State Fault Refusal :=
  .next (s.vOp p d [a] false 4 true (reduce (rsumNode ((s.lk s.cur).vPay 0)) 0))
def execVrmax (p : Pred) (d a : BitVec 5) (s : State) : Host.Outcome State Fault Refusal :=
  let pay := (s.lk s.cur).vPay 0
  .next (s.vOp p d [a] false 4 true (reduce (rmaxNode pay) (if plFmt pay = 6 then 0x80000000 else 0x7FC00000)))
def execVmov (p : Pred) (d a : BitVec 5) (fwd : Bool) (s : State) : Host.Outcome State Fault Refusal :=
  .next (s.vOp p d [a] fwd 1 false (perLane (fun _ x => (src x 0, 0))))
def execVmrd (p : Pred) (d : BitVec 5) (row : BitVec 7) (s : State) : Host.Outcome State Fault Refusal :=
  let k := s.lk s.cur
  .next (s.vOp p d [] false 2 false (fun _ _ =>
    ((List.range 128).map (fun j => Vec.lane (Tab.get Vec.zero k.rank j) row.toNat), [])))
def execVmask (p : Pred) (n : BitVec 2) (cc : BitVec 3) (a b : BitVec 5) (s : State) : Host.Outcome State Fault Refusal :=
  .next (s.vMask p n cc a b)
def execVnop (_p : Pred) (s : State) : Host.Outcome State Fault Refusal := .next s
def execVfmt (payload : BitVec 12) (s : State) : Host.Outcome State Fault Refusal :=
  .next (s.setLk s.cur { s.lk s.cur with vpp := true, vpfmt := payload })

def execMbub (_p : Pred) (s : State) : Host.Outcome State Fault Refusal := .next s
def execMpush (p : Pred) (step a b : BitVec 5) (s : State) : Host.Outcome State Fault Refusal := .next (s.mPush p step a b .acc)
def execMzpush (p : Pred) (step a b : BitVec 5) (s : State) : Host.Outcome State Fault Refusal := .next (s.mPush p step a b .zacc)
def execMdrain (p : Pred) (a b : BitVec 5) (s : State) : Host.Outcome State Fault Refusal := .next (s.mDrain p a b)
def execMset (p : Pred) (d : BitVec 5) (imm : BitVec 18) (s : State) : Host.Outcome State Fault Refusal :=
  .next (s.mOp p d (fun _ => imm.setWidth 32))
def execMadd (p : Pred) (d a : BitVec 5) (imm : BitVec 13) (s : State) : Host.Outcome State Fault Refusal :=
  .next (s.mOp p d (fun k => k.mReg a + imm.signExtend 32))
def execMfmt (payload : BitVec 12) (s : State) : Host.Outcome State Fault Refusal :=
  .next (s.setLk s.cur { s.lk s.cur with mpp := true, mpfmt := payload })

def execXrq (p : Pred) (flags a b : BitVec 5) (s : State) : Host.Outcome State Fault Refusal :=
  .next (s.xOp p (fun s => s.xrq flags a b))
def execXwr (p : Pred) (flags a b : BitVec 5) (s : State) : Host.Outcome State Fault Refusal :=
  .next (s.xOp p (fun s => s.xwr flags a b))
def execXbrd (p : Pred) (flags b : BitVec 5) (s : State) : Host.Outcome State Fault Refusal :=
  .next (s.xOp p (fun s => s.xbrd flags b))
def execXbwr (p : Pred) (flags b : BitVec 5) (s : State) : Host.Outcome State Fault Refusal :=
  .next (s.xOp p (fun s => s.xbwr flags b))
def execXbld (p : Pred) (a b : BitVec 5) (s : State) : Host.Outcome State Fault Refusal :=
  .next (s.xOp p (fun s => s.xbld a b))
def execXcpy (p : Pred) (d a b : BitVec 5) (lend : BitVec 8) (s : State) : Host.Outcome State Fault Refusal :=
  .next (s.xcpy p d a b lend)
def execXnop (_p : Pred) (s : State) : Host.Outcome State Fault Refusal := .next s
def execXset (p : Pred) (d a : BitVec 5) (imm : BitVec 13) (s : State) : Host.Outcome State Fault Refusal :=
  .next (s.xOp p (fun s => s.fly 3 1 (.x d.toNat ((s.lk s.cur).xReg a + imm.signExtend 64))))

end Sys2Proof.Machine
end

