-- ==== Sys2Proof/Machine/Loom.lean ====
section
/-!
DEFINITION. The Loom: the dispatch of a bundle with its checks and waits, what happens at the end of a Loom time, checkpoint
commits, and the start and end of a weave (R194 to R213, R233, R241, R243, R409 to R411).
-/

namespace Sys2Proof.Machine

/-! Bundles (R83, R84). -/

/-- The four slots of a bundle, S V M X; an empty slot, or one of padding, is none. -/
abbrev Bundle := List (Option Instr)

/-- The slot of a bundle. -/
def Bundle.at (b : Bundle) (i : Nat) : Option Instr := b.getD i none

/-- The major opcode of a word belongs to a slot's class (R76). -/
def slotClass (i : Nat) (w : W32) : Bool :=
  let op := (w.extractLsb' 26 6).toNat
  match i with
  | 0 => 40 ≤ op && op ≤ 45
  | 1 => 46 ≤ op && op ≤ 53
  | 2 => op == 54 || op == 55
  | _ => 56 ≤ op && op ≤ 59

/-- The words of the bundle at an address, each with its slot and its lent byte (R83, R198). -/
def Loom.words (x : Loom) (a : BitVec 16) : List (Nat × W32 × Byte) :=
  let w (i : Nat) : W32 := Tab.get 0 x.store (a.toNat / 4 + i)
  if (w 0).extractLsb' 26 6 = 0x3F then
    let slots := [0, 1, 2, 3].filter (· != ((w 0).extractLsb' 24 2).toNat)
    [(slots.getD 0 0, w 1, (w 0).extractLsb' 16 8), (slots.getD 1 0, w 2, (w 0).extractLsb' 8 8)
    , (slots.getD 2 0, w 3, (w 0).extractLsb' 0 8)]
  else [(0, w 0, 0), (1, w 1, 0), (2, w 2, 0), (3, w 3, 0)]

/-- Decode a bundle: its slots, or the lowest slot whose word is illegal (R79). -/
def Loom.decode (x : Loom) (a : BitVec 16) : Except Nat Bundle :=
  (x.words a).foldl (fun r (i, w, lend) =>
    match r with
    | .error n => .error n
    | .ok b => match (if slotClass i w then decodeSlot w lend else none) with
      | none => .error i
      | some o => .ok (b.set i (some o))) (.ok [none, none, none, none])

/-! What each slot instruction reads and writes (R199, R201, R205). -/

/-- The predicate of a slot instruction; a prefix has none. -/
def slotPred : Instr → Pred
  | .sadd p _ _ _ => p
  | .ssub p _ _ _ => p
  | .sand p _ _ _ => p
  | .sor p _ _ _ => p
  | .ssll p _ _ _ => p
  | .ssrl p _ _ _ => p
  | .smul p _ _ _ => p
  | .scmp p _ _ _ _ => p
  | .saddi p _ _ _ => p
  | .smovi p _ _ => p
  | .sbr p _ => p
  | .sloop p _ _ => p
  | .snop p => p
  | .snext p _ => p
  | .srel p _ => p
  | .sckpt p => p
  | .srsr p _ _ => p
  | .shalt p => p
  | .vadd p _ _ _ _ => p
  | .vsub p _ _ _ _ => p
  | .vand p _ _ _ _ => p
  | .vor p _ _ _ _ => p
  | .vxor p _ _ _ _ => p
  | .vsll p _ _ _ _ => p
  | .vsra p _ _ _ _ => p
  | .vfadd p _ _ _ _ _ => p
  | .vfmul p _ _ _ _ _ => p
  | .vfma p _ _ _ _ _ => p
  | .vfmax p _ _ _ _ _ => p
  | .vfmin p _ _ _ _ _ => p
  | .vnrw p _ _ _ _ => p
  | .vwid p _ _ _ _ => p
  | .vrsum p _ _ => p
  | .vrmax p _ _ => p
  | .vmov p _ _ _ => p
  | .vmrd p _ _ => p
  | .vmask p _ _ _ _ => p
  | .vnop p => p
  | .mbub p => p
  | .mpush p _ _ _ => p
  | .mzpush p _ _ _ => p
  | .mdrain p _ _ => p
  | .mset p _ _ => p
  | .madd p _ _ _ => p
  | .xrq p _ _ _ => p
  | .xwr p _ _ _ => p
  | .xbrd p _ _ => p
  | .xbwr p _ _ => p
  | .xbld p _ _ => p
  | .xcpy p _ _ _ _ => p
  | .xnop p => p
  | .xset p _ _ _ => p
  | _ => {}

/-- What a V instruction reads, writes and does at dispatch. -/
structure VForm where
  srcs  : List (BitVec 5) := []
  /-- The vector that the lent byte names, when it is read. -/
  ext   : Option (BitVec 8) := none
  dst   : Option (BitVec 5) := none
  lat   : Nat := 1
  fwd   : Bool := false
  /-- Default FORMAT of a format-sensitive instruction, and what it accepts (R232). -/
  sens  : Option (Nat × Accept) := none
  /-- It runs under RSR with the lent byte naming the random vector. -/
  rnd   : Option (BitVec 8) := none

/-- V payloads of R232: FP32 alone. -/
def accVfp : Accept := { fmts := [0] }
/-- VFMA. -/
def accVfma : Accept := { fmts := [0], rounds := [0, 1, 2, 3] }
/-- VNRW and VWID. -/
def accVconv : Accept := { fmts := [1, 2, 3, 4, 5, 6], scale1 := true }
/-- VRSUM. -/
def accVrsum : Accept := { fmts := [0, 6], rounds := [0, 1, 2, 3] }
/-- VRMAX. -/
def accVrmax : Accept := { fmts := [0, 6] }

/-- The form of a V instruction under a payload in force. -/
def vForm (pay : Nat → BitVec 12) : Instr → VForm
  | .vadd _ d a b f => { srcs := [a, b], dst := some d, fwd := f }
  | .vsub _ d a b f => { srcs := [a, b], dst := some d, fwd := f }
  | .vand _ d a b f => { srcs := [a, b], dst := some d, fwd := f }
  | .vor _ d a b f => { srcs := [a, b], dst := some d, fwd := f }
  | .vxor _ d a b f => { srcs := [a, b], dst := some d, fwd := f }
  | .vsll _ d a b f => { srcs := [a, b], dst := some d, fwd := f }
  | .vsra _ d a b f => { srcs := [a, b], dst := some d, fwd := f }
  | .vfadd _ d a b f e => { srcs := [a, b], dst := some d, fwd := f, lat := 3, sens := some (0, accVfp), rnd := some e }
  | .vfmul _ d a b f e => { srcs := [a, b], dst := some d, fwd := f, lat := 3, sens := some (0, accVfp), rnd := some e }
  | .vfma _ d a b f e => { srcs := [a, b], ext := some e, dst := some d, fwd := f, lat := 4, sens := some (0, accVfma) }
  | .vfmax _ d a b f e => { srcs := [a, b], dst := some d, fwd := f, lat := 2, sens := some (0, accVfp), rnd := some e }
  | .vfmin _ d a b f e => { srcs := [a, b], dst := some d, fwd := f, lat := 2, sens := some (0, accVfp), rnd := some e }
  | .vnrw _ d a b e =>
    { srcs := if plScale (pay 1) = 1 then [a, b] else [a], dst := some d, lat := 2, sens := some (1, accVconv), rnd := some e }
  | .vwid _ d a b e =>
    { srcs := if plScale (pay 1) = 1 then [a, b] else [a], dst := some d, lat := 2, sens := some (1, accVconv), rnd := some e }
  | .vrsum _ d a => { srcs := [a], dst := some d, lat := 4, sens := some (0, accVrsum) }
  | .vrmax _ d a => { srcs := [a], dst := some d, lat := 4, sens := some (0, accVrmax) }
  | .vmov _ d a f => { srcs := [a], dst := some d, fwd := f }
  | .vmrd _ d _ => { dst := some d, lat := 2 }
  | .vmask _ _ _ a b => { srcs := [a, b] }
  | _ => {}

/-- The random vector's register, when the instruction runs under RSR. -/
def VForm.rndReg (f : VForm) (pay : Nat → BitVec 12) : Option (BitVec 8) :=
  match f.sens, f.rnd with
  | some (d, _), some e => if plRound (pay d) = 4 then some e else none
  | _, _ => none

/-- Registers that a slot instruction reads, as file and number; ports are V numbers 28 to 30; XCPY's source is apart. -/
def LoomCore.reads (k : LoomCore) (i : Instr) : List (Nat × Nat) :=
  match i with
  | .sadd _ _ a b => [(0, a.toNat), (0, b.toNat)]
  | .ssub _ _ a b => [(0, a.toNat), (0, b.toNat)]
  | .sand _ _ a b => [(0, a.toNat), (0, b.toNat)]
  | .sor _ _ a b => [(0, a.toNat), (0, b.toNat)]
  | .ssll _ _ a b => [(0, a.toNat), (0, b.toNat)]
  | .ssrl _ _ a b => [(0, a.toNat), (0, b.toNat)]
  | .smul _ _ a b => [(0, a.toNat), (0, b.toNat)]
  | .scmp _ _ _ a b => [(0, a.toNat), (0, b.toNat)]
  | .saddi _ _ a _ => [(0, a.toNat)]
  | .sloop _ d _ => [(0, d.toNat)]
  | .srel _ a => [(0, a.toNat)]
  | .mpush _ _ a b => [(1, a.toNat), (2, b.toNat)]
  | .mzpush _ _ a b => [(1, a.toNat), (2, b.toNat)]
  | .mdrain _ a b => if plScale (k.mPay 2) = 2 then [(2, a.toNat), (2, b.toNat)] else []
  | .madd _ _ a _ => [(2, a.toNat)]
  | .xrq _ _ a b => [(3, a.toNat), (3, b.toNat)]
  | .xwr _ _ a b => [(3, a.toNat), (3, b.toNat)]
  | .xbrd _ _ b => [(3, b.toNat)]
  | .xbwr _ _ b => [(3, b.toNat)]
  | .xbld _ a b => [(3, a.toNat), (3, b.toNat)]
  | .xset _ _ a _ => [(3, a.toNat)]
  | i =>
    let f := vForm k.vPay i
    f.srcs.map (fun a => (1, a.toNat)) ++ (f.ext.toList ++ (f.rndReg k.vPay).toList).map (fun e => (1, e.toNat))

/-- XCPY's source, read through the copy port (R201). -/
def copyRead : Instr → List (Nat × Nat)
  | .xcpy _ _ a b _ => [((b.extractLsb' 0 2).toNat, a.toNat)]
  | _ => []

/-- The register that an S, V or M instruction writes, as file and number. -/
def slotWrite : Instr → Option (Nat × Nat)
  | .sadd _ d _ _ => some (0, d.toNat)
  | .ssub _ d _ _ => some (0, d.toNat)
  | .sand _ d _ _ => some (0, d.toNat)
  | .sor _ d _ _ => some (0, d.toNat)
  | .ssll _ d _ _ => some (0, d.toNat)
  | .ssrl _ d _ _ => some (0, d.toNat)
  | .smul _ d _ _ => some (0, d.toNat)
  | .saddi _ d _ _ => some (0, d.toNat)
  | .smovi _ d _ => some (0, d.toNat)
  | .sloop _ d _ => some (0, d.toNat)
  | .snext _ d => some (0, d.toNat)
  | .srsr _ d _ => some (0, d.toNat)
  | .mpush _ step _ b => if step = 0 then none else some (2, b.toNat)
  | .mzpush _ step _ b => if step = 0 then none else some (2, b.toNat)
  | .mset _ d _ => some (2, d.toNat)
  | .madd _ d _ _ => some (2, d.toNat)
  | i => match (vForm (fun _ => 0) i).dst with
    | some d => if d ≤ 27 then some (1, d.toNat) else none
    | none => none

/-- The register that XCPY writes. -/
def copyWrite : Instr → Option (Nat × Nat)
  | .xcpy _ d _ b _ => some ((b.extractLsb' 2 2).toNat, d.toNat)
  | _ => none

/-! Legality (R79, R82, R201, R202, R205, R219). -/

/-- The slot performs if nothing faults: its predicate reads true; a V instruction always does (R204). -/
def LoomCore.live (k : LoomCore) (b : Bundle) (i : Nat) : Option Instr :=
  match b.at i with
  | none => none
  | some o => if i = 1 ∨ k.on (slotPred o) then some o else none

/-- M payloads of R232. -/
def accM (push : Bool) (p : BitVec 12) : Bool :=
  [1, 2, 3, 4, 5].contains (plFmt p)
    && (if push then (plScale p == 0 || (plScale p == 1 && plFmt p == 4)) && (plSparse p == 0 || plFmt p != 1)
        else (plScale p == 0 || plScale p == 2) && plSparse p == 0)

/-- A slot instruction is illegal under the payload in force, by itself (R82, R230, R246, R248, R255, R219). -/
def LoomCore.illegal (k : LoomCore) (b : Bundle) (i : Nat) : Bool :=
  match b.at i with
  | none => false
  | some o =>
    let live := (k.live b i).isSome
    let f := vForm k.vPay o
    let vBad : Bool := match f.sens with
      | some (d, acc) =>
        !acc.ok (k.vPay d) || (match f.rnd with
          | some e => plRound (k.vPay d) != 4 && e != 0
          | none => false)
      | none => false
    vBad || (i == 2 && k.bf16 && (match o with
      | .mbub _ => false
      | _ => true)) || (match o with
      | .mpush _ _ _ _ => live && !accM true (k.mPay 2)
      | .mzpush _ _ _ _ => live && !accM true (k.mPay 2)
      | .mdrain _ a b => (live && !accM false (k.mPay 2)) || (plScale (k.mPay 2) != 2 && (a != 0 || b != 0))
      | .vnrw _ _ _ b _ => plScale (k.vPay 1) != 1 && b != 0
      | .vwid _ _ _ b _ => plScale (k.vPay 1) != 1 && b != 0
      | _ => false)

/-- The reads of the slots up to one need a port named twice, or more than two general ports of a file (R201, R202). -/
def LoomCore.portsOver (k : LoomCore) (b : Bundle) (i : Nat) : Bool :=
  let rs := (List.range (i + 1)).flatMap (fun j => match b.at j with
    | some o => k.reads o
    | none => [])
  let port (r : Nat × Nat) : Bool := r.1 == 1 && 28 ≤ r.2
  [28, 29, 30].any (fun n => 1 < rs.count (1, n))
    || (List.range 4).any (fun f => 2 < ((rs.filter (fun r => r.1 == f && !port r)).eraseDups).length)

/-- Two unpredicated writes of one bundle name one register (R205). -/
def twoWrites (b : Bundle) : Bool :=
  match b.at 3 with
  | none => false
  | some x =>
    (copyWrite x).isSome && !(slotPred x).pe && (List.range 3).any (fun j => match b.at j with
      | some o => slotWrite o == copyWrite x && !(slotPred o).pe
      | none => false)

/-- The lowest slot that makes the bundle illegal. -/
def LoomCore.illegalSlot (k : LoomCore) (b : Bundle) : Option Nat :=
  (List.range 4).find? (fun i => k.illegal b i || k.portsOver b i || (i == 3 && twoWrites b))

/-- The write that XCPY suppresses in a bundle (R205). -/
def LoomCore.suppressed (k : LoomCore) (b : Bundle) : Option (Nat × Nat) :=
  match k.live b 3 with
  | none => none
  | some x =>
    match copyWrite x with
    | none => none
    | some w =>
      if (List.range 3).any (fun j => match k.live b j with
        | some o => slotWrite o == some w && (j != 1 || k.mask (slotPred o) != 0)
        | none => false) then some w else none

/-- A slot that reads a register whose pending bit is set (R207). What a predicated-off S, M or X slot names is not read (DESIGN
CHOICE, log entry 66). -/
def LoomCore.pendingRead (k : LoomCore) (b : Bundle) : Option Nat :=
  if !k.dbgp then none
  else (List.range 4).find? (fun i => match k.live b i with
    | some o => (k.reads o ++ copyRead o).any (fun r => k.flight.any (fun f => f.pend && f.res.reg == some r))
    | none => false)

/-! Pops, pushes and waits of a bundle (R196, R213, R238). -/

/-- The X slot of a bundle takes a store-data entry at dispatch (R211, R250). -/
def LoomCore.takes (k : LoomCore) (b : Bundle) : Bool :=
  match k.live b 3 with
  | some (.xwr _ _ _ _) => true
  | some (.xbwr _ _ _) => true
  | _ => false

/-- The late fault that the V or M slot of a bundle will meet at its dispatch. -/
def State.lateOf (s : State) (l : ClusterId) (b : Bundle) (i : Nat) : Option (BitVec 8) :=
  let k := s.lk l
  let s := s.setLk l { k with time := k.time + 1, take := k.takes b }
  match k.live b i with
  | none => none
  | some o =>
    let srcs := ((k.reads o).filter (fun r => r.1 == 1)).map (fun r => BitVec.ofNat 5 r.2)
    let f := vForm k.vPay o
    s.slotFault l srcs f.fwd (if i = 1 then f.dst.getD 0 else 0) f.lat

/-- The ports that the V and M slots of a bundle pop. -/
def State.popsOf (s : State) (l : ClusterId) (b : Bundle) : List Nat :=
  let k := s.lk l
  [1, 2].flatMap (fun i => match k.live b i with
    | some o => if (s.lateOf l b i).isNone then ((k.reads o).filter (fun r => r.1 == 1 && 28 ≤ r.2)).map (·.2) else []
    | none => [])

/-- The V slot of a bundle pushes the east link. -/
def State.pushesOf (s : State) (l : ClusterId) (b : Bundle) : Bool :=
  let done : Bool := match (s.lk l).redo with
    | r :: _ => r.noEast
    | [] => false
  match b.at 1 with
  | some o => !done && (vForm (s.lk l).vPay o).fwd && (s.lateOf l b 1).isNone
  | none => false

/-- The bundle waits on a link: it pops an empty one, or pushes a full one (R213). -/
def State.linkWait (s : State) (l : ClusterId) (b : Bundle) : Bool :=
  ((s.popsOf l b).contains 30 && (match (s.lk l).west with
    | [] => true
    | e :: _ => s.cycle < e.1 + 2))
  || (s.pushesOf l b && (match s.loomBeside l true with
    | none => false
    | some m => 4 ≤ (s.lk m).west.length + (if (s.lk m).westPop = s.cycle then 1 else 0)))

/-- The oldest entry of the bolt queue may be popped: it was posted before this cycle (R238). -/
def State.queueReady (s : State) (l : ClusterId) : Bool :=
  match (s.lk l).boltQ with
  | [] => false
  | e :: _ => e.2 < s.cycle

/-! Exact faults of the S and X slots (R233). -/

/-- The count of a load-data queue at 16, this bundle's pops taken first (R210, R257). -/
def State.queueOver (s : State) (l : ClusterId) (b : Bundle) (q : Bool) : Bool :=
  let k := s.lk l
  let n := (if q then k.q1 else k.q0).length + (k.rows.filter (fun r => r.q == q)).length
  16 ≤ n - (s.popsOf l b).count (if q then 29 else 28)

/-- A handle may be read by XRQ or XBLD (R258). -/
def LoomCore.readable (k : LoomCore) (h : W64) : Bool :=
  match k.heldAs h with
  | some x => !x.out && !x.last
  | none => false
/-- A handle may be written by XWR (R260). -/
def LoomCore.writable (k : LoomCore) (h : W64) : Bool :=
  match k.heldAs h with
  | some x => x.out
  | none => false

/-- A B-store write would land in a beat already taken (R265). -/
def LoomCore.beatTaken (k : LoomCore) (at_ n : Nat) : Bool := k.bw.any (fun w => at_ ≤ w.at_ && w.at_ < at_ + n)

/-- The exact fault of a bundle's S slot, then of its X slot, with the slot's number. -/
def State.exactOf (s : State) (l : ClusterId) (b : Bundle) : Option (Nat × BitVec 8) :=
  let k := s.lk l
  let sBad : Option (BitVec 8) := match k.live b 0 with
    | some (.srel _ a) => if (k.holds (k.sReg a)).isNone then some lcBadHnd else none
    | some (.snext _ _) => if 16 ≤ (k.held.filter (fun x => !x.srel)).length then some lcHeldFull else none
    | _ => none
  let xBad : Option (BitVec 8) := match k.live b 3 with
    | some (.xrq _ f a _) =>
      if !k.readable (k.xReg a) then some lcBadHnd else if s.queueOver l b (f.getLsbD 0) then some lcQovf else none
    | some (.xbrd _ f _) => if s.queueOver l b (f.getLsbD 0) then some lcQovf else none
    | some (.xwr _ _ a _) => if !k.writable (k.xReg a) then some lcBadHnd else if k.sq.isEmpty then some lcSqEmpty else none
    | some (.xbwr _ _ _) => if k.sq.isEmpty then some lcSqEmpty else if k.beatTaken (k.time + 1) 1 then some lcBsBusy else none
    | some (.xbld _ a _) =>
      if !k.readable (k.xReg a) then some lcBadHnd
      else if k.beatTaken (k.time + 5) (s.rowsOf l ((k.xReg a).setWidth 32)) then some lcBsBusy else none
    | _ => none
  match sBad, xBad with
  | some c, _ => some (0, c)
  | none, some c => some (3, c)
  | none, none => none

/-! Traps of a Loom (R409, R411). -/

/-- The record of a Loom fault is shown to the cluster steward. -/
def State.loomTrap (s : State) (l : ClusterId) (seq addr : BitVec 16) (perf : BitVec 4) (slot : BitVec 2) (cause : BitVec 8) : State :=
  let x := s.loom l
  let s := s.setLoom l { x with
    st := .trapped
    k := { x.k with lfValid := true, lfSeq := seq, lfAddr := addr, lfPerf := perf, lfSlot := slot, lfCause := cause } }
  s.stewardEvent (8 * l)

/-- The Loom freezes after a late fault, LFREC showing the first replay entry (R411). -/
def State.doLateFaultFreeze (s : State) (l : ClusterId) : State :=
  let k := s.lk l
  match k.replay, k.freezeIn with
  | r :: _, some _ => (s.setLk l { k with freezeIn := none }).loomTrap l r.seq r.addr r.perf r.slot r.cause
  | _, _ => s

/-- An exact fault stops the Loom before its bundle performs; under a late fault the Loom freezes there instead (R411). -/
def State.exactFault (s : State) (l : ClusterId) (addr : BitVec 16) (slot : Nat) (cause : BitVec 8) : State :=
  let k := s.lk l
  if k.freezeIn.isSome then s.now (.lateFaultFreeze l)
  else s.loomTrap l (BitVec.ofNat 16 k.time) addr 0 (BitVec.ofNat 2 slot) cause

/-! Dispatch (R195 to R197, R410). -/

/-- The next bundle, its address, and whether it is a replay bundle (R243, R411). -/
def State.nextBundle (s : State) (l : ClusterId) : Except Nat Bundle × BitVec 16 × Bool :=
  let x := s.loom l
  match x.k.redo with
  | r :: _ =>
    let b : Except Nat Bundle := match x.decode r.addr with
      | .ok b => .ok (b.zipIdx.map (fun (o, i) => if r.perf.getLsbD i then none else o))
      | .error n => .error n
    (b, r.addr, true)
  | [] => if x.k.halting then (.ok [none, none, none, none], x.k.pc, false) else (x.decode x.k.pc, x.k.pc, false)

/-- The bundle is dispatched: its sequence number enters the ring, Loom time and the bundle address move on, its slots perform
in the order S, V, M, X, and what the end of its Loom time brings is set down. -/
def State.dispatch (s : State) (l : ClusterId) (b : Bundle) (addr : BitVec 16) (redo : Bool) : State :=
  let x := s.loom l
  let k := x.k
  let seq : BitVec 16 := BitVec.ofNat 16 k.time
  let entry : W64 := (0 : BitVec 31) ++ BitVec.ofBool redo ++ seq ++ addr
  let stay := redo || k.halting
  let k' : LoomCore := { k with
    time := k.time + 1
    addr := addr
    pc := if stay then k.pc else k.xfer.getD (k.pc + 16)
    xfer := if stay then k.xfer else none
    take := k.takes b
    supp := k.suppressed b
    bf16 := false
    noEast := redo && (match k.redo with
      | r :: _ => r.noEast
      | [] => false)
    freezeIn := k.freezeIn.map (· - 1)
    redo := if redo then k.redo.tail else k.redo }
  let s := s.setLoom l { x with
    st := .running
    ring := Tab.set x.ring (seq.toNat % 64) entry
    ck := if x.ck.rerun = 0 then x.ck else { x.ck with bundles := x.ck.bundles + 1 }
    k := k' }
  let s := if k.halting then s.eventAt s.cycle ordSeals (.boltPost l) else s
  let s := s.eventAt s.cycle 160002 (.arrayBeat l)
  let s := s.eventAt s.cycle 160002 (.drainColumnWrite l)
  let s := s.eventAt s.cycle 160002 (.bstoreWriteLands l)
  let s := s.eventAt s.cycle 160002 (.queueRowPlaced l)
  let s := s.eventAt s.cycle 160002 (.loomResultLands l)
  let es := (List.range 4).filterMap (fun i => (b.at i).map (fun o => ({ who := l, act := .run o } : Entry)))
  { s with todo := es ++ s.todo }

/-- A rerun has reached the SCKPT or SHALT that ends its segment (R420). -/
def LoomCore.segmentEnd (k : LoomCore) (b : Bundle) : Bool :=
  match k.live b 0 with
  | some (.sckpt _) => true
  | some (.shalt _) => true
  | _ => false

/-- One cycle of a Loom that runs or waits: its next bundle is checked, and is dispatched or waits (R196, R233). The legality of a
bundle that a replay dispatches again is not looked at again (DESIGN CHOICE, log entry 66). -/
def State.doBundleDispatch (s : State) (l : ClusterId) : State :=
  let x := s.loom l
  let k := x.k
  if x.st ≠ .running ∧ x.st ≠ .snext ∧ x.st ≠ .link then s
  else
    match s.nextBundle l with
    | (.error n, addr, _) => s.exactFault l addr n lcIllb
    | (.ok b, addr, redo) =>
      let ill := if redo then none else k.illegalSlot b
      match ill, k.pendingRead b with
      | some n, _ => s.exactFault l addr n lcIllb
      | none, some n => s.exactFault l addr n lcPend
      | none, none =>
        let next : Bool := match k.live b 0 with
          | some (.snext _ _) => true
          | _ => false
        if next ∧ s.exactOf l b = some (0, lcHeldFull) then s.exactFault l addr 0 lcHeldFull
        else if next ∧ !s.queueReady l then s.setLoom l { x with st := .snext }
        else if s.linkWait l b then s.setLoom l { x with st := .link }
        else
          match s.exactOf l b with
          | some (n, c) => s.exactFault l addr n c
          | none =>
            if x.ck.rerun ≠ 0 ∧ k.segmentEnd b then s.now (.rollbackOutcome l)
            else s.dispatch l b addr redo

/-! The end of a Loom time (R206, R209, R259). -/

/-- A row of a bolt as it is delivered: element e zero-extended in lane e, and zero where there is none (R209). -/
def State.boltRow (s : State) (l : ClusterId) (h : BitVec 32) (r : Nat) : Vec :=
  match s.handle (l / 256) h with
  | .cur cl _ b =>
    if r < b.rows ∧ b.valid.getLsbD r then
      let w := fmtWidth b.fmt.toNat
      let x := leNat (Memory.read s.mem (rowAt cl b r) ((b.elems * w + 7) / 8))
      (List.range 128).map (fun e => if e < b.elems then BitVec.ofNat 32 (x / 2 ^ (w * e) % 2 ^ w) else 0)
    else Vec.zero
  | _ => Vec.zero

/-- Rows whose time has come are placed in their queues (R209, R262). -/
def State.doQueueRowPlaced (s : State) (l : ClusterId) : State :=
  let k := s.lk l
  let n := k.now
  let due := (k.rows.filter (fun r => r.at_ ≤ n)).map (fun r =>
    { r with data := match r.bolt with
      | some h => s.boltRow l h r.row
      | none => s.bRow l r.row })
  s.setLk l { k with
    rows := k.rows.filter (fun r => n < r.at_)
    q0 := k.q0 ++ due.filter (fun r => !r.q)
    q1 := k.q1 ++ due.filter (fun r => r.q) }

/-- The lanes of a mask come from a new vector, the others stay (R204). -/
def mergeLanes (old new : Vec) (m : BitVec 128) : Vec :=
  (List.range 128).map (fun i => if m.getLsbD i then Vec.lane new i else Vec.lane old i)

/-- The east push of a slot is undone: the entry leaves the neighbour's link, where it still is (R411, R412). -/
def State.unpush (s : State) (l : ClusterId) (east : Option Nat) : Option State :=
  match east, s.loomBeside l true with
  | some c, some m =>
    if (s.lk m).west.any (fun e => e.1 == c) then some (s.setLk m { s.lk m with west := (s.lk m).west.filter (fun e => e.1 != c) })
    else none
  | _, _ => some s

/-- One result lands (R206); a push that finds 16 entries is undone, and with it what its slot popped and pushed (R211, R411). -/
def State.land (s : State) (l : ClusterId) (f : Flight) : State :=
  let k := s.lk l
  match f.res with
  | .s d v => s.setLk l { k with s := k.s.set d v }
  | .v d v m => s.setLk l { k with v := Tab.set k.v d (mergeLanes (k.vReg d) v m) }
  | .m d v => s.setLk l { k with m := k.m.set d v }
  | .x d v => s.setLk l { k with x := k.x.set d v }
  | .sp n b => s.setLk l { k with sp := k.sp.set n b }
  | .vm n bits m => s.setLk l { k with vm := k.vm.set n ((k.vm.getD n 0 &&& ~~~m) ||| (bits &&& m)) }
  | .sq v =>
    if 16 ≤ k.sq.length then
      let addr : BitVec 16 := (Tab.get 0 (s.loom l).ring (f.disp % 64)).setWidth 16
      let back := s.unpush l f.east
      let s := back.getD s
      let k := (s.lk l).lateFault f.disp addr 1 lcSqFull back.isNone
      s.setLk l { k with
        west := f.west.toList ++ k.west
        q0 := f.undo.filter (fun r => !r.q) ++ k.q0
        q1 := f.undo.filter (fun r => r.q) ++ k.q1
        vpp := k.vpp || f.pay.isSome
        vpfmt := if k.vpp then k.vpfmt else f.pay.getD k.vpfmt }
    else (s.setLk l { k with sq := k.sq ++ [v] }).countLanes l f.cnt

/-- A rollback point of the weave as it stands (R241, R420). -/
def State.recordPoint (s : State) (l : ClusterId) : State :=
  let x := s.loom l
  let masks := (x.k.held.map (·.h) ++ x.k.boltQ.map (·.1)).filterMap (fun h => match s.handle (l / 256) h with
    | .cur _ _ b => if b.out then some (h, b.valid) else none
    | _ => none)
  s.setLoom l { x with ck := { x.ck with armed := true, point := some x.k, masks := masks, pops := [], releases := [], posts := [] } }

/-- Deferred posts and timer seals of held output bolts take effect (R241, R260, R419). -/
def State.commitSeals (s : State) (l : ClusterId) : State :=
  let ck := (s.loom l).ck
  let late := ((s.lk l).held.filter (fun y => y.out)).map (·.h)
  let s := s.setLoom l { s.loom l with ck := { ck with posts := [] } }
  let s := ck.posts.foldl (fun s h => match s.handle (l / 256) h with
    | .cur cl e b => if b.st = .open_ then s.sealNow cl e 3 else s
    | _ => s) s
  late.foldl (fun s h => match s.handle (l / 256) h with
    | .cur cl e b => if b.later = 1 ∧ b.st = .open_ then s.sealNow cl e 1 else s
    | _ => s) s

/-- Deferred releases and posts take effect, and deferred timer seals (R241, R419). -/
def State.commit (s : State) (l : ClusterId) : State :=
  let s := s.commitSeals l
  let ck := (s.loom l).ck
  ck.releases.foldl (fun s h => match s.handle (l / 256) h with
    | .cur cl e _ => s.freeBolt cl e (s.cycle + 1)
    | _ => s) (s.setLoom l { s.loom l with ck := { ck with releases := [], pops := [] } })

/-- Checkpoint work asked for a bundle boundary is done (R241, R419). -/
def State.ckptBoundary (s : State) (l : ClusterId) : State :=
  let x := s.loom l
  if x.ck.rerun ≠ 0 ∨ x.ck.ask = 0 then s else
  let s := s.setLoom l { x with ck := { x.ck with ask := 0 } }
  match x.ck.ask.toNat with
  | 1 => s.recordPoint l
  | 2 =>
    let s := s.commit l
    s.setLoom l { s.loom l with ck := { (s.loom l).ck with armed := false, point := none } }
  | 3 => (s.commit l).recordPoint l
  | _ => s

/-- Bolts whose last operand has been read are released, as are those that SREL gave up once their rows are placed (R240,
R259, R264). -/
def State.endReleases (s : State) (l : ClusterId) : State :=
  let k := s.lk l
  let busy (h : BitVec 32) : Bool := k.rows.any (fun r => r.bolt == some h) || k.bw.any (fun w => match w.bolt with
    | some (g, _, _) => g == h
    | none => false)
  (k.held.filter (fun x => x.rel || (x.srel && !busy x.h))).foldl (fun s x => s.releaseBolt l x.h) s

/-- Everything in flight has landed and passed (R243). -/
def LoomCore.quiet (k : LoomCore) : Bool :=
  k.flight.isEmpty && k.rows.isEmpty && k.waves.isEmpty && k.drain.isEmpty && k.bw.isEmpty && k.redo.isEmpty && k.freezeIn.isNone

/-- Nothing will be in flight once this Loom time has ended, and no push onto sq can fault by then. -/
def LoomCore.quietSoon (k : LoomCore) : Bool :=
  let n := k.now
  k.flight.all (fun f => f.at_ ≤ n) && k.sq.length + k.flight.length ≤ 16 && k.rows.all (fun r => r.at_ ≤ n)
    && k.waves.all (fun w => w.passed n) && k.drain.all (fun c => c.at_ ≤ n) && k.bw.all (fun w => w.at_ ≤ n)
    && k.redo.isEmpty && k.freezeIn.isNone

/-- The seals that a weave makes at the end of this Loom time, by its halt or by a commit, stand before the requests of grains
and the timers of the cycle (R243, R283, R419). -/
def State.weaveSeals (s : State) (l : ClusterId) : State :=
  let x := s.loom l
  if x.k.halting ∧ x.k.quietSoon then
    let s := s.commitSeals l
    let s := s.setLoom l { s.loom l with ck := { (s.loom l).ck with armed := false } }
    let s := (x.k.held.filter (·.out)).foldl (fun s y => s.sealOutput l y.h) s
    s.setLoom l { s.loom l with ck := { (s.loom l).ck with armed := x.ck.armed } }
  else if x.ck.rerun = 0 ∧ (x.ck.ask = 2 ∨ x.ck.ask = 3) then s.commitSeals l
  else s

/-- The end of a Loom time: results land in the order of their dispatch, releases and checkpoint work are done, and the Loom
freezes or stops when its time has come. -/
def State.doLoomResultLands (s : State) (l : ClusterId) : State :=
  let k := s.lk l
  let n := k.now
  let due := k.flight.filter (fun f => f.at_ ≤ n)
  let s := s.setLk l { k with flight := k.flight.filter (fun f => n < f.at_) }
  let s := due.foldl (fun s f => s.land l f) s
  let s := s.endReleases l
  let s := s.ckptBoundary l
  let k := s.lk l
  if k.freezeIn = some 0 then s.now (.lateFaultFreeze l)
  else if k.halting ∧ k.quiet then s.now (.shaltStop l)
  else s

/-- The weave has ended: the Loom stops, its queued rows are discarded, and the bolts still held are released, or sealed when
they are open output bolts; armed checkpointing commits first (R243, R419). -/
def State.doShaltStop (s : State) (l : ClusterId) : State :=
  if !(s.lk l).halting ∨ !(s.lk l).quiet then s
  else
    let armed := (s.loom l).ck.armed
    let s := if armed then s.commit l else s
    let x := s.loom l
    let s := s.setLoom l { x with ck := { x.ck with armed := false, point := none } }
    let s := x.k.held.foldl (fun s y => if y.out then s.sealOutput l y.h else s.releaseBolt l y.h) s
    let x := s.loom l
    let s := s.setLoom l { x with
      st := .stopped
      ck := { x.ck with armed := armed }
      k := { x.k with halting := false, q0 := [], q1 := [], held := [] } }
    let s := (s.setLoom l { s.loom l with gang := none }).landEngine l
    let s := s.retryAdmission (l / 256)
    match x.gang with
    | some g => s.soon (.gangRetire g)
    | none => s

/-! Starting and ending a weave (R200, R418). -/

/-- A weave starts at an entry address for a job slot: everything of the Loom at its starting value but the bolt queue and the
event counters; armed checkpointing takes its point here (R200, R419). The entry is the low 16 bits of WENTRY as they are (DESIGN
CHOICE, log entry 66). -/
def State.startWeave (s : State) (l : ClusterId) (entry : BitVec 16) (slot : BitVec 4) : State :=
  let x := s.loom l
  let s := s.setLoom l { x with
    st := .running
    slot := slot
    k := { ({} : LoomCore) with pc := entry, boltQ := x.k.boltQ, levc := x.k.levc } }
  if x.ck.armed then s.recordPoint l else s

/-- A member weave ends as LEND ends it: it goes on from where it stands as SHALT leaves it, with no replay (R408, R418). -/
def State.endWeave (s : State) (l : ClusterId) : State :=
  let x := s.loom l
  if x.st = .stopped then s
  else s.setLoom l { x with
    st := .running
    ck := { x.ck with rerun := 0, first := none }
    k := { x.k with halting := true, replay := [], redo := [], freezeIn := none
                    lfValid := x.k.lfValid && x.k.lfCause == lcRetired } }

def execBundleDispatch (s : State) : Host.Outcome State Fault Refusal :=
  .next (match s.ev with
    | .bundleDispatch l => s.doBundleDispatch l
    | _ => s)
def execLoomResultLands (s : State) : Host.Outcome State Fault Refusal :=
  .next (match s.ev with
    | .loomResultLands l => s.doLoomResultLands l
    | _ => s)
def execQueueRowPlaced (s : State) : Host.Outcome State Fault Refusal :=
  .next (match s.ev with
    | .queueRowPlaced l => s.doQueueRowPlaced l
    | _ => s)
def execBstoreWriteLands (s : State) : Host.Outcome State Fault Refusal :=
  .next (match s.ev with
    | .bstoreWriteLands l => s.doBstoreWriteLands l (s.boltRow l)
    | _ => s)
def execLateFaultFreeze (s : State) : Host.Outcome State Fault Refusal :=
  .next (match s.ev with
    | .lateFaultFreeze l => s.doLateFaultFreeze l
    | _ => s)
def execShaltStop (s : State) : Host.Outcome State Fault Refusal :=
  .next (match s.ev with
    | .shaltStop l => s.doShaltStop l
    | _ => s)

def execBoltPost (s : State) : Host.Outcome State Fault Refusal :=
  .next (match s.ev with
    | .boltPost l => (s.weaveSeals l).doBoltPost l
    | _ => s)

end Sys2Proof.Machine
end

