-- ==== Sys2Proof/Machine/Engines.lean ====
section
/-!
DEFINITION. Job cards and the job scheduler, the copy and gather engine, short copies into scratchpad, and the instructions
EJOB, EWAIT and ECPY (R355 to R367).
-/

namespace Sys2Proof.Machine

/-! Job cards (R356, R363, R370). -/

/-- Dword n of a job's card. -/
def Job.d (j : Job) (n : Nat) : W64 := j.card.getD n 0
/-- KIND. -/
def cardKind (card : List W64) : Nat := bitsAt (card.getD 0 0) 0 4
/-- NFP. -/
def cardNfp (card : List W64) : Nat := bitsAt (card.getD 0 0) 4 3
/-- Footprints: base, length, read, write. -/
def cardFps (card : List W64) : List (Nat × Nat × Bool × Bool) :=
  (List.range (cardNfp card)).map (fun f =>
    let w := card.getD (9 + 2 * f) 0
    ((card.getD (8 + 2 * f) 0).toNat, bitsAt w 0 34, w.getLsbD 62, w.getLsbD 63))
/-- One footprint is well formed. -/
def fpOk (card : List W64) (f : Nat) : Bool :=
  let base := card.getD (8 + 2 * f) 0
  let w := card.getD (9 + 2 * f) 0
  if f < cardNfp card then
    bitsAt w 0 34 != 0 && bitsAt w 34 28 == 0 && (w.getLsbD 62 || w.getLsbD 63) && base.toNat + bitsAt w 0 34 ≤ 2 ^ 64
  else base == 0 && w == 0
/-- OPT agrees with the kind. -/
def optOk (card : List W64) : Bool :=
  let opt := bitsAt (card.getD 0 0) 7 5
  match cardKind card with
  | 1 => opt / 2 == 0
  | 2 => opt / 2 == 0
  | 3 => opt / 2 != 0 && opt / 2 < 14
  | _ => opt == 0
/-- The sequencer's shape word, control word of BOPEN, first B-store row and rows of a B tile (R368). -/
def walkShape (c : W64) : W64 := BitVec.ofNat 64 (bitsAt c 0 20)
/-- The BOPEN control word of a block with its declared work. -/
def walkCtl (c : W64) (work : Nat) : W64 := fields [(24, work), (16, bitsAt c 20 4), (0, bitsAt c 24 16)]
/-- Dwords 2 to 7 are in their ranges and their zero fields are zero (R356, R370). A COPY's ranges may not pass the top of the
address space. -/
def State.operandsOk (s : State) (cl : ClusterId) (card : List W64) : Bool :=
  let d (n : Nat) : W64 := card.getD n 0
  match cardKind card with
  | 0 =>
    let n := (d 4).toNat
    let a := (d 2).toNat
    let b := (d 3).toNat
    n != 0 && n < 2 ^ 34 && d 5 == 0 && d 6 == 0 && d 7 == 0 && a + n ≤ 2 ^ 64 && b + n ≤ 2 ^ 64 && !overlaps a n b n
  | 1 => bitsAt (d 5) 0 24 != 0 && bitsAt (d 5) 24 8 == 0 && d 6 != 0 && (d 6).toNat ≤ 4096 && d 7 == 0
  | 2 => bitsAt (d 5) 0 24 != 0 && bitsAt (d 5) 24 8 == 0 && d 6 != 0 && (d 6).toNat ≤ 4096 && d 7 == 0
  | 3 => d 4 != 0 && (d 4).toNat ≤ 2 ^ 30 && d 5 != 0 && (d 5).toNat ≤ 16 && d 6 == 0 && d 7 == 0
  | _ =>
    d 3 != 0 && (d 3).toNat < 2 ^ 16 && (d 5).toNat < 2 ^ 32 && bitsAt (d 7) 62 2 == 0
      && s.openCode cl (walkShape (d 7)) (walkCtl (d 7) 0) true == 0
/-- The card is accepted (R363). -/
def State.cardOk (s : State) (cl : ClusterId) (card : List W64) : Bool :=
  cardKind card ≤ 4 && 1 ≤ cardNfp card && cardNfp card ≤ 4 && optOk card && bitsAt (card.getD 0 0) 12 52 == 0
    && aligned (card.getD 1 0) 16 && (List.range 4).all (fpOk card) && s.operandsOk cl card

/-! The scheduler (R360, R361). -/

/-- An entry of the scheduler. -/
def State.job (s : State) (e : Nat) : Job := Tab.get {} s.dev.jobs e
/-- Replace an entry. -/
def State.setJob (s : State) (e : Nat) (j : Job) : State := { s with dev := { s.dev with jobs := Tab.set s.dev.jobs e j } }
/-- The identifier of an entry's job (R360). -/
def jobId (e : Nat) (j : Job) : W64 := BitVec.ofNat 64 (j.gen.toNat * 65536 + e)
/-- The jobs held, in order of acceptance. -/
def State.jobsHeld (s : State) : List (Nat × Job) :=
  (s.dev.jobs.filter (fun e => e.2.used)).foldl (fun l x =>
    l.takeWhile (fun y => y.2.no ≤ x.2.no) ++ x :: l.dropWhile (fun y => y.2.no ≤ x.2.no)) []
/-- Two jobs conflict (R361). -/
def conflict (a b : List W64) : Bool :=
  (cardFps a).any (fun (x, n, _, w) => (cardFps b).any (fun (y, m, _, v) => (w || v) && overlaps x n y m))
/-- No earlier job of the slot that is still held conflicts with the job. -/
def State.jobReady (s : State) (j : Job) : Bool :=
  !s.dev.jobs.any (fun e => e.2.used && e.2.no < j.no && e.2.slot == j.slot && conflict e.2.card j.card)

/-- The copy engine's next request is due in the next cycle. -/
def State.kickEngine (s : State) (cl : ClusterId) : State :=
  if s.agenda.any (fun e => e.act == .ev (.engineRequest cl)) then s else s.later 1 ordEngine (.engineRequest cl)

/-- Ready jobs go to the engines of their clusters, in order of acceptance (R361, R372). -/
def State.dispatchJobs (s : State) : State :=
  s.jobsHeld.foldl (fun s (e, j) =>
    let x := s.cluster j.cl
    if j.started ∨ j.halted ∨ !s.jobReady j then s
    else if cardKind j.card = 4 then
      if x.walk.isSome then s
      else ((s.setJob e { j with started := true }).setCluster j.cl { x with walk := some { job := e } }).later 1 ordEngine (.walkBlock j.cl)
    else if 4 ≤ x.copyRun.length then s
    else ((s.setJob e { j with started := true }).setCluster j.cl { x with copyRun := x.copyRun ++ [e] }).kickEngine j.cl) s

/-- Half of the round trip between a die and the scheduler (R363, R364). -/
def schedWay (die : Nat) : Nat := if die = 0 then 40 else 70

/-- A card reaches the scheduler: BADCARD, FULL, or the job takes the lowest free entry and its context keeps its footprints
(R360, R362, R363). -/
def State.doJobAccept (s : State) (c : CtxId) (card : List W64) (d : BitVec 4) : State :=
  let cl := clusterOf c
  let slot := s.slotOf c
  let back (s : State) (v : W64) : State := s.unitReply c (schedWay (dieOf c)) { rd := d, wr := true, val := v }
  let held := s.dev.jobs.filter (fun e => e.2.used)
  if (s.ctx c).token = 0 then s
  else if !s.cardOk cl card then back s (failCode 3)
  else if 2048 ≤ held.length ∨ 512 ≤ (held.filter (fun e => e.2.slot == slot)).length then back s (failCode 1)
  else
    match (List.range (s.dev.jobs.length + 1)).find? (fun e => !(s.job e).used) with
    | none => back s (failCode 1)
    | some e =>
      let old := s.job e
      let j : Job := { gen := old.gen, oldGen := old.oldGen, oldCode := old.oldCode, oldAt := old.oldAt
                       used := true, who := c, core := coreOf c, slot := slot, priv := s.privOf c, cl := cl, no := s.dev.jobNext, card := card }
      let s := s.setJob e j
      let s := { s with dev := { s.dev with jobNext := s.dev.jobNext + 1 } }
      let s := (s.bothOf c).foldl (fun s c =>
        s.setCtx c { s.ctx c with jobs := (s.ctx c).jobs ++ [{ id := (jobId e j).toNat, fps := cardFps card }] }) s
      back s.dispatchJobs (jobId e j)

/-! The instructions EJOB and EWAIT (R363, R364). -/

/-- EJOB: a release, then LIMIT, the card's translation and its reading, and the request to the scheduler. -/
def State.ejob (s : State) (i : Instr) (d a : BitVec 4) : State :=
  let c := s.cur
  let ga := s.rd a
  let half := schedWay (dieOf c)
  if s.stage = 0 then
    s.plain i (fun s =>
      if !aligned ga 128 then s.trapMe causeMisaccess 0 ga
      else s.drained i (fun s =>
        if 8 ≤ s.me.jobs.length then
          let id := s.token
          (s.tick1.wait c (.reply id)).later (2 * half) ordReply
            (.replyArrival c { id := id, rd := d, wr := true, val := failCode 2, did := true })
        else s.translate ga .r (fun s pa _ =>
          let send (s : State) : State :=
            (s.setMe { s.me with load := some { pieces := [{ pa := pa, len := 128 }] } }).sendUnit i 0 (ordEngine + coreOf c) [ga.toNat]
          if (s.region pa).outside then
            s.loadBytes i [{ pa := pa, len := 128 }] (fun s bs => send (s.setMe { s.me with srcBytes := bs }))
          else send s)))
  else
    match s.me.why, s.me.load with
    | .reply _, some q =>
      let p := q.pieces.headD {}
      let go (s : State) (bs : List Byte) : State :=
        (s.setMe { s.me with load := none, srcBytes := [] }).later half (ordEngine + coreOf c) (.jobAccept c (dwordsOf bs 16) d)
      if s.me.srcBytes.length = 128 then go s s.me.srcBytes
      else if !s.cohReady p.pa 128 then (s.nudge p.pa 128).schedule (s.cycle + 1) (ordEngine + coreOf c) c 1 i
      else
        let bs := s.cohRead p.pa 128
        go (if s.lentAway p.pa then s.violate p.pa else (s.raiseCt (coreOf c) (s.latestWts p.pa)).markRead p.pa 128) bs
    | _, _ => s

/-- EWAIT at the scheduler (R364). -/
def State.ewaitAt (s : State) (d a : BitVec 4) (poll : Bool) : State :=
  let c := s.cur
  let half := schedWay (dieOf c)
  let id := (s.rd a).toNat % 2 ^ 32
  let e := id % 65536
  let gen : BitVec 16 := BitVec.ofNat 16 (id / 65536)
  let j := s.job e
  let answer (v : W64) (acq : Bool) : State := s.unitReply c half { rd := d, wr := true, val := v, bank := acq }
  if e < 2048 ∧ j.used ∧ j.gen = gen then
    if j.slot ≠ s.slotOf c then answer 0xFD false
    else if poll then answer 0xFF false
    else
      let s := { s with dev := { s.dev with ewaits := s.dev.ewaits ++ [(e, c, d, s.me.token)] } }
      (s.park c .dispatchWait (.unit s.me.token)).watch c
  else if e < 2048 ∧ j.oldAt ≠ 0 ∧ j.oldGen = gen ∧ j.slot = s.slotOf c ∧ s.cycle ≤ j.oldAt + half then answer j.oldCode true
  else answer 0xFE true

/-- EWAIT: its request goes to the scheduler. -/
def State.ewait (s : State) (i : Instr) (d a : BitVec 4) (poll : Bool) : State :=
  s.plain i (fun s => s.atUnit i (schedWay (dieOf s.cur)) (ordEngine + coreOf s.cur) [(s.rd a).toNat % 2 ^ 32]
    (fun s => s.ewaitAt d a poll))

def execEjob (d a : BitVec 4) (s : State) : Host.Outcome State Fault Refusal := .next (s.ejob (.ejob d a) d a)
def execEwaitWait (d a : BitVec 4) (s : State) : Host.Outcome State Fault Refusal := .next (s.ewait (.ewaitWait d a) d a false)
def execEwaitPoll (d a : BitVec 4) (s : State) : Host.Outcome State Fault Refusal := .next (s.ewait (.ewaitPoll d a) d a true)

/-! Retirement (R359, R361, R362, R364). -/

/-- Contexts of a cluster that were held by its engines issue again (R122). -/
def State.wakeHeld (s : State) (cl : ClusterId) : State :=
  ((List.range 128).map (cl * 128 + ·)).foldl (fun s c => if (s.ctx c).why = .held then s.wake c else s) s

/-- Where the status record of a job goes: nowhere without an address, or when it cannot be written (R359). -/
def State.statusAt (s : State) (j : Job) : Option Nat :=
  if j.d 1 = 0 then none
  else match s.translateNow j.slot false (j.d 1) .w with
    | .error _ => none
    | .ok (pa, _) => if (s.refusedByte pa 16).isSome then none else some pa

/-- The status record of a job: whether it was written, or none was asked for. Its first dword becomes full in the same step. -/
def State.statusRecord (s : State) (e : Nat) (j : Job) (code : BitVec 8) : State × Bool :=
  match s.statusAt j with
  | none => (s, j.d 1 == 0)
  | some pa =>
    let d0 : W64 := fields [(32, (jobId e j).toNat), (0, code.toNat)]
    let d1 : W64 := match cardKind j.card with
      | 0 => BitVec.ofNat 64 j.cnt
      | 3 => BitVec.ofNat 64 j.cnt
      | _ => fields [(32, j.beyond), (0, j.cnt)]
    let s := (s.setDirty j.slot (j.d 1)).unitStore false pa (leBytes 8 d0.toNat ++ leBytes 8 d1.toNat)
    (if (s.region pa).outside then s else s.cohSetFull pa true, true)

/-- A job leaves its engine. -/
def State.leaveEngine (s : State) (e : Nat) : State :=
  let cl := (s.job e).cl
  let x := s.cluster cl
  s.setCluster cl { x with
    copyRun := x.copyRun.filter (· != e)
    walk := match x.walk with
      | some w => if w.job = e then none else some w
      | none => none }

/-- A job retires: its record, its entry, its context's hold, the EWAITs on it and the jobs that waited for it. Copies that its
writes have overtaken leave its submitter's L1, whose later accesses follow every access of the job (R327; log entry 16). -/
def State.doJobRetire (s : State) (e : Nat) (code : BitVec 8) : State :=
  let j := s.job e
  if !j.used then s
  else if j.d 1 ≠ 0 ∧ !s.dirtyReady j.slot (j.d 1) then (s.nudgeLeaf j.slot (j.d 1)).later 1 ordEngine (.jobRetire e code)
  else if !((s.statusAt j).map (fun pa => s.unitCan pa 16)).getD true then
    (s.nudge ((s.statusAt j).getD 0) 16).later 1 ordEngine (.jobRetire e code)
  else
    let (s, ok) := s.statusRecord e j code
    let v : W64 := code.setWidth 64 + (if ok then 0 else 0x100)
    let s := if ok then s
      else s.later (schedWay (j.core / 2048)) ordReply (.wakeArrival j.core ((jobId e j <<< 32) + 0x7E410003))
    let s := s.leaveEngine e
    let s := s.setJob e { gen := j.gen + 1, slot := j.slot, oldGen := j.gen, oldCode := v, oldAt := s.cycle }
    let s := (s.bothOf j.who).foldl (fun s c =>
      let x := s.ctx c
      let s := (s.setCtx c { x with jobs := x.jobs.filter (fun o => o.id != (jobId e j).toNat) }).dropStale (coreOf c)
      if x.why = .held then s.wake c else s) s
    let l := s.dev.ewaits.filter (fun w => w.1 == e)
    let s := { s with dev := { s.dev with ewaits := s.dev.ewaits.filter (fun w => w.1 != e) } }
    let s := l.foldl (fun s (_, c, d, id) =>
      s.later (schedWay (dieOf c)) ordReply (.replyArrival c { id := id, rd := d, wr := true, val := v, bank := true, did := true })) s
    s.dispatchJobs

/-- A job comes to its end with a code, and retires once its last write is acknowledged. -/
def State.endJob (s : State) (e : Nat) (code : BitVec 8) : State :=
  let j := s.job e
  (s.setJob e { j with ended := some code }).later j.rt ordEngine (.jobRetire e code)

/-! Reads and writes of a job (R358, R365, R366). -/

/-- Full-empty bit of each byte's word, in pieces read. -/
def State.bitsOf (s : State) (ps : List Piece) : List Bool :=
  ps.flatMap (fun p => if (s.region p.pa).outside then List.replicate p.len true
    else (List.range p.len).map (fun i => s.cohFull ((p.pa + i) / 8 * 8)))

/-- Bytes as they stood before the job, where it has overwritten them. -/
def overlay (olds : Tab (Byte × Bool)) (va : Nat) : List (Byte × Bool) → List (Byte × Bool)
  | [] => []
  | x :: t => (Tab.find olds (va % 2 ^ 64)).getD x :: overlay olds (va + 1) t

/-- What a job's access came to. -/
inductive JobStep where
  | fail (s : State) (code : BitVec 8)
  | wait (s : State)
  | done (s : State) (bytes : List (Byte × Bool))

/-- A read of at most 4 KiB by a job, a request for each line that an external window takes. -/
def State.jobRead (s : State) (e : Nat) (va : W64) (n : Nat) : JobStep :=
  let j := s.job e
  match s.unitPieces j.slot j.priv .r va n with
  | .error _ => .fail s 2
  | .ok ps =>
    let (s, got) := s.unitRead ps j.ext j.buf
    if got.done then
      .done (s.setJob e { s.job e with ext := 0, buf := [] }) (overlay j.olds va.toNat (got.buf.zip (s.bitsOf ps)))
    else .wait (s.setJob e { s.job e with ext := got.ext, buf := got.buf })

/-- Every byte of a write lies in a footprint marked WR. -/
def inFootprints (card : List W64) (va n : Nat) : Bool :=
  (List.range n).all (fun i => (cardFps card).any (fun (b, m, _, w) => w && b ≤ va + i && va + i < b + m))

/-- The full-empty bits of words written whole, each from the source word of its first byte (R365). -/
def State.carryBits (s : State) (p : Piece) (bs : List (Byte × Bool)) : State :=
  if (s.region p.pa).outside then s
  else
    ((wordsOf p.pa p.len).filter (fun w => p.pa ≤ 8 * w && 8 * w + 8 ≤ p.pa + p.len)).foldl (fun s w =>
      let full := (bs.getD (8 * w - p.pa) (0, true)).2
      if s.cohFull (8 * w) = full then s else s.cohSetFull (8 * w) full) s

/-- Cycles until the last write of an engine is acknowledged (R297). -/
def State.writeTime (s : State) (cl : ClusterId) (pa : Nat) : Nat :=
  match s.region pa with
  | .hbm => 2 * s.toSlice cl (homeOf (lineOf pa))
  | .scratch k _ => 2 * s.toBank cl k
  | .bstore k _ => 2 * s.toBank cl k
  | _ => 1

/-- The bytes that a write would change are read first, by a job whose writes meet what it reads (R366): none when they are all
kept already. -/
def State.keepOld (s : State) (e : Nat) (va : W64) (ps : List Piece) : Option State :=
  let j := s.job e
  let n := (ps.map (·.len)).sum
  let key (i : Nat) : Nat := (va.toNat + i) % 2 ^ 64
  if !j.self ∨ (List.range n).all (fun i => (Tab.find j.olds (key i)).isSome) then none
  else
    let (s, got) := s.unitRead ps j.ext j.buf
    if got.done then
      let olds := (got.buf.zip (s.bitsOf ps)).zipIdx.foldl (fun (t : Tab (Byte × Bool)) (x, i) =>
        if (Tab.find t (key i)).isSome then t else Tab.set t (key i) x) j.olds
      some (s.setJob e { s.job e with ext := 0, buf := [], olds := olds })
    else some (s.setJob e { s.job e with ext := got.ext, buf := got.buf })

/-- One write of a job, of bytes within one line; `carry` takes the full-empty bits along. -/
def State.jobWrite (s : State) (e : Nat) (va : W64) (bs : List (Byte × Bool)) (carry : Bool) : JobStep :=
  let j := s.job e
  let n := bs.length
  if !inFootprints j.card va.toNat n then .fail s 3
  else match s.unitPieces j.slot j.priv .w va n with
    | .error _ => .fail s 2
    | .ok ps =>
      if s.refusedPieces ps then .fail s 1
      else
        let p := ps.headD {}
        let ok (s : State) : JobStep := .done (s.setJob e { s.job e with rt := s.writeTime j.cl p.pa }) []
        match s.keepOld e va ps with
        | some s => .wait s
        | none =>
          if !s.unitReady j.slot va ps then .wait (s.nudgeRun j.slot va ps)
          else match s.region p.pa with
            | .bstore l _ =>
              match s.offerBstore l [(p.pa, bs.map (·.1))] with
              | some s => ok (s.dirtyRun j.slot va n)
              | none => .wait s
            | _ =>
              let s := s.unitPut j.slot va ps (bs.map (·.1))
              ok (if carry && 8 ≤ n then s.carryBits p bs else s)

/-- Update the entry of a job. -/
def State.upJob (s : State) (e : Nat) (f : Job → Job) : State := s.setJob e (f (s.job e))

/-- Bytes of the next write: to the end of the destination's line, or of what is left. -/
def chunk (dst : W64) (left : Nat) : Nat := min left (128 - dst.toNat % 128)

/-- An access of a job: it fails, waits, or goes on. -/
def JobStep.andThen (r : JobStep) (e : Nat) (f : State → List (Byte × Bool) → State) : State :=
  match r with
  | .fail s code => s.endJob e code
  | .wait s => s
  | .done s bs => f s bs

/-- One request of a COPY (R365). -/
def State.stepCopy (s : State) (e : Nat) : State :=
  let j := s.job e
  let n := (j.d 4).toNat
  let dst := j.d 3 + BitVec.ofNat 64 j.i
  let m := chunk dst (n - j.i)
  if j.ph = 0 then
    (s.jobRead e (j.d 2 + BitVec.ofNat 64 j.i) m).andThen e (fun s bs => s.upJob e (fun j => { j with data := bs, ph := 1 }))
  else
    (s.jobWrite e dst j.data true).andThen e (fun s _ =>
      let s := s.upJob e (fun j => { j with i := j.i + m, cnt := j.cnt + m, ph := 0 })
      if j.i + m = n then s.endJob e 0 else s)

/-- Number of elements, element bytes, index bytes and bound of a GATHER or SCATTER. -/
def Job.elems (j : Job) : Nat := bitsAt (j.d 5) 0 24
/-- Element bytes. -/
def Job.esz (j : Job) : Nat := (j.d 6).toNat
/-- Index bytes. -/
def Job.isz (j : Job) : Nat := if (j.d 0).getLsbD 7 then 8 else 4
/-- BOUND. -/
def Job.bound (j : Job) : Nat := bitsAt (j.d 5) 32 32

/-- An element of a GATHER or SCATTER is done. -/
def State.nextElem (s : State) (e : Nat) (beyond : Bool) : State :=
  let j := s.job e
  let s := s.setJob e { j with i := j.i + 1, cnt := j.cnt + 1, beyond := j.beyond + beyond.toNat, ph := 0, b := 0 }
  if j.i + 1 = j.elems then s.endJob e 0 else s

/-- One request of a GATHER or SCATTER: the index, a read of the element, or a write of it (R365). -/
def State.stepIndexed (s : State) (e : Nat) (gather : Bool) : State :=
  let j := s.job e
  let near := BitVec.ofNat 64 (j.i * j.esz)
  let far := BitVec.ofNat 64 (j.x * j.esz)
  let inside := decide (j.x < j.bound)
  let off := BitVec.ofNat 64 j.b
  let src := j.d 2 + (if gather then far else near) + off
  let dst := j.d 3 + (if gather then near else far) + off
  let m := chunk dst (j.esz - j.b)
  match j.ph with
  | 0 =>
    (s.jobRead e (j.d 4 + BitVec.ofNat 64 (j.i * j.isz)) j.isz).andThen e (fun s bs =>
      let x := leNat (bs.map (·.1))
      let s := s.upJob e (fun j => { j with x := x, b := 0, ph := if x < j.bound then 1 else 2 })
      if !gather ∧ j.bound ≤ x then s.nextElem e true else s)
  | 1 => (s.jobRead e src m).andThen e (fun s bs => s.upJob e (fun j => { j with data := bs, ph := 2 }))
  | _ =>
    (s.jobWrite e dst (if inside then j.data else List.replicate m (0, true)) true).andThen e (fun s _ =>
      if j.b + m = j.esz then s.nextElem e (!inside)
      else s.upJob e (fun j => { j with b := j.b + m, ph := if inside then 1 else 2 }))

/-- Operator tag of a REDUCE. -/
def Job.tag (j : Job) : BitVec 4 := (j.d 0).extractLsb' 8 4
/-- Addresses whose elements are combined, in order: the destination first with INPLACE. -/
def Job.terms (j : Job) : List W64 := (if (j.d 0).getLsbD 7 then [j.d 3] else []) ++ j.srcs

/-- One request of a REDUCE: the list of sources, a read of one term of an element, or its write (R365). -/
def State.stepReduce (s : State) (e : Nat) : State :=
  let j := s.job e
  let z := gaddSize j.tag
  let at_ (a : W64) : W64 := a + BitVec.ofNat 64 (j.i * z)
  match j.ph with
  | 0 =>
    let n := (j.d 5).toNat
    (s.jobRead e (j.d 2) (8 * n)).andThen e (fun s bs =>
      let l := dwordsOf (bs.map (·.1)) n
      let len := (j.d 4).toNat * z
      let self := overlaps (j.d 2).toNat (8 * n) (j.d 3).toNat len || l.any (fun a => overlaps a.toNat len (j.d 3).toNat len)
      s.upJob e (fun j => { j with srcs := l, self := self, x := 0, ph := 1 }))
  | 1 =>
    if !aligned (j.d 3) z ∨ j.srcs.any (fun a => !aligned a z) then s.endJob e 2
    else
      (s.jobRead e (at_ (j.terms.getD j.x 0)) z).andThen e (fun s bs =>
        let v := leNat (bs.map (·.1))
        let (acc, k) := if j.x = 0 then (v, 0) else combine j.tag j.acc v
        let s := (List.range 16).foldl (fun s i => if k.getLsbD i then s.countLoom j.cl i 1 else s) s
        s.upJob e (fun j => { j with acc := acc, x := j.x + 1, ph := if j.x + 1 = j.terms.length then 2 else 1 }))
  | _ =>
    (s.jobWrite e (at_ (j.d 3)) ((leBytes z j.acc).map (fun b => (b, true))) false).andThen e (fun s _ =>
      let s := s.upJob e (fun j => { j with i := j.i + 1, cnt := j.cnt + 1, x := 0, ph := 1 })
      if j.i + 1 = (j.d 4).toNat then s.endJob e 0 else s)

/-- The written range of a GATHER or SCATTER meets its index list or its source (R366). -/
def Job.meetsItself (j : Job) (gather : Bool) : Bool :=
  let near := j.elems * j.esz
  let far := j.bound * j.esz
  let dst := (j.d 3).toNat
  let w := if gather then near else far
  overlaps dst w (j.d 4).toNat (j.elems * j.isz) || overlaps dst w (j.d 2).toNat (if gather then far else near)

/-- One request of a copy-class job. -/
def State.stepJob (s : State) (e : Nat) : State :=
  let j := s.job e
  match cardKind j.card with
  | 0 => s.stepCopy e
  | 1 => (s.upJob e (fun j => { j with self := j.meetsItself true })).stepIndexed e true
  | 2 => (s.upJob e (fun j => { j with self := j.meetsItself false })).stepIndexed e false
  | _ => s.stepReduce e

/-! ECPY (R367). -/

/-- A replaced scoreboard entry. -/
def State.setSb (s : State) (cl : ClusterId) (b : Sb) : State :=
  let x := s.cluster cl
  s.setCluster cl { x with sb := x.sb.map (fun y => if y.id == b.id then b else y) }

/-- One request of the short copy at the head: first every source line, then every destination line; bytes refused are not
written. -/
def State.stepEcpy (s : State) (cl : ClusterId) (b : Sb) : State :=
  let n := (b.dsts.map (·.len)).sum
  if b.buf.length < n then
    let p := (dropPieces b.srcs b.buf.length).headD {}
    let (s, got) := s.readPieces [p] b.ext []
    s.setSb cl { b with ext := got.ext, buf := b.buf ++ got.buf.zip (s.bitsOf [p]) }
  else
    let p := (dropPieces b.dsts b.done).headD {}
    let bs := (b.buf.drop b.done).take p.len
    let bad := (s.refusedByte p.pa p.len).isSome
    if !s.cohReady p.pa p.len then s else
    let s := if bad then s else (s.cohWrite p.pa (bs.map (·.1)) 0 none).carryBits p bs
    let last := b.done + p.len == n
    let s := s.setSb cl { b with done := b.done + p.len, refused := b.refused || bad, ended := last }
    if last then s.later (2 * s.toBank cl cl) ordReply (.ecpyRetire cl b.id) else s

/-- A short copy retires: its entry goes, its issuer's store count falls, and what its entry held goes on. -/
def State.doEcpyRetire (s : State) (cl : ClusterId) (id : Nat) : State :=
  let x := s.cluster cl
  match x.sb.find? (fun b => b.id == id) with
  | none => s
  | some b =>
    let s := s.setCluster cl { x with sb := x.sb.filter (fun y => y.id != id) }
    let s := if b.refused then s.count b.who cRefused else s
    let s := s.wakeHeld cl
    let s := match x.sbWait with
      | [] => s
      | c :: _ => if (s.ctx c).why = Why.scoreboard then s.wake c else s
    s.now (.storeAcknowledgement b.who id { bank := true })

/-- The pieces of a range for an ECPY, and the context that a missing page leaves (R121). A source may lie in a B-store window:
the copy engine reads it. -/
def State.translateSpan (s : State) (need : Need) (va : W64) (n : Nat) (k : State → List Piece → State) : State :=
  let page (s : State) (va : W64) (k : State → Nat → State) : State :=
    match s.look s.cur va need with
    | .fault cls =>
      if cls = clsBswin then
        match (s.core (coreOf s.cur)).tlb.find? (fun e => e.maps (s.slotOf s.cur) va.toNat) with
        | some e => k s (e.phys va.toNat)
        | none => s.translate va need (fun s pa _ => k s pa)
      else s.translate va need (fun s pa _ => k s pa)
    | _ => s.translate va need (fun s pa _ => k s pa)
  match pageRuns va n with
  | [(a, m)] => page s a (fun s pa => k s (splitLines pa m))
  | (a, m) :: (b, l) :: _ => page s a (fun s pa => page s b (fun s pb => k s (splitLines pa m ++ splitLines pb l)))
  | [] => k s []

/-- The copy is entered on the scoreboard and counted as one unacknowledged store, of both twins of a pair. -/
def State.enterEcpy (s : State) (srcs dsts : List Piece) : State :=
  let c := s.cur
  let cl := clusterOf c
  let id := s.token
  let x := s.cluster cl
  let s := s.tick1.setCluster cl { x with
    sb := x.sb ++ [{ id := id, who := c, slot := s.slotOf c, srcs := srcs, dsts := dsts }], sbWait := x.sbWait.filter (· != c) }
  let s := (c :: (s.twin c).toList).foldl (fun s c =>
    let y := s.ctx c
    s.setCtx c { y with pend := y.pend ++ [{ id := id, copy := true }] }) s
  s.kickEngine cl

/-- ECPY (R367). -/
def State.ecpy (s : State) (i : Instr) (d t g l : BitVec 4) : State :=
  let c := s.cur
  let cl := clusterOf c
  let dst := s.rd t
  let src := s.rd g
  let n := (s.rd l).toNat
  if s.stage ≠ 0 then
    match s.me.why, s.me.load with
    | .reply _, some q =>
      let srcs := q.pieces.take q.done
      (s.setMe { s.me with load := none }).enterEcpy srcs (q.pieces.drop q.done) |>.unitReply c 1 { rd := d, wr := true }
    | _, _ => s
  else s.plain i (fun s =>
    if n = 0 ∨ 4096 < n then s.put d 1
    else if wraps dst n ∨ wraps src n then s.put d 3
    else s.translateSpan .r src n (fun s srcs => s.translateSpan .w dst n (fun s dsts =>
      let mine := dsts.all (fun p => match s.region p.pa with
        | .scratch k _ => k == cl
        | _ => false)
      let x := s.cluster cl
      if !mine then s.put d 2
      else if 8 ≤ s.me.pend.length
          ∨ s.me.pend.any (fun p => !p.copy && (srcs ++ dsts).any (fun q => pieceMeets q (p.pieces.map (fun z => (z.pa, z.len))))) then
        s.wait c .held
      else if 32 ≤ x.sb.length ∨ (!x.sbWait.isEmpty ∧ x.sbWait.head? ≠ some c) then
        let s := if x.sbWait.contains c then s else s.setCluster cl { x with sbWait := x.sbWait ++ [c] }
        s.wait c .scoreboard
      else
        match s.twin c with
        | none => (s.enterEcpy srcs dsts).put d 0
        | some _ =>
          (s.setMe { s.me with load := some { pieces := srcs ++ dsts, done := srcs.length } }).sendUnit i 0 ordLate
            [dst.toNat, src.toNat, n])))

def execEcpy (d t g l : BitVec 4) (s : State) : Host.Outcome State Fault Refusal := .next (s.ecpy (.ecpy d t g l) d t g l)

/-! The copy and gather engine (R361). -/

/-- One request of a cluster's engine: the oldest short copy, ahead of all jobs, or else the next job in turn. -/
def State.doEngineRequest (s : State) (cl : ClusterId) : State :=
  let x := s.cluster cl
  let s := match x.sb.find? (fun b => !b.ended) with
    | some b => s.stepEcpy cl b
    | none =>
      match x.copyRun.find? (fun e => (s.job e).ended.isNone) with
      | some e => (s.setCluster cl { x with copyRun := x.copyRun.filter (· != e) ++ [e] }).stepJob e
      | none => s
  let x := s.cluster cl
  if x.sb.any (fun b => !b.ended) ∨ x.copyRun.any (fun e => (s.job e).ended.isNone) then s.kickEngine cl else s

def execJobAccept (s : State) : Host.Outcome State Fault Refusal :=
  .next (match s.ev with
    | .jobAccept c card d => s.doJobAccept c card d
    | _ => s)
def execJobRetire (s : State) : Host.Outcome State Fault Refusal :=
  .next (match s.ev with
    | .jobRetire e code => s.doJobRetire e code
    | _ => s)
def execEngineRequest (s : State) : Host.Outcome State Fault Refusal :=
  .next (match s.ev with
    | .engineRequest cl => s.doEngineRequest cl
    | _ => s)
def execEcpyRetire (s : State) : Host.Outcome State Fault Refusal :=
  .next (match s.ev with
    | .ecpyRetire cl id => s.doEcpyRetire cl id
    | _ => s)

end Sys2Proof.Machine
end

