-- ==== Sys2Proof/Machine/Sequencer.lean ====
section
/-!
DEFINITION. The block sequencer of each cluster: a WALK job taken entry by entry through the steps E, W, L, O, G and S (R368 to
R372).
-/

namespace Sys2Proof.Machine

/-- The walk in a cluster's sequencer changes. -/
def State.upWalk (s : State) (cl : ClusterId) (f : Walk → Walk) : State :=
  let x := s.cluster cl
  s.setCluster cl { x with walk := x.walk.map f }

/-- The sequencer's next act comes after some cycles. -/
def State.walkLater (s : State) (cl : ClusterId) (n : Nat) : State := s.later n ordEngine (.walkBlock cl)

/-- Cycles that a load of the sequencer takes (R297). -/
def State.walkLoadTime (s : State) (cl : ClusterId) (j : Job) (va : W64) : Nat :=
  match s.translateUnit j.slot j.priv va .r with
  | .ok pa => if (s.region pa).outside then 1 else max 1 (s.fetchTime (128 * cl) pa)
  | .error _ => 1

/-- The walk stops at an interruptible point, because its gang is being pre-empted (R372). -/
def State.stopWalk (s : State) (cl : ClusterId) : State := s.upWalk cl (fun w => { w with stopped := true })

/-- Rows of a B tile (R368). -/
def bRows (c : W64) : Nat := bitsAt c 51 11 + 1

/-- An entry's dword 1 is malformed, or its B tile would pass the top of the address space (R370). -/
def badEntry (j : Job) (d1 : W64) : Bool :=
  let c := j.d 7
  bitsAt d1 32 32 != 0 || bitsAt c 0 7 < bitsAt d1 16 7
    || 2 ^ 64 < (j.d 6).toNat + (bitsAt d1 0 16 * bRows c + bRows c) * 512

/-- A read of the sequencer: the walk ends on a failure, and waits while a line is on its way. -/
def State.walkRead (s : State) (cl : ClusterId) (e : Nat) (va : W64) (n : Nat) (f : State → List Byte → State) : State :=
  match s.jobRead e va n with
  | .fail s code => s.endJob e code
  | .wait s => s.walkLater cl 1
  | .done s bs => f s (bs.map (·.1))

/-- Step E: the entry, and then its index list. -/
def State.walkE (s : State) (cl : ClusterId) (w : Walk) (j : Job) : State :=
  let e := w.job
  if w.ph = 0 then
    if j.halted then s.stopWalk cl
    else
      let va := j.d 2 + BitVec.ofNat 64 (16 * w.n)
      s.walkRead cl e va 16 (fun s bs =>
        let d1 := dwordAt bs 1
        if badEntry j d1 then s.endJob e 4
        else
          (s.upWalk cl (fun w => { w with
            ph := 1, list := dwordAt bs 0, bid := bitsAt d1 0 16, nr := bitsAt d1 16 7 + 1, newb := d1.getLsbD 23
            work := bitsAt d1 24 8 })).walkLater cl (s.walkLoadTime cl j va))
  else
    s.walkRead cl e w.list (4 * w.nr) (fun s bs =>
      (s.upWalk cl (fun w => { w with
        ph := 0, k := 0, idx := (List.range w.nr).map (fun i => leNat ((bs.drop (4 * i)).take 4)), step := if w.newb then .w else .o
        })).walkLater cl ((4 * w.nr + 127) / 128 - 1 + s.walkLoadTime cl j w.list))

/-- A bolt that the walk opened has been released: it is FREE, or DEFERRED under armed checkpointing. -/
def State.walkReleased (s : State) (cl : ClusterId) (h : BitVec 32) : Bool :=
  match s.handle (cl / 256) h with
  | .cur _ _ b => b.st == .deferred
  | _ => true

/-- Step W: the wait for the bolts of the old B tile, which a pre-emption stops before anything else (R372). -/
def State.walkW (s : State) (cl : ClusterId) (w : Walk) : State :=
  if (s.job w.job).halted then s.stopWalk cl
  else if w.opened.all (s.walkReleased cl) then
    (s.upWalk cl (fun w => { w with opened := [], step := .l, k := 0, ph := 0 })).now (.walkBlock cl)
  else s.later 1 ordEngine (.walkBTileWaitEnd cl)

/-- The entries of a B-store row as 512 bytes give them. -/
def rowEntries (cl : ClusterId) (row : Nat) (bs : List Byte) : List (Nat × List Byte) :=
  (List.range 128).map (fun j => (bEntryAt cl j row, (bs.drop (4 * j)).take 4))

/-- Step L: the rows of the B tile, each read and then written to the B-store. -/
def State.walkL (s : State) (cl : ClusterId) (w : Walk) (j : Job) : State :=
  let c := j.d 7
  if w.ph = 0 then
    if w.k = bRows c then (s.upWalk cl (fun w => { w with step := .o, ph := 0, k := 0 })).now (.walkBlock cl)
    else
      let va := j.d 6 + BitVec.ofNat 64 ((w.bid * bRows c + w.k) * 512)
      s.walkRead cl w.job va 512 (fun s bs =>
        (s.upWalk cl (fun w => { w with buf := bs, ph := 1 })).walkLater cl (if w.k = 0 then s.walkLoadTime cl j va else 1))
  else
    match s.offerBstore cl (rowEntries cl ((bitsAt c 40 11 + w.k) % 2048) w.buf) with
    | none => s.walkLater cl 1
    | some s => (s.upWalk cl (fun w => { w with k := w.k + 1, ph := 0, buf := [] })).walkLater cl 1

/-- Step O: the opening, which waits as a BOPEN waits. A pre-emption stops the walk only where the opening would wait (R372). -/
def State.walkO (s : State) (cl : ClusterId) (w : Walk) (j : Job) : State :=
  let c := j.d 7
  let q : OpenReq := { cl := cl, shape := walkShape c, ctl := walkCtl c w.work, slot := j.slot }
  if w.ph ≠ 0 then s
  else if s.openCode cl (walkShape c) (walkCtl c w.work) true ≠ 0 then s.endJob w.job 1
  else if j.halted ∧ (!(s.cluster cl).openQ.isEmpty ∨ (s.tryOpen cl q).isNone) then s.stopWalk cl
  else (s.upWalk cl (fun w => { w with ph := 2 })).openOrWait cl q

/-- The opening is served: the rows follow. -/
def State.doWalkOpenServed (s : State) (cl : ClusterId) (h : BitVec 32) : State :=
  match (s.cluster cl).walk with
  | some w =>
    if w.step = WStep.o ∧ w.ph = 2 then
      (s.upWalk cl (fun w => { w with bolt := h, step := .g, ph := 0, k := 0 })).walkLater cl 1
    else s
  | none => s

/-- The walk goes on with its next entry, or retires after the last. -/
def State.walkNext (s : State) (cl : ClusterId) (e : Nat) (truncated : Bool) : State :=
  let s := s.upWalk cl (fun w => { w with
    opened := w.opened ++ [w.bolt], n := w.n + 1, step := .e, ph := 0, k := 0, buf := []
    sealed_ := w.sealed_ + (!truncated).toNat, truncs := w.truncs + truncated.toNat })
  match (s.cluster cl).walk with
  | none => s
  | some w =>
    let s := s.upJob e (fun j => { j with cnt := w.sealed_, beyond := w.truncs })
    if w.n = bitsAt ((s.job e).d 3) 0 16 then s.endJob e 0 else s.walkLater cl 1

/-- The OPEN bolt of the present block, unless its timer or pressure has sealed it. -/
def State.walkBolt (s : State) (cl : ClusterId) (h : BitVec 32) : Option (Nat × Bolt) :=
  match s.handle (cl / 256) h with
  | .cur _ e b => if b.isOpen then some (e, b) else none
  | _ => none

/-- Step G: each row is read, written to the bolt and marked valid; a bolt sealed before truncates the block (R371). -/
def State.walkG (s : State) (cl : ClusterId) (w : Walk) (j : Job) : State :=
  if w.ph = 0 then
    if w.k = w.nr then (s.upWalk cl (fun w => { w with step := .s })).now (.walkBlock cl)
    else
      let c := j.d 7
      let va := j.d 4 + BitVec.ofNat 64 (w.idx.getD w.k 0 * bitsAt (j.d 5) 0 32)
      s.walkRead cl w.job va (strideOf (bitsAt c 16 4) (bitsAt c 8 7 + 1)) (fun s bs =>
        (s.upWalk cl (fun w => { w with buf := bs, ph := 1 })).walkLater cl (if w.k = 0 then s.walkLoadTime cl j va else 1))
  else
    match s.walkBolt cl w.bolt with
    | none => s.walkNext cl w.job true
    | some (e, b) =>
      let pa := windowBase cl + 4096 * b.page + w.k * b.stride
      if !s.cohReady pa b.stride then s.walkLater cl 1
      else
      let s := s.cohWrite pa w.buf 0 none
      let b := (s.cluster cl).bolt e
      let s := s.setBolt cl e { b with valid := b.valid ||| (1#128 <<< w.k) }
      (s.upWalk cl (fun w => { w with k := w.k + 1, ph := 0, buf := [] })).walkLater cl 1

/-- Step S: the seal with CAUSE 0, which posts the bolt. -/
def State.walkS (s : State) (cl : ClusterId) (w : Walk) : State :=
  match s.walkBolt cl w.bolt with
  | none => s.walkNext cl w.job true
  | some (e, _) => (s.sealNow cl e 0).walkNext cl w.job false

/-- One act of a cluster's block sequencer, which stands still while its Loom waits on a link or is frozen (R369, R421; log
entry 23). -/
def State.doWalkBlock (s : State) (cl : ClusterId) : State :=
  match (s.cluster cl).walk with
  | none => s
  | some w =>
    let j := s.job w.job
    if w.stopped ∨ j.ended.isSome then s
    else if (s.loom cl).frozen s.cycle then s.eventAt (s.loom cl).thaw ordEngine (.walkBlock cl)
    else if (s.loom cl).st = .link ∨ (s.loom cl).st = .frozen then s.walkLater cl 1
    else match w.step with
      | .e => s.walkE cl w j
      | .w => s.walkW cl w
      | .l => s.walkL cl w j
      | .o => s.walkO cl w j
      | .g => s.walkG cl w j
      | .s => s.walkS cl w

/-- Another look at the wait of step W. -/
def State.doWalkBTileWaitEnd (s : State) (cl : ClusterId) : State :=
  match (s.cluster cl).walk with
  | some w => if w.step = WStep.w then s.doWalkBlock cl else s
  | none => s

def execWalkBlock (s : State) : Host.Outcome State Fault Refusal :=
  .next (match s.ev with
    | .walkBlock cl => s.doWalkBlock cl
    | _ => s)
def execWalkBTileWaitEnd (s : State) : Host.Outcome State Fault Refusal :=
  .next (match s.ev with
    | .walkBTileWaitEnd cl => s.doWalkBTileWaitEnd cl
    | _ => s)
def execWalkOpenServed (s : State) : Host.Outcome State Fault Refusal :=
  .next (match s.ev with
    | .walkOpenServed cl h => s.doWalkOpenServed cl h
    | _ => s)

end Sys2Proof.Machine
end

