-- ==== Sys2Proof/Machine/Thresher.lean ====
section
/-!
DEFINITION. The Thresher of each die: task nodes, their remaining paths, and the instructions that submit, take and complete
them (R379 to R383).
-/

namespace Sys2Proof.Machine

/-- The Thresher of a die. -/
def State.thresher (s : State) (die : Nat) : Thresher := if die = 0 then s.dev.th0 else s.dev.th1
/-- Replace it. -/
def State.setThresher (s : State) (die : Nat) (t : Thresher) : State :=
  { s with dev := if die = 0 then { s.dev with th0 := t } else { s.dev with th1 := t } }

/-- Cycles between a core and its die's Thresher, one way: half of the round trip of R380. -/
def thresherWay : Nat := 10

/-- A node by its index. -/
def Thresher.node (t : Thresher) (n : Nat) : Node := Tab.get {} t.nodes n

/-- The identifier of a node (R379). -/
def nodeId (n : Nat) (x : Node) : W64 := BitVec.ofNat 64 (x.gen.toNat * 4096 + n)

/-- The live node that an identifier names (R379, R380). -/
def Thresher.named (t : Thresher) (id : BitVec 16) : Option Nat :=
  let n := id.toNat % 4096
  let x := t.node n
  if x.live ∧ x.gen.toNat = id.toNat / 4096 then some n else none

/-- raise of R380: the path of a node and of its predecessors rises, and every raise is counted. A chain of predecessors is
no longer than the table, which bounds the depth. -/
def raiseNode : Nat → Tab Node → Nat → Nat → Tab Node × Nat
  | 0, t, _, _ => (t, 0)
  | fuel + 1, t, p, rp =>
    let x := Tab.get {} t p
    let v := min (x.cost + rp) 0xFFFFFFFF
    if x.rp < v then
      x.preds.foldl (fun (a : Tab Node × Nat) q =>
        let (t2, k) := raiseNode fuel a.1 q v
        (t2, a.2 + k)) (Tab.set t p { x with rp := v }, 1)
    else (t, 1)

/-- The READY node of a slot with the greatest remaining path, the earliest submitted among equals (R381). -/
def Thresher.best (t : Thresher) (slot : BitVec 4) : Option Nat :=
  ((t.nodes.filter (fun e => e.2.live && e.2.slot == slot && e.2.st == .ready)).foldl
    (fun (b : Option (Nat × Node)) e =>
      match b with
      | none => some e
      | some f => if f.2.rp < e.2.rp ∨ (f.2.rp = e.2.rp ∧ e.2.no < f.2.no) then some e else some f) none).map (·.1)

/-- A slot has a live node. -/
def Thresher.hasLive (t : Thresher) (slot : BitVec 4) : Bool := t.nodes.any (fun e => e.2.live && e.2.slot == slot)

/-- What a TGNEXT of a slot receives now: the best READY node, which runs, or EMPTY; nothing while only other live nodes are
left (R381). The reply that gives a node is an acquire (R383). -/
def State.takeNode (s : State) (die : Nat) (slot : BitVec 4) (d : BitVec 4) : Option (State × Reply) :=
  let t := s.thresher die
  match t.best slot with
  | some n =>
    let x := t.node n
    let s := s.setThresher die { t with nodes := Tab.set t.nodes n { x with st := .running } }
    some (s, { rd := d, wr := true, bank := true, val := (nodeId n x <<< 48) ||| x.arg.setWidth 64 })
  | none => if t.hasLive slot then none else some (s, { rd := d, wr := true, val := -1 })

/-- Waiting TGNEXTs are served in their arrival order (R381). -/
def State.serveNexts (s : State) (die : Nat) : State :=
  (s.thresher die).waits.foldl (fun s (c, d, id) =>
    if !(s.ctx c).awaits id then s
    else match s.takeNode die (s.slotOf c) d with
    | none => s
    | some (s, r) =>
      let t := s.thresher die
      (s.setThresher die { t with waits := t.waits.filter (fun w => w.1 != c) }).unitReply c thresherWay r) s

/-- Submit a node; the answer is gD and the number of raises (R380). -/
def State.submit (s : State) (die : Nat) (slot : BitVec 4) (a p c : W64) : State × W64 × Nat :=
  let t := s.thresher die
  let preds := ((List.range 4).filterMap (fun i => t.named (p.extractLsb' (16 * i) 16))).eraseDups
  if a.extractLsb' 48 16 ≠ 0#16 then (s, failCode 3, 0)
  else if preds.any (fun n => (t.node n).slot != slot) then (s, failCode 2, 0)
  else
    match (List.range (t.nodes.length + 1)).find? (fun n => !(t.node n).live) with
    | none => (s, failCode 1, 0)
    | some n =>
      if 0xFFE < n then (s, failCode 1, 0)
      else
        let cost := (c.extractLsb' 0 16).toNat
        let x : Node := {
          live := true, gen := (t.node n).gen, slot := slot, arg := a.setWidth 48, cost := cost, rp := cost, preds := preds
          st := if preds.isEmpty then .ready else .waiting, no := t.next }
        let (nodes, k) := preds.foldl (fun (y : Tab Node × Nat) q =>
          let (t2, m) := raiseNode 4096 y.1 q cost
          (t2, y.2 + m)) (Tab.set t.nodes n x, 0)
        ((s.setThresher die { t with nodes := nodes, next := t.next + 1 }).serveNexts die, nodeId n x, k)

/-- A node is done: its entry is freed, and a successor left with no live predecessor becomes READY (R382). -/
def State.finishNode (s : State) (die n : Nat) : State :=
  let t := s.thresher die
  let nodes := Tab.set t.nodes n { gen := (t.node n).gen + 1 }
  let nodes := Tab.mapVal (fun x =>
    let l := x.preds.filter (· != n)
    { x with preds := l, st := if x.live && x.st == .waiting && l.isEmpty then .ready else x.st }) nodes
  (s.setThresher die { t with nodes := nodes }).serveNexts die

/-- A node goes back to READY (R382). -/
def State.requeueNode (s : State) (die n : Nat) : State :=
  let t := s.thresher die
  (s.setThresher die { t with nodes := Tab.set t.nodes n { t.node n with st := .ready } }).serveNexts die

/-- TGDONE at the Thresher: its checks, then what is done with the node (R382). -/
def State.tgdoneAt (s : State) (d a : BitVec 4) (f : State → Nat → Nat → State) : State :=
  let c := s.cur
  let die := dieOf c
  let t := s.thresher die
  match t.named ((s.rd a).extractLsb' 0 16) with
  | none => s.unitReply c thresherWay { rd := d, wr := true, val := 1 }
  | some n =>
    if (t.node n).st ≠ .running then s.unitReply c thresherWay { rd := d, wr := true, val := 1 }
    else if (t.node n).slot ≠ s.slotOf c then s.unitReply c thresherWay { rd := d, wr := true, val := 2 }
    else (f s die n).unitReply c thresherWay { rd := d, wr := true }

/-- A request to the Thresher that is a release: it leaves once every store is acknowledged (R383). -/
def State.thresherOp (s : State) (i : Instr) (sig : List Nat) (f : State → State) : State :=
  let go (s : State) : State := s.atUnit i thresherWay (1000 + s.cur) sig f
  if s.stage = 0 then s.plain i (fun s => s.drained i go) else go s

/-- TGSUB at the Thresher; the reply follows the last raise (R380). -/
def State.tgsubAt (s : State) (d a p c : BitVec 4) : State :=
  let (s, v, k) := s.submit (dieOf s.cur) (s.slotOf s.cur) (s.rd a) (s.rd p) (s.rd c)
  s.unitReply s.cur (thresherWay + k) { rd := d, wr := true, val := v }

/-- TGNEXT at the Thresher: served at once, or in Dispatch wait behind those that came before (R381). -/
def State.tgnextAt (s : State) (d : BitVec 4) : State :=
  let c := s.cur
  let die := dieOf c
  match s.takeNode die (s.slotOf c) d with
  | some (s, r) => s.unitReply c thresherWay r
  | none =>
    let t := s.thresher die
    ((s.setThresher die { t with waits := t.waits ++ [(c, d, s.me.token)] }).park c .dispatchWait (.unit s.me.token)).watch c

def execTgsub (d a p c : BitVec 4) (s : State) : Host.Outcome State Fault Refusal :=
  .next (s.thresherOp (.tgsub d a p c) [(s.rd a).toNat, (s.rd p).toNat, (s.rd c).toNat] (fun s => s.tgsubAt d a p c))
def execTgnext (d : BitVec 4) (s : State) : Host.Outcome State Fault Refusal :=
  .next (s.plain (.tgnext d) (fun s => s.atUnit (.tgnext d) thresherWay (1000 + s.cur) [] (fun s => s.tgnextAt d)))
def execTgdone (d a b : BitVec 4) (s : State) : Host.Outcome State Fault Refusal :=
  .next (s.thresherOp (.tgdone d a b) [(s.rd a).toNat, 0] (fun s => s.tgdoneAt d a State.finishNode))
def execTgdoneRequeue (d a b : BitVec 4) (s : State) : Host.Outcome State Fault Refusal :=
  .next (s.thresherOp (.tgdoneRequeue d a b) [(s.rd a).toNat, 1] (fun s => s.tgdoneAt d a State.requeueNode))

end Sys2Proof.Machine
end

