-- ==== Sys2Proof/Machine/Recovery.lean ====
section
/-!
DEFINITION. Checkpointing, rollback, freezes, the wait watchdog and twill pairs: CKPT, TWIL and the events of chapter 20 that
concern one core or one Loom (R415, R419 to R423).
-/

namespace Sys2Proof.Machine

/-! CKPT (R419). -/

/-- CKPT's checks: the prefix, the privilege, and the cluster steward. -/
def State.ckpt (s : State) (i : Instr) (d : BitVec 4) (f : State → State) : State :=
  s.plain i (fun s =>
    if !s.privOf s.cur then s.trapPriv i
    else if !isClusterSteward s.cur then s.put d (failCode 2)
    else f s)

/-- A rollback point is recorded at the Loom's next bundle boundary, or at the start of the weave; in a rerun, once it has
ended. -/
def State.ckArm (s : State) (l : ClusterId) : State :=
  let x := s.loom l
  if x.st = .stopped then s.setLoom l { x with ck := { x.ck with armed := true, point := none } }
  else if x.ck.rerun ≠ 0 then s.setLoom l { x with ck := { x.ck with ask := 3 } }
  else (if x.ck.armed then s.commit l else s).recordPoint l

/-- The checkpoint is committed at the next bundle boundary and checkpointing disarmed. -/
def State.ckDisarm (s : State) (l : ClusterId) : State :=
  let x := s.loom l
  if x.ck.rerun ≠ 0 then s.setLoom l { x with ck := { x.ck with ask := 2 } }
  else
    let s := if x.ck.armed then s.commit l else s
    s.setLoom l { s.loom l with ck := { (s.loom l).ck with armed := false, point := none } }

/-- What QUERY writes. -/
def Ckpt.query (k : Ckpt) : W64 := fields [(16, k.count.toNat), (1, (k.rerun != 0).toNat), (0, k.armed.toNat)]

/-- OP 3 shares ARM's row and answers BADOP. -/
def execCkptArm (d a : BitVec 4) (s : State) : Host.Outcome State Fault Refusal :=
  .next (s.ckpt (.ckptArm d a) d (fun s =>
    if (s.rd a).extractLsb' 0 2 = 3#2 then s.put d (failCode 0xF) else (s.ckArm (clusterOf s.cur)).put d 0))
def execCkptDisarm (d a : BitVec 4) (s : State) : Host.Outcome State Fault Refusal :=
  .next (s.ckpt (.ckptDisarm d a) d (fun s => (s.ckDisarm (clusterOf s.cur)).put d 0))
def execCkptQuery (d a : BitVec 4) (s : State) : Host.Outcome State Fault Refusal :=
  .next (s.ckpt (.ckptQuery d a) d (fun s => s.put d (s.loom (clusterOf s.cur)).ck.query))

/-! Data errors and rollback (R420, R461). -/

/-- The bolt of a handle, when it is current, changes. -/
def State.upHandle (s : State) (die : Nat) (h : BitVec 32) (f : Bolt → Bolt) : State :=
  match s.handle die h with
  | .cur cl e b => s.setBolt cl e (f b)
  | _ => s

/-- The Loom goes back to its rollback point: the snapshot, the handles popped since at the head of the queue, the row-valid
masks, and the bolts whose releases or posts were deferred. -/
def State.restorePoint (s : State) (l : ClusterId) : State :=
  let x := s.loom l
  match x.ck.point with
  | none => s
  | some p =>
    let die := l / 256
    let now := s.cycle
    let s := x.ck.releases.foldl (fun s h => s.upHandle die h (fun b => { b with st := .held })) s
    let s := x.ck.posts.foldl (fun s h => s.upHandle die h (fun b => { b with later := if b.expiry ≤ now then 1 else 0 })) s
    let s := x.ck.pops.foldl (fun s q => s.upHandle die q.1 (fun b =>
      if b.out then { b with popped := false, valid := if b.isOpen then 0 else b.valid }
      else { b with popped := false, st := .sealed_ })) s
    let s := x.ck.masks.foldl (fun s q => s.upHandle die q.1 (fun b => { b with valid := q.2 })) s
    let again := (p.held.map (·.h) ++ x.ck.pops.map (·.1)).filter (fun h => !x.work.any (fun w => w.1 == h))
    let work := again.map (fun h => (h, match s.handle die h with
      | .cur _ _ b => b.work
      | _ => 0))
    s.setLoom l { x with
      st := .running
      work := x.work ++ work
      k := { p with boltQ := x.ck.pops ++ x.k.boltQ, west := x.k.west, westPop := x.k.westPop }
      ck := { x.ck with pops := [], releases := [], posts := [], bundles := 0, sig := 0xFFFFFFFF } }

/-- A detected data error freezes the Loom; what follows comes in the next cycle. One in a rerun is remembered. -/
def State.doDataError (s : State) (l : ClusterId) : State :=
  let x := s.loom l
  if x.st = .stopped ∨ x.st = .trapped ∨ x.st = .frozen then s
  else if x.ck.rerun ≠ 0 then s.setLoom l { x with ck := { x.ck with bad := true } }
  else (s.setLoom l { x with st := .frozen }).later 1 ordEngine (.rollbackOutcome l)

/-- What a frozen Loom's data error comes to: an exact fault, or under armed checkpointing the first of two reruns. -/
def State.afterError (s : State) (l : ClusterId) : State :=
  let x := s.loom l
  if x.ck.armed ∧ x.ck.point.isSome then
    let s := s.restorePoint l
    let x := s.loom l
    s.setLoom l { x with ck := { x.ck with
      rerun := 1, first := none, bad := false, count := if x.ck.count = -1 then x.ck.count else x.ck.count + 1 } }
  else s.loomTrap l (BitVec.ofNat 16 x.k.time) x.k.pc 0 0 lcDataErr

/-- The Loom is retired: LFREC shows it, no weave is admitted, its cluster enters the failure log, and its gang is ended. -/
def State.retire (s : State) (l : ClusterId) : State :=
  let x := s.loom l
  let s := s.setLoom l { x with ck := { x.ck with rerun := 0, first := none } }
  let s := s.loomTrap l (BitVec.ofNat 16 x.k.time) x.k.pc 0 0 lcRetired
  let s := s.setCluster l { s.cluster l with retired := true }
  let s := { s with thatch := { s.thatch with log := (s.thatch.log ++ [256 * (l / 256) + s.phys l]).eraseDups } }
  match x.gang with
  | some g => s.soon (.gangEnd none g 4 (BitVec.ofNat 64 (4096 * s.dev.chip.toNat + 8 * l)))
  | none => s

/-- A frozen Loom rolls back or traps; a rerun has reached the end of its segment, and the second begins, or the two are
compared. -/
def State.doRollbackOutcome (s : State) (l : ClusterId) : State :=
  let x := s.loom l
  if x.st = .frozen then s.afterError l else
  let mine := (x.ck.bundles, x.ck.sig)
  if x.ck.rerun = 1 then
    let s := s.restorePoint l
    let x := s.loom l
    s.setLoom l { x with ck := { x.ck with rerun := 2, first := some mine } }
  else if x.ck.rerun = 2 then
    if x.ck.first = some mine ∧ !x.ck.bad then
      (s.setLoom l { x with ck := { x.ck with rerun := 0, first := none } }).now (.bundleDispatch l)
    else s.retire l
  else s

/-! Freezes (R421, R423). -/

/-- A 32-bit count that saturates goes up by one. -/
def satInc (x : BitVec 32) : BitVec 32 := if x = -1 then x else x + 1

/-- A core freezes from the next cycle for 64 cycles; a further error moves the end. -/
def State.freezeCore (s : State) (k : CoreId) : State :=
  let x := s.core k
  (s.setCore k { x with froze := if s.cycle < x.thaw then x.froze else s.cycle, thaw := s.cycle + 65 }).eventAt (s.cycle + 65) 1
    (.coreFreezeEnd k)

/-- A correctable error of a core freezes it, and its neighbour while the two have a coupled pair. -/
def State.doCorrectableErrorCore (s : State) (k : CoreId) : State :=
  let s := s.setCore k { s.core k with cecnt := satInc (s.core k).cecnt }
  let even := k - k % 2
  if (s.core even).twills.isEmpty then s.freezeCore k else (s.freezeCore even).freezeCore (even + 1)

/-- The freeze of a core ends: the replies that came in it count as arriving now. -/
def State.doCoreFreezeEnd (s : State) (k : CoreId) : State :=
  let x := s.core k
  if s.cycle < x.thaw then s
  else x.heldReplies.foldl (fun s q => s.soon (.replyArrival q.1 q.2)) (s.setCore k { x with froze := 0, thaw := 0, heldReplies := [] })

/-- A correctable error of a Loom freezes it, with its block sequencer. -/
def State.doCorrectableErrorLoom (s : State) (l : ClusterId) : State :=
  let x := s.loom l
  (s.setLoom l { x with
    cecnt := satInc x.cecnt, froze := if s.cycle < x.thaw then x.froze else s.cycle, thaw := s.cycle + 65 }).eventAt (s.cycle + 65) 1
    (.loomFreezeEnd l)

/-- The freeze of a Loom ends. -/
def State.doLoomFreezeEnd (s : State) (l : ClusterId) : State :=
  let x := s.loom l
  if s.cycle < x.thaw then s else s.setLoom l { x with froze := 0, thaw := 0 }

/-! The wait watchdog (R415). -/

/-- A barrier arrival that is not complete is withdrawn, as a time-out withdraws it; none where the context has no such
arrival (R191). -/
def State.withdrawArrival (s : State) (c : CtxId) : Option State :=
  match (s.ctx c).gang with
  | none => none
  | some g =>
    let cl := clusterOf c
    [false, true].foldl (fun (r : Option State) wire =>
      match r with
      | some s => some s
      | none =>
        let l := s.episodes wire cl g
        match l.find? (fun e => !e.closed) with
        | none => none
        | some e =>
          if e.arrived.any (fun a => !a.ended && a.who == c) then
            let e := { e with arrived := e.arrived.filter (fun a => a.ended || a.who != c), tap := false, tapAt := 0 }
            some (s.setEpisodes wire cl g (if e.arrived.all (·.ended) then l.eraseIdx (openIdx l) else l.set (openIdx l) e))
          else none) none

/-- WDOG.WAIT expires on a wait that still lasts: the wait is withdrawn and the context takes WATCHDOG. A wait whose end is on
its way is let be. -/
def State.doWatchdogWaitExpiry (s : State) (c : CtxId) (token : Nat) : State :=
  let x := s.ctx c
  let still := x.st = .waiting ∨ x.st = .parked ∨ x.st = .dispatchWait
  if x.epoch ≠ token ∨ ¬ still ∨ s.performedFor c then s
  else if s.heldBack c then (match x.gang with
    | some g => s.keepEvent g (.watchdogWaitExpiry c token)
    | none => s)
  else
    let trap (s : State) : State :=
      ((s.bothOf c).foldl (fun s c => s.withdraw c) s).takeTrap c { cause := causeWatchdog, tia := x.here, tepc := x.here }
    if x.why = .barrier then (match s.withdrawArrival c with
      | some s => trap s
      | none => s)
    else trap s

/-! Twill pairs (R422, R423). -/

/-- TWIL's checks and statuses. -/
def State.twil (s : State) (i : Instr) (d a : BitVec 4) (f : State → Nat → State) : State :=
  s.plain i (fun s =>
    if !isSteward s.cur then s.trapPriv i
    else
      let k := coreOf s.cur
      let n := ((s.rd a).extractLsb' 0 4).toNat
      if k % 2 = 1 then s.put d 1
      else if n = 0 ∨ n = 15 then s.put d 2
      else if (s.ctx (16 * k + n)).st ≠ .stopped ∨ (s.ctx (16 * (k + 1) + n)).st ≠ .stopped then s.put d 3
      else (f s n).put d 0)

def execTwilCouple (d a : BitVec 4) (s : State) : Host.Outcome State Fault Refusal :=
  .next (s.twil (.twilCouple d a) d a (fun s n =>
    let k := coreOf s.cur
    let t : Twill := { ctx := n, node := (s.rd a).extractLsb' 32 16 }
    s.setCore k { s.core k with twills := (s.core k).twills.filter (fun t => t.ctx != n) ++ [t] }))
def execTwilUncouple (d a : BitVec 4) (s : State) : Host.Outcome State Fault Refusal :=
  .next (s.twil (.twilUncouple d a) d a (fun s n =>
    let k := coreOf s.cur
    s.setCore k { s.core k with twills := (s.core k).twills.filter (fun t => t.ctx != n) }))

/-- A request of the odd context goes on under the even one's token. -/
def State.renameReq (s : State) (c : CtxId) (old new : Nat) : State :=
  let x := s.ctx c
  let why : Why := match x.why with
    | .reply id => if id = old then .reply new else x.why
    | w => w
  let s := s.setCtx c { x with why := why, pend := x.pend.map (fun p => if p.id == old then { p with id := new } else p) }
  { s with sent := s.sent.map (fun o => if o.id == old && o.who == c then { o with id := new, msg := { o.msg with id := new } } else o) }

/-- A mismatch: neither request is sent, both contexts trap, and a RUNNING node goes back to READY. -/
def State.mismatch (s : State) (even : CoreId) (t : Twill) : State :=
  let ec := 16 * even + t.ctx
  let oc := ec + 16
  let ids := (t.even ++ t.odd).map (·.id)
  let s := s.setTwill even t.ctx (fun t => { t with even := [], odd := [] })
  let s := [ec, oc].foldl (fun s c =>
    let s := s.withdraw c
    let s := s.setCtx c { s.ctx c with pend := (s.ctx c).pend.filter (fun p => !ids.contains p.id) }
    { s with sent := s.sent.filter (fun o => !(o.who == c && ids.contains o.id)) }) s
  let ia := ((t.even ++ t.odd).headD {}).ia
  let va : W64 := match t.even with
    | q :: _ => BitVec.ofNat 64 (q.sig.getD 1 0)
    | [] => 0
  let s := s.takeTrap ec { cause := causeTwill, tia := ia, tepc := ia, tval := va }
  let die := even / 2048
  match (if t.node = 0xFFFF then none else (s.thresher die).named t.node) with
  | some n => if ((s.thresher die).node n).st = .running then s.requeueNode die n else s
  | none => s

/-- The oldest requests of the two contexts are compared: the even one is sent for both, or the pair traps. -/
def State.doTwillCompare (s : State) (even : CoreId) (n : Nat) : State :=
  match (s.core even).twills.find? (fun t => t.ctx == n) with
  | none => s
  | some t =>
    match t.even, t.odd with
    | a :: ea, b :: ob =>
      if a.sig = b.sig then
        let ec := 16 * even + n
        let s := s.setTwill even n (fun t => { t with even := ea, odd := ob })
        let s := if a.both then (s.sendTwin ec a).sendTwin (ec + 16) b else (s.renameReq (ec + 16) b.id a.id).sendTwin ec a
        if ea.isEmpty ∨ ob.isEmpty then s else s.soon (.twillCompare even n)
      else s.mismatch even t
    | _, _ => s

/-- A request whose twin's has not come within 16 cycles is a mismatch. -/
def State.doTwillTimeout (s : State) (even : CoreId) (n token : Nat) : State :=
  match (s.core even).twills.find? (fun t => t.ctx == n) with
  | none => s
  | some t => if (t.even ++ t.odd).any (fun q => q.id == token) then s.mismatch even t else s

def execDataError (s : State) : Host.Outcome State Fault Refusal :=
  .next (match s.ev with
    | .dataError l => s.doDataError l
    | _ => s)
def execRollbackOutcome (s : State) : Host.Outcome State Fault Refusal :=
  .next (match s.ev with
    | .rollbackOutcome l => s.doRollbackOutcome l
    | _ => s)
def execCorrectableErrorCore (s : State) : Host.Outcome State Fault Refusal :=
  .next (match s.ev with
    | .correctableErrorCore k => s.doCorrectableErrorCore k
    | _ => s)
def execCoreFreezeEnd (s : State) : Host.Outcome State Fault Refusal :=
  .next (match s.ev with
    | .coreFreezeEnd k => s.doCoreFreezeEnd k
    | _ => s)
def execCorrectableErrorLoom (s : State) : Host.Outcome State Fault Refusal :=
  .next (match s.ev with
    | .correctableErrorLoom l => s.doCorrectableErrorLoom l
    | _ => s)
def execLoomFreezeEnd (s : State) : Host.Outcome State Fault Refusal :=
  .next (match s.ev with
    | .loomFreezeEnd l => s.doLoomFreezeEnd l
    | _ => s)
def execWatchdogWaitExpiry (s : State) : Host.Outcome State Fault Refusal :=
  .next (match s.ev with
    | .watchdogWaitExpiry c t => s.doWatchdogWaitExpiry c t
    | _ => s)
def execTwillCompare (s : State) : Host.Outcome State Fault Refusal :=
  .next (match s.ev with
    | .twillCompare k n => s.doTwillCompare k n
    | _ => s)
def execTwillTimeout (s : State) : Host.Outcome State Fault Refusal :=
  .next (match s.ev with
    | .twillTimeout k n t => s.doTwillTimeout k n t
    | _ => s)

end Sys2Proof.Machine
end

