-- ==== Sys2Proof/Machine/Gangs.lean ====
section
/-!
DEFINITION. Gang scheduling: the launch descriptor and LAUNCH, the launch queues, admission and release, the retirement of gangs,
wake floods, reports and completion records (R154 to R157, R172 to R174, R443).
-/

namespace Sys2Proof.Machine

/-! The launch descriptor (R173). -/

/-- The fields of a descriptor's eight dwords. -/
def descOf (bs : List Byte) : Desc :=
  let d := dwordAt bs
  { kind := (d 0).extractLsb' 0 4, gpc := bitsAt (d 0) 8 8, wv := (d 0).getLsbD 16, lnum := (d 0).extractLsb' 32 32
    entry := d 1, wentry := d 2
    x0 := bitsAt (d 3) 0 4, y0 := bitsAt (d 3) 4 4, wm1 := bitsAt (d 3) 8 4, hm1 := bitsAt (d 3) 12 4
    d0 := (d 3).getLsbD 16, d1 := (d 3).getLsbD 17
    c0 := bitsAt (d 4) 0 12, nchm1 := bitsAt (d 4) 12 12, nc := bitsAt (d 4) 24 9, arg := d 5, done := d 6 }

/-- The fields marked zero are zero. -/
def descZeros (bs : List Byte) : Bool :=
  let d := dwordAt bs
  bitsAt (d 0) 4 4 == 0 && bitsAt (d 0) 17 15 == 0 && bitsAt (d 3) 18 46 == 0 && bitsAt (d 4) 33 31 == 0 && d 7 == 0
    && ((d 0).getLsbD 16 || d 2 == 0)

/-- The rectangle lies on the mesh. -/
def descOnMesh (d : Desc) : Bool := d.x0 + d.wm1 ≤ 15 && d.y0 + d.hm1 ≤ 15

/-- The geometry keeps the rule of its kind. -/
def descShapeOk (d : Desc) : Bool :=
  match d.kind.toNat with
  | 0 => d.wm1 == 0 && d.hm1 == 0 && d.c0 == 0 && d.nchm1 == 0 && d.nc == 0 && (d.d0 != d.d1)
  | 1 => d.c0 == 0 && d.nchm1 == 0 && d.nc == 0 && (d.d0 != d.d1) && descOnMesh d
  | 2 => d.nc == 0 && (d.d0 || d.d1) && d.c0 + d.nchm1 ≤ 4095 && descOnMesh d
  | 3 => d.x0 == 0 && d.y0 == 0 && d.wm1 == 0 && d.hm1 == 0 && d.d0 && d.d1 && d.c0 + d.nchm1 ≤ 4095 && 1 ≤ d.nc && d.nc ≤ 256
  | _ => false

/-- The checks of R173. -/
def descOk (bs : List Byte) : Bool :=
  let d := descOf bs
  descZeros bs && d.gpc ≤ 112 && (d.gpc != 0 || d.wv) && aligned d.done 16 && descShapeOk d

/-- A rick or a crop, which may cover several chips. -/
def descWide (d : Desc) : Bool := 2 ≤ d.kind.toNat
/-- The chips that a rick or crop covers. -/
def descChips (d : Desc) : List Nat := (List.range (d.nchm1 + 1)).map (d.c0 + ·)
/-- The dies named. -/
def descDies (d : Desc) : List Nat := (if d.d0 then [0] else []) ++ (if d.d1 then [1] else [])

/-! Launches and gangs by number. -/

/-- A launch as the state holds it. -/
def State.launch (s : State) (n : Nat) : Launch := Tab.get {} s.dev.launches n
/-- Replace a launch. -/
def State.setLaunch (s : State) (n : Nat) (x : Launch) : State := { s with dev := { s.dev with launches := Tab.set s.dev.launches n x } }
/-- The launches that wait on a die for a job slot, in arrival order. -/
def State.queueOf (s : State) (die : Nat) (slot : BitVec 4) : List Nat := Tab.get [] s.dev.launchQ (16 * die + slot.toNat)
/-- Replace a queue. -/
def State.setQueue (s : State) (die : Nat) (slot : BitVec 4) (l : List Nat) : State :=
  { s with dev := { s.dev with launchQ := Tab.set s.dev.launchQ (16 * die + slot.toNat) l } }
/-- The launch waits on some die. -/
def State.queued (s : State) (n : Nat) : Bool := s.dev.launchQ.any (fun e => e.2.contains n)
/-- Flat core number of core 0 of a cluster. -/
def State.flatOf (s : State) (cl : ClusterId) : W64 := BitVec.ofNat 64 (4096 * s.dev.chip.toNat + 8 * cl)

/-- The launch ends for a first cause: its record is due, or the report of its part (R174, R443). -/
def State.endLaunch (s : State) (n : Nat) (status : BitVec 8) (info : W64) : State :=
  let l := s.launch n
  if l.ended then s else (s.setLaunch n { l with ended := true, status := status, info := info }).soon (.completionRecordWrite n)

/-- The launch has nothing left on this chip: it has retired once every other chip has reported; a record that has been
written takes its entry away. -/
def State.checkLaunch (s : State) (n : Nat) : State :=
  let l := s.launch n
  if (Tab.find s.dev.launches n).isNone ∨ !l.gangs.isEmpty ∨ !l.todo.isEmpty ∨ s.queued n then s
  else
    let s := if l.chips.isEmpty ∨ !l.owner then s.endLaunch n 0 0 else s
    if (s.launch n).written then { s with dev := { s.dev with launches := Tab.erase s.dev.launches n } } else s

/-! Completion records (R174). -/

/-- The stores of a context that are not acknowledged, those made before it was discarded among them. -/
def State.storesOf (s : State) (c : CtxId) : List (CtxId × Nat) :=
  (s.ctx c).pend.map (fun p => (c, p.id)) ++ (s.orphans.filter (fun o => o.1 == c)).map (fun o => (c, o.2.1))

/-- These stores have been acknowledged. -/
def State.storesDone (s : State) (l : List (CtxId × Nat)) : Bool := l.all (fun q => !(s.storesOf q.1).contains q)

/-- What the launch has to tell waits for its members' stores; in the chip that queued it, for the other chips too (R174, R443). -/
def State.launchWaits (s : State) (l : Launch) : Bool :=
  !s.storesDone l.drain || (l.owner && l.chips.any (fun c => !s.chipGone c))

/-- The record is written at DONE, at user level in the launch's slot, or a wake tells the queuing die's first steward; another
chip reports its part to the chip that queued the launch. Either waits for the members' stores. -/
def State.doCompletionRecordWrite (s : State) (n : Nat) : State :=
  let l := s.launch n
  let again (s : State) : State := s.later 1 ordLate (.completionRecordWrite n)
  if (Tab.find s.dev.launches n).isNone ∨ !l.ended ∨ l.written then s
  else if s.launchWaits l then again s
  else
    let finish (s : State) : State := (s.setLaunch n { l with written := true }).checkLaunch n
    let wake (s : State) : State := s.now (.wakeArrival (2048 * l.die) ((l.desc.lnum ++ 0#32) + 0x7E410002))
    if !l.owner then finish (s.dieOut l.die l.from_ (.report l.desc.lnum l.status l.info))
    else match s.translateNow l.slot false l.desc.done .w with
    | .error _ => wake (finish s)
    | .ok (pa, _) =>
      if (s.refusedByte pa 16).isSome ∨ s.region pa = .none then wake (finish s)
      else if !s.dirtyReady l.slot l.desc.done then again (s.nudgeLeaf l.slot l.desc.done)
      else if !s.unitCan pa 16 then again (s.nudge pa 16)
      else
        let d0 : W64 := fields [(32, l.status.toNat), (0, l.desc.lnum.toNat)]
        finish ((s.setDirty l.slot l.desc.done).unitWrite pa (leBytes 8 d0.toNat ++ leBytes 8 l.info.toNat))

/-! Posting a launch (R172, R149, R156, R443). -/

/-- The physical positions of a descriptor's rectangle, row by row, with the clusters that are there. -/
def State.rect (s : State) (d : Desc) (die : Nat) : List (Nat × Option ClusterId) :=
  (List.range (d.hm1 + 1)).flatMap (fun y => (List.range (d.wm1 + 1)).map (fun x =>
    let p := 16 * (d.y0 + y) + d.x0 + x
    (p, s.logical die p)))

/-- Why this chip's part of a launch cannot be admitted: STATUS and the second 8 bytes (R156, R174). -/
def State.partFails (s : State) (d : Desc) : Option (BitVec 8 × W64) :=
  let chip := s.dev.chip.toNat
  if d.kind = 3 then
    (([0, 1].find? (fun die => s.nClusters die < d.nc)).map (fun die => (2, s.flatOf (256 * die + s.nClusters die))))
  else
    (((descDies d).flatMap (fun die => (s.rect d die).map (fun q => (die, q)))).find? (fun q => q.2.2.isNone)).map (fun q =>
      (1, fields [(63, 1), (12, chip), (11, q.1), (3, q.2.1)]))

/-- The gangs of this chip's part, each as its clusters, in order of admission. -/
def State.partGangs (s : State) (d : Desc) : List (List ClusterId) :=
  if d.kind = 3 then [0, 1].flatMap (fun die => (List.range d.nc).map (fun i => [256 * die + i]))
  else [(descDies d).flatMap (fun die => (s.rect d die).filterMap (·.2))]

/-- The clusters have seen a launch number (R157). -/
def State.markFloods (s : State) (lnum : BitVec 32) (l : List ClusterId) : State :=
  l.foldl (fun s c => s.setCluster c { s.cluster c with floods := lnum :: (s.cluster c).floods }) s

/-- The gangs of a wide launch that some cluster takes in: each cluster discards a launch number that it has seen (R157). -/
def State.freshGangs (s : State) (d : Desc) : List (List ClusterId) :=
  (s.partGangs d).filter (fun l => l.any (fun c => !(s.cluster c).floods.contains d.lnum))

/-- This chip's part of a launch waits on each die that it covers; the parts are tried in this cycle. -/
def State.queuePart (s : State) (n : Nat) : State :=
  let l := s.launch n
  [0, 1].foldl (fun s die =>
    if l.todo.any (fun c => c.any (fun x => x / 256 == die)) then
      (s.setQueue die l.slot (s.queueOf die l.slot ++ [n])).later 0 ordLate (.gangAdmission die l.slot)
    else s) s

/-- A descriptor that has passed its checks is queued on a die: a wide one is sent to the other chips of its range, and ends at
once where one of them is absent. -/
def State.postLaunch (s : State) (die : Nat) (slot : BitVec 4) (d : Desc) : State :=
  let own := s.dev.chip.toNat
  let n := s.token
  let s := s.tick1
  let others := if descWide d then (descChips d).filter (· != own) else []
  let here := !descWide d || (descChips d).contains own
  let l : Launch := { slot := slot, die := die, desc := d, owner := true, from_ := own }
  let s := s.setLaunch n l
  match (if descWide d then (descChips d).find? s.chipGone else none) with
  | some c => s.endLaunch n 3 (BitVec.ofNat 64 (4096 * c))
  | none =>
    match (if here then s.partFails d else none) with
    | some (st, info) => s.endLaunch n st info
    | none =>
      let s := s.setLaunch n { l with chips := others }
      let s := others.foldl (fun (s : State) c => s.dieOut die c (.flood d.lnum slot d)) s
      if here then
        let todo := if descWide d then s.freshGangs d else s.partGangs d
        let s := if descWide d then s.markFloods d.lnum todo.flatten else s
        ((s.setLaunch n { l with chips := others, todo := todo }).queuePart n).checkLaunch n
      else s

/-- The status of a launch: BADDESC, FULL, or accepted and queued (R172). -/
def State.offerLaunch (s : State) (die : Nat) (slot : BitVec 4) (bs : List Byte) : State × W64 :=
  if !descOk bs then (s, 2)
  else if 64 ≤ (s.dev.launches.filter (fun e => e.2.owner && e.2.die == die && e.2.slot == slot && s.queued e.1)).length then (s, 1)
  else (s.postLaunch die slot (descOf bs), 0)

/-- LAUNCH: the descriptor is read as an acquire, and its status comes 40 cycles after the load's reply (R172). -/
def State.launchOp (s : State) (i : Instr) (d a : BitVec 4) : State :=
  let c := s.cur
  let next (s : State) (bs : List Byte) : State := (s.setMe { s.me with srcBytes := bs }).sendUnit i 0 (1000 + c) (bs.map (·.toNat))
  if s.stage ≠ 0 then
    match s.me.why with
    | .reply _ =>
      if s.me.srcBytes.length = 64 then
        let (s, v) := s.offerLaunch (dieOf c) (s.slotOf c) s.me.srcBytes
        let s := (s.bothOf c).foldl (fun s c => s.setCtx c { s.ctx c with srcBytes := [] }) s
        s.unitReply c 40 { rd := d, wr := true, val := v, bank := true }
      else s.loadBytes i [] next
    | _ => s
  else s.plain i (fun s =>
    if !aligned (s.rd a) 64 then s.trapMe causeMisaccess 0 (s.rd a)
    else s.translateRun (s.rd a) 64 .r (fun s ps _ =>
      if s.mustHold c { op := .load 3, va := s.rd a, size := 64, aq := true } ps then s.wait c .held
      else s.loadBytes i ps next))

def execLaunch (d a : BitVec 4) (s : State) : Host.Outcome State Fault Refusal := .next (s.launchOp (.launch d a) d a)

/-- A wake for a launch of another chip: the clusters that have not seen its number take in its gangs (R157, R443). -/
def State.doWakeFloodArrival (s : State) (l : Link) (slot : BitVec 4) (d : Desc) : State :=
  s.takeLink l (fun s =>
    let todo := s.freshGangs d
    let n := s.token
    let x : Launch := { slot := slot, desc := d, owner := false, from_ := l.chip, todo := todo }
    match s.partFails d with
    | some (st, info) => s.dieOut 0 l.chip (.report d.lnum st info)
    | none => if todo.isEmpty then s else ((s.tick1.setLaunch n x).markFloods d.lnum todo.flatten).queuePart n)

/-- A launch whose gangs have not been opened yet opens no more, and those that are there end. -/
def State.stopLaunch (s : State) (n : Nat) (status : BitVec 8) (info : W64) : State :=
  let l := s.launch n
  let drop (s : State) (die : Nat) : State := s.setQueue die l.slot ((s.queueOf die l.slot).filter (· != n))
  let s := drop (drop (s.setLaunch n { l with todo := [] }) 0) 1
  (l.gangs.foldl (fun s g => s.soon (.gangEnd none g status info)) (s.endLaunch n status info)).checkLaunch n

/-- A chip's part of a launch has ended: the record is due when every chip has reported, and at another cause than retirement a
rick ends as a whole. On a chip that did not queue the launch, its own part ends (R417, R418, R443). -/
def State.doChipPartReport (s : State) (l : Link) (lnum : BitVec 32) (status : BitVec 8) (info : W64) : State :=
  s.takeLink l (fun s =>
    match s.dev.launches.find? (fun e => e.2.desc.lnum == lnum && (if e.2.owner then e.2.chips.contains l.chip else e.2.from_ == l.chip)) with
    | none => s
    | some (n, x) =>
      if x.owner then
        let s := s.setLaunch n { x with chips := x.chips.filter (· != l.chip) }
        if status = 0 then s.checkLaunch n
        else if x.desc.kind = 2 then s.stopLaunch n status info
        else (s.endLaunch n status info).checkLaunch n
      else s.stopLaunch n status info)

/-! Admission (R154, R155, R157). -/

/-- Context of grain i of a cluster. -/
def grainCtx (cl : ClusterId) (i : Nat) : CtxId := 128 * cl + 16 * (i % 8) + 1 + i / 8

/-- One grain's context is reserved for a gang when it is Stopped: it is Held with its starting state. The two low bits of ENTRY are
taken as 0 (DESIGN CHOICE, log entry 66). -/
def State.reserveCtx (s : State) (g : Nat) (x : Gang) (c : CtxId) (i : Nat) : State :=
  if (s.ctx c).st = .stopped ∧ !s.oddTwin c then
    let y := s.freshCtx c (x.desc.entry &&& ~~~3#64) false x.slot [(1, x.desc.arg), (2, BitVec.ofNat 64 i)]
    let s := s.startCtx c { y with st := .held, gang := some g }
    s.setGang g { s.gang g with members := (s.gang g).members ++ [c] }
  else s

/-- The Loom is reserved for a gang with a weave when it is stopped, in no gang, and not retired. -/
def State.reserveLoom (s : State) (g : Nat) (x : Gang) (cl : ClusterId) : State :=
  let l := s.loom cl
  if x.desc.wv ∧ l.st = .stopped ∧ l.gang.isNone ∧ !(s.cluster cl).retired then s.setLoom cl { l with gang := some g } else s

/-- The admission of a sheaf with a weave copies the weave image buffer into the weave store (R465). -/
def State.copyImage (s : State) (x : Gang) (cl : ClusterId) : State :=
  if x.desc.wv then s.setLoom cl { s.loom cl with store := (s.cluster cl).image } else s

/-- A cluster's sheaf is wholly reserved. -/
def State.sheafReady (s : State) (g : Nat) (cl : ClusterId) : Bool :=
  let x := s.gang g
  (List.range x.desc.gpc).all (fun i => (s.ctx (grainCtx cl i)).gang == some g) && (!x.desc.wv || (s.loom cl).gang == some g)

/-- What of a gang can be reserved on a die is, and what has been is kept; its clusters wholly reserved leave the want list. -/
def State.reserve (s : State) (g die : Nat) : State :=
  let x := s.gang g
  let mine := x.want.filter (fun c => c / 256 == die)
  let s := mine.foldl (fun (s : State) cl =>
    let s := (List.range x.desc.gpc).foldl (fun s i =>
      if (s.ctx (grainCtx cl i)).gang = some g then s else s.reserveCtx g x (grainCtx cl i) i) s
    if (s.loom cl).gang = some g then s else s.reserveLoom g x cl) s
  let s := mine.foldl (fun (s : State) cl => if s.sheafReady g cl then s.copyImage x cl else s) s
  s.setGang g { s.gang g with want := x.want.filter (fun c => c / 256 != die || !s.sheafReady g c) }

/-- Domain time at this cycle is still before a time. -/
def State.before (s : State) (t : W64) : Nat := if s.dtimeNow.toNat < t.toNat then t.toNat - s.dtimeNow.toNat else 0

/-- A gang of a launch begins to be reserved; the leader of a rick proposes its start (R417). -/
def State.openGang (s : State) (n : Nat) (cls : List ClusterId) : State :=
  let l := s.launch n
  let g := s.token
  let tok := g + 1
  let s := s.tick1.tick1
  let rick := l.desc.kind == 2
  let x : Gang := { launch := n, slot := l.slot, die := cls.headD 0 / 256, cls := cls, want := cls, desc := l.desc, rick := rick
                    start := s.dtimeNow + BitVec.ofNat 64 s.dev.lead.toNat, token := tok }
  let s := s.setGang g x
  let s := s.setLaunch n { l with gangs := l.gangs ++ [g], todo := l.todo.filter (· != cls) }
  if rick ∧ l.desc.c0 = s.dev.chip.toNat then
    s.later (s.dev.lead.toNat - s.dev.guard.toNat) ordReply (.rickGuardExpiry g tok)
  else s

/-- Every member of a gang is reserved: a sheaf is released at the next multiple of 16, a stook 40 cycles on, and a rick's chip
reports READY (R154, R417). -/
def State.admitGang (s : State) (g : Nat) : State :=
  let x := s.gang g
  let s := s.setGang g { x with admitted := true }
  match x.desc.kind.toNat with
  | 0 => s.eventAt (s.next16 x.die s.cycle) ordReply (.sheafRelease g)
  | 2 => s.soon (.rickReady s.dev.chip.toNat g none)
  | _ => s.eventAt (s.next16 x.die (s.cycle + 40)) ordReply (.stookRelease g)

/-- The queue of a job slot on a die is worked from its oldest launch, as far as gangs can be admitted. Each die works its own queue:
the ascending stook order of one crop is kept on each die and not across the two (DESIGN CHOICE, log entry 66). -/
def State.workQueue (s : State) (die : Nat) (slot : BitVec 4) : Nat → State
  | 0 => s
  | f + 1 =>
    match s.queueOf die slot with
    | [] => s
    | n :: t =>
      let l := s.launch n
      let onDie (c : List ClusterId) : Bool := c.any (fun x => x / 256 == die)
      match l.gangs.find? (fun g => onDie (s.gang g).want) with
      | some g =>
        let s := s.reserve g die
        if onDie (s.gang g).want then s
        else (if (s.gang g).want.isEmpty then s.admitGang g else s).workQueue die slot f
      | none =>
        match l.todo.find? onDie with
        | some cls => (s.openGang n cls).workQueue die slot f
        | none => ((s.setQueue die slot t).checkLaunch n).workQueue die slot f

/-- An attempt at admission on a die for a job slot. -/
def State.doGangAdmission (s : State) (die : Nat) (slot : BitVec 4) : State :=
  let q := s.queueOf die slot
  s.workQueue die slot (2 * (q.map (fun n => (s.launch n).todo.length + (s.launch n).gangs.length + 1)).sum + 1)

/-! Release (R154). -/

/-- Every member becomes Issuing and every member Loom starts its weave in this cycle; a gang that is being pre-empted keeps
its release for the restore. -/
def State.releaseGang (s : State) (g : Nat) (e : Ev) : State :=
  let x := s.gang g
  if (Tab.find s.dev.gangs g).isNone ∨ x.released then s
  else if x.pre ≠ 0 then s.keepEvent g e
  else
    let s := s.setGang g { x with released := true }
    let s := x.members.foldl (fun s c =>
      if (s.ctx c).st = .held ∧ (s.ctx c).gang = some g then
        (s.bothOf c).foldl (fun s c => s.setCtx c { s.ctx c with st := .issuing, readyAt := s.cycle }) s
      else s) s
    if x.desc.wv then
      x.cls.foldl (fun s cl =>
        if (s.loom cl).gang = some g then
          let s := s.startWeave cl (x.desc.wentry.setWidth 16) x.slot
          if s.slotted then s.eventAt s.cycle 80000 (.bundleDispatch cl) else s
        else s) s
    else s

/-! Retirement (R155). -/

/-- A gang leaves the chip: its members, ended or discarded, belong to no gang, and its launch is looked at. -/
def State.dropGang (s : State) (g : Nat) : State :=
  let x := s.gang g
  let stores := (x.members.flatMap s.bothOf).flatMap s.storesOf
  let s := (x.members.flatMap s.bothOf).foldl (fun s c => if (s.ctx c).gang = some g then s.setCtx c { s.ctx c with gang := none } else s) s
  let s := x.cls.foldl (fun s cl => if (s.loom cl).gang = some g ∧ (s.loom cl).st = LoomState.stopped then s.setLoom cl { s.loom cl with gang := none } else s) s
  let s := { s with dev := { s.dev with gangs := Tab.erase s.dev.gangs g } }
  let l := s.launch x.launch
  let s := if (Tab.find s.dev.launches x.launch).isNone then s
    else s.setLaunch x.launch { l with gangs := l.gangs.filter (· != g), drain := l.drain ++ stores }
  s.checkLaunch x.launch

/-- A member or a weave of a gang has ended: its barriers are looked at, and the gang retires when all have. -/
def State.doGangRetire (s : State) (g : Nat) : State :=
  if (Tab.find s.dev.gangs g).isNone then s
  else
    let s := s.checkBarriers g
    let x := s.gang g
    if x.released ∧ x.pre = 0 ∧ x.members.all (s.hasEnded g) ∧ x.cls.all (fun cl => (s.loom cl).gang != some g) then s.dropGang g
    else s

def execGangAdmission (s : State) : Host.Outcome State Fault Refusal :=
  .next (match s.ev with
    | .gangAdmission d j => s.doGangAdmission d j
    | _ => s)
def execSheafRelease (s : State) : Host.Outcome State Fault Refusal :=
  .next (match s.ev with
    | .sheafRelease g => s.releaseGang g (.sheafRelease g)
    | _ => s)
def execStookRelease (s : State) : Host.Outcome State Fault Refusal :=
  .next (match s.ev with
    | .stookRelease g => s.releaseGang g (.stookRelease g)
    | _ => s)
def execGangRetire (s : State) : Host.Outcome State Fault Refusal :=
  .next (match s.ev with
    | .gangRetire g => s.doGangRetire g
    | _ => s)
def execCompletionRecordWrite (s : State) : Host.Outcome State Fault Refusal :=
  .next (match s.ev with
    | .completionRecordWrite n => s.doCompletionRecordWrite n
    | _ => s)
def execWakeFloodArrival (s : State) : Host.Outcome State Fault Refusal :=
  .next (match s.ev with
    | .wakeFloodArrival l j d => s.doWakeFloodArrival l j d
    | _ => s)
def execChipPartReport (s : State) : Host.Outcome State Fault Refusal :=
  .next (match s.ev with
    | .chipPartReport l n st info => s.doChipPartReport l n st info
    | _ => s)

end Sys2Proof.Machine
end

