-- ==== Sys2Proof/Machine/Winnow.lean ====
section
/-!
DEFINITION. The Winnow units, which form groups of constraints that name no common body, and the monitor unit of each cluster
(R384, R385, R391 to R400).
-/

namespace Sys2Proof.Machine

/-! The unit (R391, R395). -/

/-- The Winnow unit of a slice. -/
def State.winnow (s : State) (u : SliceId) : Winnow := (s.slice u).win
/-- Replace it. -/
def State.setWinnow (s : State) (u : SliceId) (w : Winnow) : State := s.setSlice u { s.slice u with win := w }

/-- The handle of a bound unit. -/
def winHandle (u : SliceId) (w : Winnow) : W64 := BitVec.ofNat 64 (w.gen.toNat * 65536 + u)

/-- The handle is current for a job slot. -/
def State.winCurrent (s : State) (slot : BitVec 4) (h : W64) : Bool :=
  let u := h.toNat % 128
  (s.winnow u).slot == some slot && h.toNat / 128 % 512 == 0 && (s.winnow u).gen == h.extractLsb' 16 16

/-- Bucket of a body. -/
def bucket (b : BitVec 32) : Nat := (b * 0x9E6B5A13).toNat / 2 ^ 20

/-- The occupancy set holds a body. -/
def Winnow.holds (w : Winnow) (b : BitVec 32) : Bool := (Tab.get [] w.occ (bucket b)).contains b

/-- A body put in the set. -/
def Winnow.put (w : Winnow) (b : BitVec 32) : Winnow :=
  { w with occ := Tab.set w.occ (bucket b) (Tab.get [] w.occ (bucket b) ++ [b]) }
/-- A body taken out of the set. -/
def Winnow.take (w : Winnow) (b : BitVec 32) : Winnow :=
  { w with occ := Tab.set w.occ (bucket b) ((Tab.get [] w.occ (bucket b)).erase b) }

/-- The bodies enter the set one after another, none held before and each with a way free; none when one conflicts. -/
def Winnow.place (w : Winnow) : List (BitVec 32) → Option Winnow
  | [] => some w
  | b :: t =>
    if w.holds b ∨ 4 ≤ (Tab.get [] w.occ (bucket b)).length then none else (w.put b).place t

/-- The pending entries. -/
def Winnow.pending (w : Winnow) : List WinEnt := w.win.filter (fun e => e.issued.isNone)

/-- One scan of the pending entries in arrival order: the unit after it, the entries issued, and how many were scanned. -/
def scanGroup (g : Nat) : List WinEnt → Winnow → List WinEnt → Nat → Winnow × List WinEnt × Nat
  | [], w, got, n => (w, got, n)
  | e :: t, w, got, n =>
    if 64 ≤ got.length then (w, got, n)
    else match w.place e.bodies with
      | none => scanGroup g t w got (n + 1)
      | some w =>
        let w := { w with win := w.win.map (fun x => if x.no == e.no then { x with issued := some (g, got.length) } else x) }
        scanGroup g t w (got ++ [e]) (n + 1)

/-- A group as WPULL forms it: the unit, the group identifier, its entries in order, and the entries scanned; none when no
pending entry fits (R396). -/
def Winnow.form (w : Winnow) : Option (Winnow × Nat × List WinEnt × Nat) :=
  let g := ((List.range 256).find? (fun i => !(Tab.get (0, 0, false) w.groups i).2.2)).getD 0
  let gen := (Tab.get (0, 0, false) w.groups g).1 + 1
  let (v, got, n) := scanGroup g w.pending w [] 0
  if got.isEmpty then none
  else some ({ v with groups := Tab.set v.groups g (gen, got.length, true) }, gen.toNat * 256 + g, got, n)

/-- The dwords of a group record (R396). -/
def groupRecord (gid : Nat) (got : List WinEnt) : List Byte :=
  leBytes 8 (got.length + gid * 65536) ++ got.flatMap (fun e => leBytes 8 e.tag.toNat)

/-- The record is written by stores; a piece refused at its bank is not written, and counts once (R385). -/
def State.writeGroup (s : State) (c : CtxId) : List Piece → List Byte → State
  | [], _ => s
  | p :: t, bs =>
    let b := bs.take p.len
    if b.isEmpty then s
    else if (s.refusedByte p.pa b.length).isSome then
      (s.writeGroup c t (bs.drop p.len))
    else (s.unitWrite p.pa b).writeGroup c t (bs.drop p.len)

/-- Some piece of a record is refused. -/
def State.groupRefused (s : State) (ps : List Piece) (n : Nat) : Bool :=
  (ps.foldl (fun (acc : Nat × Bool) p => (acc.1 - p.len, acc.2 || (s.refusedByte p.pa (min p.len acc.1)).isSome)) (n, false)).2

/-- Cycles between a context and a unit, one way (R391). -/
def State.toUnit (s : State) (c : CtxId) (u : SliceId) : Nat := s.toSlice (clusterOf c) u

/-- A WPULL is tried: EMPTY, or a group with its record written and its reply on its way, an acquire; none when it must wait
(R396, R398). -/
def State.tryPull (s : State) (u : SliceId) (q : PullReq) : Option State :=
  let w := s.winnow u
  let back (s : State) (extra : Nat) (v : W64) (acq : Bool) : State :=
    s.later (s.toUnit q.who u + extra) ordReply (.replyArrival q.who { id := q.id, rd := q.rd, wr := true, val := v, bank := acq, did := true })
  if w.pending.isEmpty then some (back s 0 (failCode 4) false)
  else match w.form with
    | none => none
    | some (w, gid, got, scanned) =>
      let bs := groupRecord gid got
      let bad := s.groupRefused q.pas bs.length
      let s := (s.setWinnow u w).writeGroup q.who q.pas bs
      let s := if bad then s.count q.who cRefused else s
      some (back s ((scanned + 3) / 4 + got.length) (BitVec.ofNat 64 (gid + got.length * 65536)) true)

/-- A group that a WPULL would form must wait for the lines of its record, so that the record stands before the reply (R396): what
that wait sets off. -/
def State.pullHeld (s : State) (u : SliceId) (q : PullReq) : Option State :=
  match (s.winnow u).form with
  | none => none
  | some (_, _, got, _) =>
    let n := 8 + 8 * got.length
    let busy := (q.pas.foldl (fun (acc : Nat × List Piece) p =>
      let m := min p.len acc.1
      (acc.1 - m, if m = 0 ∨ s.unitCan p.pa m then acc.2 else acc.2 ++ [{ pa := p.pa, len := m }])) (n, [])).2
    if busy.isEmpty then none else some (busy.foldl (fun s p => s.nudge p.pa p.len) s)

/-- Waiting WPULLs form their groups in arrival order until one must wait on (R396). One whose record's lines are not free holds the
unit, and is looked at again in the next cycle. -/
def State.servePulls (s : State) (u : SliceId) : Nat → State
  | 0 => s
  | n + 1 =>
    match (s.winnow u).pulls with
    | [] => s
    | q :: t =>
      if !(s.ctx q.who).awaits q.id then (s.setWinnow u { s.winnow u with pulls := t }).servePulls u n
      else match s.pullHeld u q with
      | some s =>
        (s.setWinnow u { s.winnow u with at_ := s.cycle + 2 }).schedule (s.cycle + 1) (1000 + q.who) q.who 2 (.wpull q.rd 0 0 false 0)
      | none => match s.tryPull u q with
        | none => s
        | some s => (s.setWinnow u { s.winnow u with pulls := t }).servePulls u n

/-- A unit becomes free: its generation rises, and waiting WPULLs receive STALE (R393). -/
def State.freeWinnow (s : State) (u : SliceId) : State :=
  let w := s.winnow u
  let s := w.pulls.foldl (fun s q =>
    s.later (s.toUnit q.who u) ordReply (.replyArrival q.who { id := q.id, rd := q.rd, wr := true, val := failCode 2, did := true })) s
  s.setWinnow u { gen := w.gen + 1, at_ := w.at_, groups := Tab.mapVal (fun g => (g.1, 0, false)) w.groups }

/-- The instruction is served at its unit, one request a cycle in order of grain context number. -/
def State.atWinnow (s : State) (i : Instr) (u : SliceId) (sig : List Nat) (f : State → State) : State :=
  let c := s.cur
  s.atUnit i (s.toUnit c u) (1000 + c) sig (fun s =>
    if s.cycle < (s.winnow u).at_ then s.schedule (s.cycle + 1) (1000 + c) c 1 i
    else f (s.setWinnow u { s.winnow u with at_ := s.cycle + 1 }))

/-- The unit's answer to the running context. -/
def State.winReply (s : State) (u : SliceId) (d : BitVec 4) (v : W64) : State :=
  s.unitReply s.cur (s.toUnit s.cur u) { rd := d, wr := true, val := v }

/-! WBIND (R393). The part has every slice (log entry 4), so no unit is absent. -/

/-- WBIND at its unit. -/
def State.wbindAt (s : State) (d a : BitVec 4) : State :=
  let u := (s.rd a).toNat % 128
  let w := s.winnow u
  if w.slot.isSome then s.winReply u d (failCode 6)
  else
    let w := { w with slot := some (s.slotOf s.cur), win := [], occ := [], pulls := [], next := 0
                      groups := Tab.mapVal (fun g => (g.1, 0, false)) w.groups }
    (s.setWinnow u w).winReply u d (winHandle u w)

/-- Unbinding at the unit. -/
def State.wunbindAt (s : State) (d a : BitVec 4) : State :=
  let h := s.rd a
  let u := h.toNat % 128
  let w := s.winnow u
  if !s.winCurrent (s.slotOf s.cur) h then s.winReply u d (failCode 2)
  else if !w.win.isEmpty ∨ !w.pulls.isEmpty then s.winReply u d (failCode 7)
  else (s.freeWinnow u).winReply u d 0

def execWbind (d a b : BitVec 4) (s : State) : Host.Outcome State Fault Refusal :=
  .next (s.plain (.wbind d a b) (fun s =>
    s.atWinnow (.wbind d a b) ((s.rd a).toNat % 128) [(s.rd a).toNat % 128, 0] (fun s => s.wbindAt d a)))
def execWbindUnbind (d a b : BitVec 4) (s : State) : Host.Outcome State Fault Refusal :=
  .next (s.plain (.wbindUnbind d a b) (fun s =>
    s.atWinnow (.wbindUnbind d a b) ((s.rd a).toNat % 128) [(s.rd a).toNat % 2 ^ 32, 1] (fun s => s.wunbindAt d a)))

/-! WPUSH (R394). -/

/-- The record enters the window: STALE, BADREC, FULL, or its place. -/
def State.wpushAt (s : State) (d b : BitVec 4) (rcd : List Byte) : State :=
  let h := s.rd b
  let u := h.toNat % 128
  let w := s.winnow u
  if !s.winCurrent (s.slotOf s.cur) h then s.winReply u d (failCode 2)
  else if dwordAt rcd 3 ≠ 0 then s.winReply u d (failCode 3)
  else if 256 ≤ w.win.length then s.winReply u d (failCode 1)
  else
    let bodies := ((List.range 4).map (fun i => BitVec.ofNat 32 (leNat ((rcd.drop (4 * i)).take 4)))).eraseDups.filter (· != 0xFFFFFFFF)
    let e : WinEnt := { no := w.next, bodies := bodies, tag := dwordAt rcd 2 }
    let s := s.setWinnow u { w with win := w.win ++ [e], next := w.next + 1 }
    (s.winReply u d (BitVec.ofNat 64 (w.win.length + 1))).servePulls u (w.pulls.length + 1)

/-- WPUSH at its unit: gH, then the record read as a load of the grain, then the rest (R394). -/
def State.wpushRead (s : State) (i : Instr) (d b : BitVec 4) : State :=
  let c := s.cur
  let h := s.rd b
  match s.me.load with
  | none => s
  | some q =>
    if !s.winCurrent (s.slotOf c) h then (s.setMe { s.me with load := none }).wpushAt d b []
    else
      let p := q.pieces.headD {}
      let (s, got) := s.unitRead q.pieces q.id []
      if got.done then
        let s := if s.lentAway p.pa ∨ (s.region p.pa).outside then s else s.raiseCt (coreOf c) (s.latestWts p.pa)
        (s.setMe { s.me with load := none }).wpushAt d b got.buf
      else (s.setMe { s.me with load := some { q with id := got.ext } }).schedule (s.cycle + 1) (1000 + c) c 1 i

/-- WPUSH: the record's alignment and translation, the release, and the request; the unit reads the record. -/
def State.wpush (s : State) (i : Instr) (d a b : BitVec 4) (dc : Bool) (cls : BitVec 4) : State :=
  let c := s.cur
  let ga := s.rd a
  let go (s : State) : State :=
    s.atWinnow i ((s.rd b).toNat % 128) [ga.toNat, (s.rd b).toNat % 2 ^ 32] (fun s => s.wpushRead i d b)
  if s.stage ≠ 0 then go s
  else s.plain i (fun s =>
    if !aligned ga 32 then s.trapMe causeMisaccess 0 ga
    else s.translate ga .r (fun s pa _ =>
      let ps : List Piece := [{ pa := pa, len := 32 }]
      s.drained i (fun s =>
        if s.mustHold c { op := .load 3, va := ga, size := 32, cls := s.me.cls dc cls } ps then s.wait c .held
        else go (s.setMe { s.me with load := some { pieces := ps } }))))

def execWpush (d a b : BitVec 4) (dc : Bool) (cls : BitVec 4) (s : State) : Host.Outcome State Fault Refusal :=
  .next (s.wpush (.wpush d a b dc cls) d a b dc cls)

/-! WPULL (R396). -/

/-- WPULL at its unit. -/
def State.wpullAt (s : State) (i : Instr) (d b : BitVec 4) : State :=
  let c := s.cur
  let h := s.rd b
  let u := h.toNat % 128
  match s.me.load with
  | none => s
  | some r =>
    let q : PullReq := { who := c, id := s.me.token, rd := d, pas := r.pieces }
    let taken (s : State) : State := s.setMe { s.me with load := none }
    if !s.winCurrent (s.slotOf c) h then (taken s).winReply u d (failCode 2)
    else match s.pullHeld u q with
    | some s => s.schedule (s.cycle + 1) (1000 + c) c 1 i
    | none =>
      let s := taken s
      match s.tryPull u q with
      | some s => s
      | none =>
        let w := s.winnow u
        ((s.setWinnow u { w with pulls := w.pulls ++ [q] }).park c .dispatchWait (.unit q.id)).watch c

/-- The unit at which a waiting WPULL of a context stands looks at its waiting WPULLs again (R396). -/
def State.pullAgain (s : State) (c : CtxId) : State :=
  match (List.range 128).find? (fun u => (s.winnow u).pulls.any (fun q => q.who == c)) with
  | none => s
  | some u => (s.setWinnow u { s.winnow u with at_ := s.cycle + 1 }).servePulls u ((s.winnow u).pulls.length + 1)

/-- WPULL: the whole record of 520 bytes is translated and checked for refusal, then the request leaves (R385). Stage 2 is the second
look at a waiting one. -/
def State.wpull (s : State) (i : Instr) (d a b : BitVec 4) (dc : Bool) (cls : BitVec 4) : State :=
  let c := s.cur
  let ga := s.rd a
  let go (s : State) : State := s.atWinnow i ((s.rd b).toNat % 128) [ga.toNat, (s.rd b).toNat % 2 ^ 32] (fun s => s.wpullAt i d b)
  if s.stage = 2 then s.pullAgain c
  else if s.stage ≠ 0 then go s
  else s.plain i (fun s =>
    if !aligned ga 8 ∨ wraps ga 520 then s.trapMe causeMisaccess 0 ga
    else s.translateRun ga 520 .w (fun s ps _ =>
      match s.refusedVa ga ps with
      | some va => (s.count c cRefused).trapMe causeRefusal 0 va
      | none =>
      if s.mustHold c { op := .store, va := ga, size := 520, cls := s.me.cls dc cls } ps then s.wait c .held
      else go (s.setMe { s.me with load := some { pieces := ps } })))

def execWpull (d a b : BitVec 4) (dc : Bool) (cls : BitVec 4) (s : State) : Host.Outcome State Fault Refusal :=
  .next (s.wpull (.wpull d a b dc cls) d a b dc cls)

/-! WDONE (R397). -/

/-- An issued entry is retired: its bodies leave the set and its place in the window is free. -/
def Winnow.retire (w : Winnow) (e : WinEnt) : Winnow :=
  { (e.bodies.foldl Winnow.take w) with win := w.win.filter (fun x => x.no != e.no) }

/-- WDONE at its unit. -/
def State.wdoneAt (s : State) (d a b : BitVec 4) : State :=
  let h := s.rd a
  let u := h.toNat % 128
  let w := s.winnow u
  let g := bitsAt h 32 8
  let (gen, _, used) := Tab.get (0, 0, false) w.groups g
  if !s.winCurrent (s.slotOf s.cur) h then s.winReply u d (failCode 2)
  else if !used ∨ gen.toNat ≠ bitsAt h 40 8 then s.winReply u d (failCode 5)
  else
    let m := s.rd b
    let done := w.win.filter (fun e => match e.issued with
      | some (k, p) => k == g && p < 64 && m.getLsbD p
      | none => false)
    let w := done.foldl Winnow.retire w
    let left := w.win.any (fun e => match e.issued with
      | some (k, _) => k == g
      | none => false)
    let w := if left then w else { w with groups := Tab.set w.groups g (gen, 0, false) }
    ((s.setWinnow u w).winReply u d (BitVec.ofNat 64 done.length)).servePulls u (w.pulls.length + 1)

def execWdone (d a b : BitVec 4) (s : State) : Host.Outcome State Fault Refusal :=
  let i : Instr := .wdone d a b
  let go (s : State) : State :=
    s.atWinnow i ((s.rd a).toNat % 128) [(s.rd a).toNat % 2 ^ 48, (s.rd b).toNat] (fun s => s.wdoneAt d a b)
  .next (if s.stage = 0 then s.plain i (fun s => s.drained i go) else go s)

/-! The monitor unit (R399, R400). -/

/-- Bin of a sample. -/
def Monitor.bin (m : Monitor) (x : BitVec 32) : Nat :=
  if x.ult m.base then 0 else Nat.min 15 ((x.toNat - m.base.toNat) / 2 ^ m.shift.toNat)

/-- The statistics after one sample; each saturates with its flag. -/
def Monitor.sample (m : Monitor) (x : BitVec 32) : Monitor :=
  let b := m.bin x
  let c := m.bins.getD b 0
  { m with
    min := if x.ult m.min then x else m.min
    max := if m.max.ult x then x else m.max
    sum := if m.sum.toNat + x.toNat < 2 ^ 48 then BitVec.ofNat 48 (m.sum.toNat + x.toNat) else -1
    sumSat := m.sumSat || 2 ^ 48 ≤ m.sum.toNat + x.toNat
    cnt := if m.cnt = -1 then m.cnt else m.cnt + 1
    cntSat := m.cntSat || m.cnt == -1
    bins := m.bins.set b (if c = -1 then c else c + 1)
    binSat := if c = -1 then m.binSat ||| (1#16 <<< b) else m.binSat }

/-- A sample reaches the monitor; none is taken while FRZ is 1. -/
def State.doMonitorSample (s : State) (cl : ClusterId) (x : BitVec 32) : State :=
  let y := s.cluster cl
  if y.mon.frz then s else s.setCluster cl { y with mon := y.mon.sample x }

def execMonitorSample (s : State) : Host.Outcome State Fault Refusal :=
  .next (match s.ev with
    | .monitorSample cl x => s.doMonitorSample cl x
    | _ => s)

/-- MSAMP (R400). -/
def State.msamp (s : State) (d a : BitVec 4) : State :=
  let cl := clusterOf s.cur
  let m := (s.cluster cl).mon
  if m.src ≠ 1 then s.put d 1
  else if m.frz then s.put d 2
  else (s.put d 0).now (.monitorSample cl ((s.rd a).setWidth 32))

def execMsamp (d a : BitVec 4) (s : State) : Host.Outcome State Fault Refusal :=
  .next (s.plain (.msamp d a) (fun s => s.msamp d a))

end Sys2Proof.Machine
end

