-- ==== Sys2Proof/Machine/Preempt.lean ====
section
/-!
DEFINITION. Gang pre-emption, the save and restore of a cluster, the start of a rick, and the end of a gang or job slot (R413 to
R418, R447).
-/

namespace Sys2Proof.Machine

/-! Context records (R160, R416). -/

/-- TCAUSE of a context's own trap state. -/
def State.tcauseOf (s : State) (c : CtxId) : W64 :=
  let x := s.ctx c
  fields [(63, (x.st == CtxState.trapped).toNat), (40, x.tclass.toNat), (16, (s.slotOf c).toNat), (8, x.tcause.toNat), (4, x.epriv.toNat)
        , (0, ctxNo c)]

/-- The 512 bytes of a context record, with a state code. -/
def State.ctxRecord (s : State) (c : CtxId) (code : Nat) : List Byte :=
  let x := s.ctx c
  let live := (~~~x.dead).toNat / 2 % 2 ^ 15
  let d0 : W64 := fields [(52, s.dev.inc.toNat), (32, live), (28, (s.slotOf c).toNat), (0, x.lgn.toNat)]
  let d2 : W64 := fields [(32, x.tmask.toNat / 2), (0, (s.gsr32 c).toNat)]
  let regs := x.liveRegs.map (fun n => x.g.toArray.getD n 0)
  let head := (d0 :: x.pc :: d2 :: regs ++ List.replicate 18 0#64).take 18
  let mid : List W64 := [fields [(32, x.btmo.toNat), (0, code)], x.tepc, x.tia, x.tval, s.tcauseOf c] ++ List.replicate 9 0#64
  let evc := (List.range 16).map (fun n => (x.evc.nth n).read)
  (head ++ mid ++ evc ++ List.replicate 16 0#64).flatMap (fun d => leBytes 8 d.toNat)

/-- The state code of a record. -/
def recordCode (bs : List Byte) : Nat := bitsAt (dwordAt bs 18) 0 4

/-- A context as a record gives it; its state is set by what loads it. -/
def State.ctxOfRecord (s : State) (c : CtxId) (bs : List Byte) : Ctx :=
  let d := dwordAt bs
  let live : BitVec 16 := BitVec.ofNat 16 (2 * bitsAt (d 0) 32 15)
  let x : Ctx := { ({} : Ctx) with
    epoch := (s.ctx c).epoch + 1, num := (s.ctx c).num
    pc := d 1 &&& ~~~3#64, slot := (d 0).extractLsb' 28 4, lgn := (d 0).extractLsb' 0 28, dead := deadOf live
    tmask := BitVec.ofNat 16 (2 * bitsAt (d 2) 32 15), btmo := (d 18).extractLsb' 32 32
    tepc := d 19, tia := d 20, tval := d 21, tcause := (d 22).extractLsb' 8 8, tclass := (d 22).extractLsb' 40 8, epriv := (d 22).getLsbD 4
    evc := (List.range 16).map (fun n => { sat := (d (32 + n)).getLsbD 32, count := (d (32 + n)).setWidth 32 }) }
  (x.setGsr ((d 2).setWidth 32)).putRegs ((List.range 16).filter (fun n => live.getLsbD n)) ((List.range 15).map (fun n => d (3 + n)))

/-! The request (R413). -/

/-- Pre-emption of a gang is requested from a cluster: the request reaches its clusters here, and the chips of a wide one. -/
def State.requestPreempt (s : State) (from_ : ClusterId) (why : BitVec 2) (g : Nat) : State :=
  let x := s.gang g
  if (Tab.find s.dev.gangs g).isNone ∨ x.pre ≠ 0 then s
  else
    let no := s.token
    let s := s.tick1.setGang g { x with pre := why, preNo := no, reached := [], reported := [], stoppedOn := [], savedCl := [] }
    let s := x.cls.foldl (fun (s : State) cl =>
      s.later (20 + 2 * s.dist from_ cl + (if from_ / 256 = cl / 256 then 0 else 60)) ordReply (.preemptRequestArrival g cl none)) s
    if descWide x.desc ∧ x.rick then
      ((descChips x.desc).filter (· != s.dev.chip.toNat)).foldl (fun (s : State) c => s.dieOut (from_ / 256) c (.preempt x.desc.lnum)) s
    else s

/-- The contexts of a gang in a cluster: its members, and the odd twins of those that have one (R423). -/
def State.bodiesIn (s : State) (g : Nat) (cl : ClusterId) : List CtxId := (s.membersIn g cl).flatMap s.bothOf

/-- Every member of a gang in a cluster is at a boundary. -/
def State.allAtBoundary (s : State) (g : Nat) (cl : ClusterId) : Bool :=
  (s.bodiesIn g cl).all (fun c => (s.ctx c).gang != some g || (s.ctx c).st.atBoundary)

/-- Places at the end of a cycle: the look at members, and the stop. -/
def ordLook : Nat := 170000

/-- The request at a cluster: its members at a boundary stay, the watchdog of each core starts, and the cluster reports in the
cycle after its last member has reached a boundary. Later looks are this event again. -/
def State.doPreemptRequestArrival (s : State) (g : Nat) (cl : ClusterId) : State :=
  let x := s.gang g
  if (Tab.find s.dev.gangs g).isNone ∨ !x.cls.contains cl ∨ x.reported.contains cl then s
  else if !x.reached.contains cl then
    let no := if x.pre = 0 then s.token else x.preNo
    let s := s.tick1.setGang g { x with reached := x.reached ++ [cl], pre := if x.pre = 0 then 1 else x.pre, preNo := no }
    let cores := ((s.bodiesIn g cl).map coreOf).eraseDups
    let s := cores.foldl (fun (s : State) k =>
      let lim := (s.core k).wdPre.toNat
      if lim = 0 then s else s.later (1024 * lim) ordLate (.watchdogPreExpiry k g no)) s
    s.later 0 ordLook (.preemptRequestArrival g cl none)
  else if s.allAtBoundary g cl then
    let rep := x.reported ++ [cl]
    let s := s.setGang g { x with reported := rep }
    let die := cl / 256
    if (s.stookOf g cl).all rep.contains then s.later (1 + x.span + 6) (ordLook + 1) (.gangStop g die) else s
  else s.later 1 ordLook (.preemptRequestArrival g cl none)

/-! The stop (R413, R414, R372). -/

/-- A reply that will end a context's wait is kept for the restore. -/
def Gang.keeps (x : Gang) (c : CtxId) (y : Ctx) : Bool := x.kept.any (fun e => match e with
  | .replyArrival k r => k == c && y.awaits r.id
  | _ => false)

/-- A member's parked request, or its wait at a unit, is withdrawn, unless its end is on its way; its instruction will be
executed again. -/
def State.stopMember (s : State) (g : Nat) (c : CtxId) : State :=
  let x := s.ctx c
  let s := s.dropResv c
  if (x.st = .parked ∨ (x.st = .dispatchWait ∧ x.why ≠ .barrier)) ∧ !(s.gang g).keeps c x ∧ !s.performedFor c then
    let s := s.withdraw c
    s.setCtx c { s.ctx c with why := .none }
  else s

/-- The WALKs of a cluster go no further than an interruptible point; one that waits for pool room is at one (R372). -/
def State.haltWalks (s : State) (cl : ClusterId) : State :=
  let put (j : Job) : Job := if j.used && j.cl == cl && cardKind j.card == 4 then { j with halted := true } else j
  let s := { s with dev := { s.dev with jobs := Tab.mapVal put s.dev.jobs } }
  match (s.cluster cl).walk with
  | some w =>
    if w.step = WStep.o ∧ w.ph = 2 then
      let x := s.cluster cl
      let q := x.openQ.filter (fun r => r.who.isSome)
      let s := s.setCluster cl { x with openQ := q, walk := some { w with ph := 0, stopped := true } }
      if q.isEmpty then s.unschedule (fun e => e.act == .ev (.pressureSeal cl)) else s
    else s
  | none => s

/-- A member Loom stops at its bundle boundary and is snapshotted, with what an engine has put before its B-store written; it
stays reserved until its cluster has been saved. -/
def State.stopLoom (s : State) (g : Nat) (cl : ClusterId) : State :=
  if (s.loom cl).gang = some g ∧ (s.loom cl).st ≠ .stopped then
    let s := s.landEngine cl
    let l := s.loom cl
    let s := s.setGang g { s.gang g with looms := Tab.set (s.gang g).looms cl l }
    s.setLoom cl { l with st := .stopped, work := [], ck := {}, k := { ({} : LoomCore) with levc := l.k.levc } }
  else s

/-- A gang is stopped on every cluster of a die. -/
def State.doGangStop (s : State) (g die : Nat) : State :=
  let x := s.gang g
  if (Tab.find s.dev.gangs g).isNone ∨ x.pre = 0 ∨ x.stoppedOn.contains die then s
  else
    let s := s.setGang g { x with stoppedOn := x.stoppedOn ++ [die] }
    (x.cls.filter (fun c => c / 256 == die)).foldl (fun (s : State) cl =>
      let s := (s.bodiesIn g cl).foldl (fun (s : State) c => s.stopMember g c) s
      ((s.haltWalks cl).stopLoom g cl).later 1 (ordLook + 2) (.clusterSave g cl)) s

/-! The save (R413, R416). -/

/-- Bytes of the scratchpad, of the Loom snapshot, and of the tables, in lines. -/
def scratchLines : Nat := 24576
/-- Offset and length in lines of the two parts of a save region whose layout is not architectural. -/
def freeParts : List (Nat × Nat) := [(0x300000, 10240), (0x44E000, 64)]

/-- First byte of a cluster's save region. -/
def Cluster.saveAt (x : Cluster) : Nat := x.svarea.toNat * 65536

/-- The addresses of a cluster's B-store (R223). -/
def bstoreSpan (cl : ClusterId) : Nat × Nat := (windowBase cl + 0x300000, windowBase cl + 0x400000)

/-- The cluster's copies have retired, its walk stands, its members' stores are acknowledged, and no episode is about to end. -/
def State.saveReady (s : State) (g : Nat) (cl : ClusterId) : Bool :=
  let x := s.cluster cl
  ((s.bodiesIn g cl).flatMap s.storesOf).isEmpty
    && !s.dev.jobs.any (fun e => e.2.used && e.2.cl == cl && cardKind e.2.card != 4 && (e.2.started || s.jobReady e.2))
    && x.sb.isEmpty
    && (match x.walk with
      | some w => w.stopped || !(s.job w.job).halted
      | none => true)
    && !s.agenda.any (fun e => match e.act with
      | .ev (.barcDone h _) => h == g
      | .ev (.barwTapRise h _) => h == g
      | .ev (.barwDone k) => k / 2 == g
      | _ => false)

/-- The save region of a cluster is written. -/
def State.writeSave (s : State) (g : Nat) (cl : ClusterId) : State :=
  let base := (s.cluster cl).saveAt
  let s := (List.range scratchLines).foldl (fun (s : State) i =>
    s.unitWrite (base + 128 * i) (Memory.read s.mem (windowBase cl + 128 * i) 128)) s
  let n := s.draws
  let s := freeParts.foldl (fun (s : State) p => (List.range p.2).foldl (fun (s : State) i =>
    s.unitWrite (base + p.1 + 128 * i) ((List.range 128).map (fun b => Config.freeSave (n + p.1 + 128 * i + b)))) s) s
  let s := { s with draws := n + 0x450000 }
  let s := (List.range 112).foldl (fun (s : State) i =>
    let c := 128 * cl + 16 * (i / 14) + 1 + i % 14
    s.unitWrite (base + 0x440000 + 512 * i) (s.ctxRecord c (s.ctx c).st.code)) s
  let store := match Tab.find (s.gang g).looms cl with
    | some l => l.store
    | none => (s.loom cl).store
  (List.range 512).foldl (fun (s : State) i =>
    s.unitWrite (base + 0x450000 + 128 * i) ((List.range 32).flatMap (fun w => leBytes 4 (Tab.get 0 store (32 * i + w)).toNat))) s

/-- An arrival's cycle and the cycles that it has waited turn into one another, at a save and at a restore. -/
def turnArrival (cycle : Nat) (a : Arrival) : Arrival := { a with cycle := cycle - a.cycle }
/-- The same for an episode list. -/
def turnEpisodes (cycle : Nat) (l : List Episode) : List Episode :=
  l.map (fun e => { e with arrived := e.arrived.map (turnArrival cycle) })

/-- The gang's part of a cluster as it is kept: its bolts, its episodes with the cycles waited, and its interrupted walk. -/
def State.keptCluster (s : State) (g : Nat) (cl : ClusterId) : Cluster :=
  let x := s.cluster cl
  let slot := (s.gang g).slot
  { x with
    bolts := x.bolts.filter (fun e => e.2.st != BoltState.free && e.2.slot == slot)
    barc := [(g, turnEpisodes s.cycle (s.episodes false cl g))]
    barw := [(g, turnEpisodes s.cycle (s.episodes true cl g))]
    walk := x.walk.bind (fun w => if w.stopped then some w else none) }

/-- What the gang held in a cluster is given up: its contexts are Stopped, its bolts free, its walk and its Loom gone. -/
def State.clearCluster (s : State) (g : Nat) (cl : ClusterId) : State :=
  let slot := (s.gang g).slot
  let ids := (s.episodes false cl g ++ s.episodes true cl g).flatMap (fun e => e.arrived.map (·.token))
  let s := s.unschedule (fun e => match e.act with
    | .ev (.barrierTimeout _ t) => ids.contains t
    | _ => false)
  let s := (s.setEpisodes false cl g []).setEpisodes true cl g []
  let x := s.cluster cl
  let s := s.setCluster cl { x with walk := x.walk.bind (fun w => if w.stopped then none else some w) }
  let s := (x.boltsIf (fun b => b.st != BoltState.free && b.slot == slot)).foldl (fun (s : State) e => s.dropBolt cl e) s
  let s := (s.bodiesIn g cl).foldl (fun (s : State) c => if (s.ctx c).gang = some g then s.discard c else s) s
  let s := if (s.loom cl).gang = some g then s.setLoom cl { s.loom cl with gang := none } else s
  let s := if (s.cluster cl).openQ.isEmpty then s else s.later 0 160001 (.bopenServe cl)
  (s.retryAdmission (cl / 256)).dispatchJobs

/-- The state that a job slot's SLCTL shows. -/
def State.slState (s : State) (j : BitVec 4) : BitVec 4 := s.dev.slctl.getD j.toNat 0
/-- Change it. -/
def State.setSlState (s : State) (j : BitVec 4) (v : BitVec 4) : State :=
  { s with dev := { s.dev with slctl := s.dev.slctl.set j.toNat v } }

/-- Every cluster of the gang has been saved. -/
def Gang.saved (x : Gang) : Bool := x.pre != 0 && x.cls.all x.savedCl.contains

/-- A pre-emption or a restore by system software is over when every gang of the slot is (R447). -/
def State.checkSlot (s : State) (j : BitVec 4) : State :=
  let l := s.dev.gangs.filter (fun e => e.2.slot == j && e.2.pre == 2)
  match (s.slState j).toNat with
  | 1 => if l.all (fun e => e.2.saved) then s.setSlState j 2 else s
  | 3 => if l.isEmpty then s.setSlState j 0 else s
  | _ => s

/-- A cluster of a stopped gang is saved, as soon as it can be. -/
def State.doClusterSave (s : State) (g : Nat) (cl : ClusterId) : State :=
  let x := s.gang g
  if (Tab.find s.dev.gangs g).isNone ∨ !x.stoppedOn.contains (cl / 256) ∨ x.savedCl.contains cl then s
  else if !s.saveReady g cl then s.later 1 (ordLook + 2) (.clusterSave g cl)
  else
    let s := s.writeSave g cl
    let x := s.gang g
    let mine := (s.bodiesIn g cl).filter (fun c => (s.ctx c).gang == some g)
    let lo := windowBase cl / 8
    let (b0, b1) := bstoreSpan cl
    let s := s.setGang g { x with
      bstores := if (Tab.find x.looms cl).isSome then Tab.set x.bstores cl (Memory.span s.mem b0 b1) else x.bstores
      savedCl := x.savedCl ++ [cl]
      ctxs := mine.foldl (fun t c => Tab.set t c (s.ctx c)) x.ctxs
      clusters := Tab.set x.clusters cl (s.keptCluster g cl)
      fes := x.fes ++ s.empties.filter (fun w => lo ≤ w && w < lo + 16 * scratchLines) }
    (s.clearCluster g cl).checkSlot x.slot

/-! The restore (R416). -/

/-- What the gang needs is free again: its contexts, its Looms, and the sequencers of its walks. -/
def State.restoreReady (s : State) (x : Gang) : Bool :=
  x.ctxs.all (fun e => (s.ctx e.1).st == CtxState.stopped)
    && x.looms.all (fun e => (s.loom e.1).st == LoomState.stopped && (s.loom e.1).gang.isNone && !(s.cluster e.1).retired)
    && x.clusters.all (fun e => e.2.walk.isNone || (s.cluster e.1).walk.isNone)

/-- A member comes back from its record: at its boundary, or issuing again where its wait was withdrawn. -/
def State.restoreCtx (s : State) (old : Ctx) (c : CtxId) (bs : List Byte) : State :=
  let y := s.ctxOfRecord c bs
  let held := s.dev.jobs.filterMap (fun e => if e.2.used then some (jobId e.1 e.2).toNat else none)
  let y := { y with gang := old.gang, auto := old.auto, roam := old.roam, late := old.late, jobs := old.jobs.filter (fun j => held.contains j.id) }
  let again : CtxState := if old.why = .none then .issuing else if recordCode bs = 4 then .parked else .dispatchWait
  let st : CtxState := match recordCode bs with
    | 1 => .held
    | 6 => .ended
    | 7 => .trapped
    | 4 => again
    | 5 => again
    | _ => .issuing
  let y := { y with st := st, readyAt := s.cycle + 1, why := if st = .parked ∨ st = .dispatchWait then old.why else .none }
  let s := s.setCtx c y
  let k := coreOf c
  match st with
  | .trapped => (s.setCore k { s.core k with trapQ := (s.core k).trapQ ++ [ctxNo c] }).stewardEvent k
  | .parked => s.watch c
  | .dispatchWait => s.watch c
  | _ => s

/-- A saved bolt comes back under its handle; its entry remembers the generations given meanwhile, and one whose timer has expired
is sealed now (R272, R416). -/
def State.restoreBolt (s : State) (cl e : Nat) (b : Bolt) : State :=
  let now := (s.cluster cl).bolt e
  let s := s.setBolt cl e { b with top := if b.top.ult (now.gen - 1) then now.gen - 1 else b.top }
  if !b.isOpen then s
  else if b.expiry ≤ s.cycle then s.expire cl e
  else s.eventAt b.expiry 160000 (.boltTimerExpiry cl e b.token)

/-- One cluster of a gang is written back from its save region. -/
def State.restoreCluster (s : State) (g : Nat) (x : Gang) (cl : ClusterId) : State :=
  let old : Cluster := Tab.get {} x.clusters cl
  let base := old.saveAt
  let lo := windowBase cl / 8
  let s := (List.range scratchLines).foldl (fun (s : State) i =>
    (s.pointWrite (windowBase cl + 128 * i) (s.cohRead (base + 128 * i) 128)).written (windowBase cl + 128 * i) 128 none) s
  let s := { s with empties := s.empties.filter (fun w => w < lo || lo + 16 * scratchLines ≤ w) }
  let s := (x.fes.filter (fun w => lo ≤ w && w < lo + 16 * scratchLines)).foldl (fun (s : State) w => s.setEmpty w true) s
  let s := (List.range 112).foldl (fun (s : State) i =>
    let c := 128 * cl + 16 * (i / 14) + 1 + i % 14
    match Tab.find x.ctxs c with
    | some y => s.restoreCtx y c (s.cohRead (base + 0x440000 + 512 * i) 512)
    | none => s) s
  let s := match Tab.find x.looms cl with
    | none => s
    | some l =>
      let words : List W32 := (List.range 16384).map (fun w => BitVec.ofNat 32 (leNat (s.cohRead (base + 0x450000 + 4 * w) 4)))
      let store : Tab W32 := (words.zipIdx.filter (fun (e : W32 × Nat) => e.1 != 0)).map (fun (e : W32 × Nat) => (e.2, e.1))
      let now := s.loom cl
      let s := s.setLoom cl { l with store := store, cecnt := now.cecnt, froze := now.froze, thaw := now.thaw, ring := now.ring }
      let (b0, b1) := bstoreSpan cl
      let s := { s with mem := Memory.splice s.mem b0 b1 (Tab.get [] x.bstores cl) }
      let s := if l.st = LoomState.frozen then s.later 1 ordEngine (.rollbackOutcome cl) else s
      if l.k.lfValid then s.stewardEvent (8 * cl) else s
  let s := s.setCluster cl { s.cluster cl with bpEn := old.bpEn, bpN := old.bpN, bpBase := old.bpBase }
  let s := old.bolts.foldl (fun (s : State) e => s.restoreBolt cl e.1 e.2) s
  let s := [false, true].foldl (fun (s : State) wire =>
    let l := turnEpisodes s.cycle (Tab.get [] (if wire then old.barw else old.barc) g)
    let s := s.setEpisodes wire cl g l
    (l.flatMap (fun e => if e.closed then [] else e.arrived)).foldl (fun (s : State) a =>
      let t := (s.ctx a.who).btmo.toNat
      if t = 0 then s else s.eventAt (a.cycle + t) 165000 (.barrierTimeout a.who a.token)) s) s
  let s := match old.walk with
    | some w => (s.setCluster cl { s.cluster cl with walk := some { w with stopped := false } }).walkLater cl 1
    | none => s
  let put (j : Job) : Job := if j.cl == cl then { j with halted := false } else j
  ({ s with dev := { s.dev with jobs := Tab.mapVal put s.dev.jobs } }).dispatchJobs

/-- An event kept for the restore happens; a watchdog's expiry is the present wait's. -/
def State.deliver (s : State) (e : Ev) : State :=
  match e with
  | .watchdogWaitExpiry c _ => s.soon (.watchdogWaitExpiry c (s.ctx c).epoch)
  | e => s.soon e

/-- A saved gang is restored on its clusters when they are free, and waits until then. -/
def State.doClusterRestore (s : State) (g : Nat) : State :=
  let x := s.gang g
  if (Tab.find s.dev.gangs g).isNone ∨ !x.restoring ∨ !x.saved then s
  else if !s.restoreReady x then s.later 1 ordLate (.clusterRestore g)
  else
    let s := x.cls.foldl (fun (s : State) cl => s.restoreCluster g x cl) s
    let s := s.setGang g { s.gang g with
      pre := 0, restoring := false, reached := [], reported := [], stoppedOn := [], savedCl := [], kept := [], looms := [], ctxs := []
      clusters := [], bstores := [], fes := [] }
    let s := x.kept.foldl State.deliver s
    (s.soon (.gangRetire g)).checkSlot x.slot

/-- The restore of a saved gang is requested. -/
def State.requestRestore (s : State) (g : Nat) : State :=
  (s.setGang g { s.gang g with restoring := true }).later 1 ordLate (.clusterRestore g)

/-! The end of a gang or of a job slot (R418). -/

/-- A context is stopped with its state discarded, in any state, and so is its twin. -/
def State.killCtx (s : State) (c : CtxId) : State :=
  (s.bothOf c).foldl (fun (s : State) c => (s.withdraw c).discard c) s

/-- A job ends with KILLED. -/
def State.killJob (s : State) (e : Nat) : State :=
  let j := s.job e
  let walking := match (s.cluster j.cl).walk with
    | some w => w.job == e
    | none => false
  let s := s.unschedule (fun x => match x.act with
    | .ev (.jobRetire k _) => k == e
    | .ev (.walkBlock cl) => walking && cl == j.cl
    | .ev (.walkBTileWaitEnd cl) => walking && cl == j.cl
    | _ => false)
  let s := if walking then s.setCluster j.cl { s.cluster j.cl with openQ := (s.cluster j.cl).openQ.filter (fun q => q.who.isSome) } else s
  (s.setJob e { j with ended := some 5 }).doJobRetire e 5

/-- The jobs, Winnow units and Thresher nodes of a job slot end; of a gang's jobs, those that its members submitted. A TGNEXT of
the slot that waits finds no live node left (R381). -/
def State.killUnits (s : State) (slot : BitVec 4) (mine : Job → Bool) : State :=
  let s := ((s.jobsHeld.filter (fun e => e.2.slot == slot && mine e.2)).map (·.1)).foldl (fun (s : State) e => s.killJob e) s
  let s := (List.range 128).foldl (fun (s : State) u => if (s.winnow u).slot = some slot then s.freeWinnow u else s) s
  [0, 1].foldl (fun (s : State) die =>
    let s := ((s.thresher die).nodes.filter (fun e => e.2.live && e.2.slot == slot)).foldl (fun (s : State) e =>
      let t := s.thresher die
      s.setThresher die { t with nodes := Tab.set t.nodes e.1 { gen := (t.node e.1).gen + 1 } }) s
    s.serveNexts die) s

/-- The weaves and episodes of a gang end, and the gang leaves the chip. -/
def State.endGang (s : State) (g : Nat) : State :=
  let x := s.gang g
  let s := x.cls.foldl (fun (s : State) cl =>
    let s := (s.setEpisodes false cl g []).setEpisodes true cl g []
    if (s.loom cl).gang = some g then s.endWeave cl else s) s
  s.dropGang g

/-- A job slot ends, or a gang ends as a whole with the cause of its record. -/
def State.doGangEnd (s : State) (slot : Option (BitVec 4)) (g : Nat) (status : BitVec 8) (info : W64) : State :=
  match slot with
  | some j =>
    let cs := s.ctxs.filterMap (fun e =>
      let n := ctxNo e.1
      if n ≠ 0 ∧ e.2.st ≠ .stopped ∧ s.slotOf e.1 = j ∧ (n ≠ 15 ∨ e.2.msg.isSome) then some e.1 else none)
    let s := cs.foldl State.killCtx s
    let ls := (s.dev.launches.filter (fun e => e.2.slot == j)).map (·.1)
    let s := ls.foldl (fun (s : State) n => (s.setLaunch n { s.launch n with todo := [] }).endLaunch n status info)
      ((s.setQueue 0 j []).setQueue 1 j [])
    let s := s.killUnits j (fun _ => true)
    let s := ((s.dev.gangs.filter (fun e => e.2.slot == j)).map (·.1)).foldl State.endGang s
    ls.foldl State.checkLaunch s
  | none =>
    if (Tab.find s.dev.gangs g).isNone then s
    else
      let x := s.gang g
      let s := (x.members.filter (fun c => (s.ctx c).gang == some g)).foldl State.killCtx s
      let s := s.killUnits x.slot (fun j => x.members.contains j.who)
      let s := s.endLaunch x.launch status info
      let s := if x.rick ∧ (s.launch x.launch).owner then
          ((descChips x.desc).filter (· != s.dev.chip.toNat)).foldl (fun (s : State) c =>
            s.dieOut (s.launch x.launch).die c (.report x.desc.lnum status info)) s
        else s
      (s.endGang g).checkSlot x.slot

/-- WDOG.PRE expires on a core with a member not yet at a boundary: every such member of the gang is killed, and the gang is
ended with STATUS 5 (R415). -/
def State.doWatchdogPreExpiry (s : State) (k : CoreId) (g token : Nat) : State :=
  let x := s.gang g
  let late (c : CtxId) : Bool := (s.bothOf c).any (fun c => (s.ctx c).gang == some g && !(s.ctx c).st.atBoundary)
  if (Tab.find s.dev.gangs g).isNone ∨ x.pre = 0 ∨ x.preNo ≠ token ∨ !x.members.any (fun c => (s.bothOf c).any (fun c => coreOf c == k) && late c) then s
  else
    let killed := x.members.filter late
    let first := killed.foldl (fun m c => min m (clusterOf c)) 511
    (killed.foldl State.killCtx s).soon (.gangEnd none g 5 (s.flatOf first))

/-! SLCTL (R413, R416, R418, R447). -/

/-- PRE: every gang of the slot is pre-empted, the request starting at logical cluster 0 of each die. -/
def State.doSlctlPre (s : State) (j : BitVec 4) : State :=
  if s.slState j ≠ 0 then s
  else
    let gs := (s.dev.gangs.filter (fun e => e.2.slot == j && e.2.pre == 0 && e.2.want.isEmpty)).map (fun e => (e.1, e.2.die))
    let s := gs.foldl (fun (s : State) e => s.requestPreempt (256 * e.2) 2 e.1) (s.setSlState j 1)
    s.checkSlot j

/-- END: the job slot is ended on this chip. -/
def State.doSlctlEnd (s : State) (j : BitVec 4) : State := (s.setSlState j 4).soon (.gangEnd (some j) 0 7 0)

/-- RESTORE: every gang that the last PRE saved is restored. -/
def State.doSlctlRestore (s : State) (j : BitVec 4) : State :=
  if s.slState j ≠ 2 then s
  else
    let gs := (s.dev.gangs.filter (fun e => e.2.slot == j && e.2.pre == 2 && e.2.saved)).map (·.1)
    (gs.foldl State.requestRestore (s.setSlState j 3)).checkSlot j

/-! The start of a rick (R417). -/

/-- The chips of a gang but this one. -/
def State.otherChips (s : State) (x : Gang) : List Nat := (descChips x.desc).filter (· != s.dev.chip.toNat)

/-- A chip's READY: sent to the leader by a chip whose time is synchronised, and at the leader, when the last has come, GO. -/
def State.doRickReady (s : State) (chip g : Nat) : State :=
  let x := s.gang g
  let own := s.dev.chip.toNat
  if (Tab.find s.dev.gangs g).isNone ∨ !x.rick ∨ x.released then s
  else if chip = own ∧ (!x.admitted ∨ !s.dev.sync) then s
  else if x.desc.c0 ≠ own then (if chip = own then s.dieOut x.die x.desc.c0 (.rick x.desc.lnum 0 0) else s)
  else
    let ready := (x.ready ++ [chip]).eraseDups
    let s := s.setGang g { x with ready := ready }
    if (descChips x.desc).all ready.contains then
      let s := s.setGang g { s.gang g with token := 0 }
      ((s.otherChips x).foldl (fun (s : State) c => s.dieOut x.die c (.rick x.desc.lnum 1 x.start)) s).soon (.rickGo g x.start none)
    else s

/-- GO: the chip releases at the first multiple of 16 at or after the start. -/
def State.doRickGo (s : State) (g : Nat) (start : W64) : State :=
  let x := s.gang g
  if (Tab.find s.dev.gangs g).isNone ∨ !x.rick then s
  else
    let tok := s.token
    (s.tick1.setGang g { x with start := start, token := tok }).eventAt (s.next16 x.die (s.cycle + s.before start)) ordReply (.rickRelease g tok)

/-- The gangs that hold what a rick's members still need. -/
def State.blockers (s : State) (g : Nat) : List Nat :=
  let x := s.gang g
  let cs := x.want.flatMap (fun cl => (List.range x.desc.gpc).map (grainCtx cl))
  let l := cs.filterMap (fun c => (s.ctx c).gang) ++ (if x.desc.wv then x.want.filterMap (fun cl => (s.loom cl).gang) else [])
  (l.filter (· != g)).eraseDups

/-- HOLD: the members stay Held under the new start; a chip that is late pre-empts the gangs in its way. -/
def State.doRickHold (s : State) (g : Nat) (start : W64) : State :=
  let x := s.gang g
  if (Tab.find s.dev.gangs g).isNone ∨ !x.rick then s
  else
    let s := s.setGang g { x with start := start }
    (s.blockers g).foldl (fun (s : State) b =>
      let s := (s.gang b).cls.foldl (fun (s : State) cl => s.setCluster cl { s.cluster cl with gpre := ((s.cluster cl).gpre ++ [b]).eraseDups }) s
      s.requestPreempt (256 * x.die) 1 b) s

/-- At GUARD before the start some chip is late: the leader sends HOLD with the next start. -/
def State.doRickGuardExpiry (s : State) (g token : Nat) : State :=
  let x := s.gang g
  if (Tab.find s.dev.gangs g).isNone ∨ x.token ≠ token ∨ x.released then s
  else if s.before x.start > s.dev.guard.toNat then s.later (s.before x.start - s.dev.guard.toNat) ordReply (.rickGuardExpiry g token)
  else
    let start := x.start + BitVec.ofNat 64 s.dev.lead.toNat
    let s := s.setGang g { x with start := start }
    let s := (s.otherChips x).foldl (fun (s : State) c => s.dieOut x.die c (.rick x.desc.lnum 2 start)) s
    (s.soon (.rickHold g start none)).later (max 1 s.dev.lead.toNat) ordReply (.rickGuardExpiry g token)

/-- The agreed start has come. -/
def State.doRickRelease (s : State) (g token : Nat) : State :=
  let x := s.gang g
  if (Tab.find s.dev.gangs g).isNone ∨ x.token ≠ token ∨ !x.admitted then s
  else if s.before x.start ≠ 0 then s.eventAt (s.next16 x.die (s.cycle + s.before x.start)) ordReply (.rickRelease g token)
  else s.releaseGang g (.rickRelease g token)

def execPreemptRequestArrival (s : State) : Host.Outcome State Fault Refusal :=
  .next (match s.ev with
    | .preemptRequestArrival g cl l => s.fromLink l (fun s => s.doPreemptRequestArrival g cl)
    | _ => s)
def execGangStop (s : State) : Host.Outcome State Fault Refusal :=
  .next (match s.ev with
    | .gangStop g d => s.doGangStop g d
    | _ => s)
def execClusterSave (s : State) : Host.Outcome State Fault Refusal :=
  .next (match s.ev with
    | .clusterSave g cl => s.doClusterSave g cl
    | _ => s)
def execClusterRestore (s : State) : Host.Outcome State Fault Refusal :=
  .next (match s.ev with
    | .clusterRestore g => s.doClusterRestore g
    | _ => s)
def execGangEnd (s : State) : Host.Outcome State Fault Refusal :=
  .next (match s.ev with
    | .gangEnd j g st info =>
      let s := s.doGangEnd j g st info
      (match j with
      | some j => if s.slState j = 4 then s.setSlState j 0 else s
      | none => s)
    | _ => s)
def execWatchdogPreExpiry (s : State) : Host.Outcome State Fault Refusal :=
  .next (match s.ev with
    | .watchdogPreExpiry k g t => s.doWatchdogPreExpiry k g t
    | _ => s)
def execSlctlPre (s : State) : Host.Outcome State Fault Refusal :=
  .next (match s.ev with
    | .slctlPre j => if s.answers then s.doSlctlPre j else s
    | _ => s)
def execSlctlEnd (s : State) : Host.Outcome State Fault Refusal :=
  .next (match s.ev with
    | .slctlEnd j => if s.answers then s.doSlctlEnd j else s
    | _ => s)
def execSlctlRestore (s : State) : Host.Outcome State Fault Refusal :=
  .next (match s.ev with
    | .slctlRestore j => if s.answers then s.doSlctlRestore j else s
    | _ => s)
def execRickReady (s : State) : Host.Outcome State Fault Refusal :=
  .next (match s.ev with
    | .rickReady c g l => s.fromLink l (fun s => s.doRickReady c g)
    | _ => s)
def execRickGo (s : State) : Host.Outcome State Fault Refusal :=
  .next (match s.ev with
    | .rickGo g t l => s.fromLink l (fun s => s.doRickGo g t)
    | _ => s)
def execRickHold (s : State) : Host.Outcome State Fault Refusal :=
  .next (match s.ev with
    | .rickHold g t l => s.fromLink l (fun s => s.doRickHold g t)
    | _ => s)
def execRickGuardExpiry (s : State) : Host.Outcome State Fault Refusal :=
  .next (match s.ev with
    | .rickGuardExpiry g t => s.doRickGuardExpiry g t
    | _ => s)
def execRickRelease (s : State) : Host.Outcome State Fault Refusal :=
  .next (match s.ev with
    | .rickRelease g t => s.doRickRelease g t
    | _ => s)

end Sys2Proof.Machine
end

