-- ==== Sys2Proof/Machine/Frec.lean ====
section
/-!
DEFINITION. FREC: what a steward does about a trapped context, a context record, a trapped Loom, and the gangs of its cluster
(R408, R411, R416).
-/

namespace Sys2Proof.Machine

/-- FREC's checks: the prefix, and context 0; its values are the control word and gV. -/
def State.frec (s : State) (i : Instr) (f : State → State) : State :=
  s.plain i (fun s => if !isSteward s.cur then s.trapPriv i else f s)

/-- The operations of the cluster steward alone: any other steward receives NOTCS. -/
def State.frecCluster (s : State) (i : Instr) (d : BitVec 4) (f : State → ClusterId → State) : State :=
  s.frec i (fun s => if !isClusterSteward s.cur then s.put d (failCode 2) else f s (clusterOf s.cur))

/-! RESUME, SKIP and GOTO. -/

/-- The oldest queued record of a context other than 0 is taken, and that context, with its twin, goes on at an address. -/
def State.takeRecord (s : State) (d : BitVec 4) (pc : Ctx → W64) : State :=
  let k := coreOf s.cur
  match (s.core k).trapQ with
  | [] => s.put d (failCode 1)
  | n :: t =>
    let s := s.setCore k { s.core k with trapQ := t }
    ((s.bothOf (16 * k + n)).foldl (fun s c => s.resume c (pc (s.ctx c) &&& ~~~3#64)) s).put d 0

/-- RESUME's row also stands for the OP values of no operation, which answer BADOP. -/
def execFrecResume (d a b : BitVec 4) (s : State) : Host.Outcome State Fault Refusal :=
  .next (s.frec (.frecResume d a b) (fun s =>
    if (s.rd a).extractLsb' 0 4 ≠ 0#4 then s.put d (failCode 0xF) else s.takeRecord d (fun x => x.tepc)))
def execFrecSkip (d a b : BitVec 4) (s : State) : Host.Outcome State Fault Refusal :=
  .next (s.frec (.frecSkip d a b) (fun s => s.takeRecord d (fun x => x.tia + 4)))
def execFrecGoto (d a b : BitVec 4) (s : State) : Host.Outcome State Fault Refusal :=
  .next (s.frec (.frecGoto d a b) (fun s =>
    if (s.core (coreOf s.cur)).trapQ.isEmpty then s.put d (failCode 1)
    else if s.rd b &&& 3 ≠ 0 then s.put d (failCode 3)
    else s.takeRecord d (fun _ => s.rd b)))

/-! SAVE and LOAD. -/

/-- The context that CTX names. -/
def State.frecCtx (s : State) (a : BitVec 4) : CtxId := s.cur + ((s.rd a).extractLsb' 4 4).toNat

/-- The record's accesses as the steward's, in class 0: alignment, translation and holds, then what follows. -/
def State.recordAccess (s : State) (va : W64) (write : Bool) (f : State → List Piece → State) : State :=
  s.translateRun va 512 (if write then .w else .r) (fun s ps _ =>
    let a : Acc := { op := if write then .store else .load 3, va := va, size := 512, cls := 0 }
    match (if write then s.refusedVa va ps else none) with
    | some b => (s.count s.cur cRefused).trapMe causeRefusal 0 b
    | none =>
    if s.mustHold s.cur a ps then s.wait s.cur .held
    else f s ps)

/-- SAVE: the target stops as CSTOP stops it, its record is written, and it is left Stopped. Stage 1 is a later look. -/
def State.frecSave (s : State) (i : Instr) (d a b : BitVec 4) : State :=
  let pa (s : State) : Nat := match s.me.load with
    | some q => (q.pieces.headD {}).pa
    | none => 0
  let finish (s : State) (c : CtxId) (code : Nat) : State :=
    let s := s.unitWrite (pa s) (s.ctxRecord c code)
    let s := (s.bothOf c).foldl (fun (s : State) c => (s.withdraw c).discard c) s
    let s := (s.setMe { s.me with load := none }).put d 0
    if s.stage = 0 then s else s.wake s.cur
  let look (s : State) (n code : Nat) : State :=
    let l := s.bothOf (s.cur + n)
    let s := l.foldl (fun (s : State) c => s.halt true c) s
    if l.any (s.inFlight true) || !s.unitCan (pa s) 512 then
      ((s.wait s.cur (.stopping (16 * code + n))).nudge (pa s) 512).schedule (s.cycle + 1) ordLate s.cur 1 i
    else finish s (s.cur + n) code
  if s.stage ≠ 0 then
    match s.me.why with
    | .stopping m => look s (m % 16) (m / 16)
    | _ => s
  else s.frec i (fun s =>
    let c := s.frecCtx a
    let va := s.rd b
    if !aligned va 512 then s.trapMe causeMisaccess 0 va
    else if c = s.cur ∨ (s.ctx c).gang.isSome ∨ s.oddTwin c then s.put d (failCode 5)
    else s.recordAccess va true (fun s ps =>
      look (s.setMe { s.me with load := some { pieces := ps } }) (ctxNo c) (s.ctx c).st.code))

/-- The state that a record's code names; every code of no state is Issuing (log entry 65). -/
def stateOfCode : Nat → CtxState
  | 0 => .stopped
  | 1 => .held
  | 3 => .waiting
  | 4 => .parked
  | 5 => .dispatchWait
  | 6 => .ended
  | 7 => .trapped
  | _ => .issuing

/-- A context takes the state of its record, or Held. Its waits were withdrawn when it was saved: one loaded in a waiting state
leaves it at the cycle in which it may issue, and executes its instruction again (log entry 65). No lease that its core holds
may give it an older value (R321). -/
def State.loadCtx (s : State) (c : CtxId) (hold : Bool) (bs : List Byte) : State :=
  let x := s.ctxOfRecord c bs
  let st := if hold then CtxState.held else stateOfCode (recordCode bs)
  let id := s.token
  let waits : Bool := st == .waiting || st == .parked || st == .dispatchWait
  let why : Why := if st = .waiting then .reply id else if st = .parked then .parked id else if waits then .unit id else .none
  let s := s.tick1.startCtx c { x with st := st, why := why, readyAt := s.cycle + 16 }
  let s := (s.bothOf c).foldl (fun (s : State) c => s.dropStale (coreOf c)) s
  let s := if waits then s.later 15 ordReply (.replyArrival c { id := id, adv := false }) else s
  let k := coreOf c
  if st = .trapped then (s.setCore k { s.core k with trapQ := (s.core k).trapQ ++ [ctxNo c] }).stewardEvent k else s

/-- LOAD: a Stopped context is loaded from a record. -/
def State.frecLoad (s : State) (i : Instr) (d a b : BitVec 4) : State :=
  let go (s : State) (bs : List Byte) : State :=
    let waited := s.stage ≠ 0
    let c := s.frecCtx a
    let s := if (s.ctx c).st = .stopped then (s.loadCtx c ((s.rd a).getLsbD 8) bs).put d 0 else s.put d (failCode 5)
    if waited then s.wake s.cur else s
  if s.stage ≠ 0 then s.loadBytes i [] go
  else s.frec i (fun s =>
    let c := s.frecCtx a
    let va := s.rd b
    if !aligned va 512 then s.trapMe causeMisaccess 0 va
    else if (s.ctx c).st ≠ .stopped ∨ s.oddTwin c then s.put d (failCode 5)
    else s.recordAccess va false (fun s ps => s.loadBytes i ps go))

def execFrecSave (d a b : BitVec 4) (s : State) : Host.Outcome State Fault Refusal := .next (s.frecSave (.frecSave d a b) d a b)
def execFrecLoad (d a b : BitVec 4) (s : State) : Host.Outcome State Fault Refusal := .next (s.frecLoad (.frecLoad d a b) d a b)

/-! The Loom (R408, R411). -/

/-- The Loom is trapped on a fault from which its weave can go on: a data error or a retirement leaves it only its end (R420). -/
def Loom.resumable (x : Loom) : Bool := x.st == LoomState.trapped && x.k.lfCause != lcDataErr && x.k.lfCause != lcRetired

/-- The trapped Loom goes on: a replay bundle for each entry, in order, and then the weave. -/
def State.loomResume (s : State) (l : ClusterId) (f : Replay → Replay) : State :=
  let x := s.loom l
  s.setLoom l { x with
    st := .running
    k := { x.k with redo := x.k.replay.map f ++ x.k.redo, replay := [], freezeIn := none, lfValid := false } }

def execFrecLresume (d a b : BitVec 4) (s : State) : Host.Outcome State Fault Refusal :=
  .next (s.frecCluster (.frecLresume d a b) d (fun s l =>
    if !(s.loom l).resumable then s.put d (failCode 1) else (s.loomResume l id).put d 0))
def execFrecLdrop (d a b : BitVec 4) (s : State) : Host.Outcome State Fault Refusal :=
  .next (s.frecCluster (.frecLdrop d a b) d (fun s l =>
    if !(s.loom l).resumable then s.put d (failCode 1) else (s.loomResume l (fun r => { r with perf := 0xF })).put d 0))
def execFrecLend (d a b : BitVec 4) (s : State) : Host.Outcome State Fault Refusal :=
  .next (s.frecCluster (.frecLend d a b) d (fun s l =>
    if (s.loom l).st ≠ .trapped then s.put d (failCode 1)
    else
      let s := s.endWeave l
      (s.setLk l { s.lk l with lfValid := false }).put d 0))
def execFrecLring (d a b : BitVec 4) (s : State) : Host.Outcome State Fault Refusal :=
  .next (s.frecCluster (.frecLring d a b) d (fun s l =>
    s.put d (Tab.get 0 (s.loom l).ring ((s.rd b).extractLsb' 0 6).toNat)))

/-! Gangs of the cluster (R408, R413, R416). -/

/-- The gangs with a member on a cluster: a grain, or the weave. -/
def State.gangsOn (s : State) (cl : ClusterId) : List Nat :=
  let l := (s.ctxs.filterMap (fun e => if clusterOf e.1 = cl then e.2.gang else none)) ++ (s.loom cl).gang.toList
  l.eraseDups

def execFrecGpre (d a b : BitVec 4) (s : State) : Host.Outcome State Fault Refusal :=
  .next (s.frecCluster (.frecGpre d a b) d (fun s cl =>
    let gs := s.gangsOn cl
    if gs.isEmpty then s.put d (failCode 4)
    else
      let s := s.setCluster cl { s.cluster cl with gpre := gs }
      (gs.foldl (fun (s : State) g => s.requestPreempt cl 1 g) s).put d 0))

/-- The gangs that the latest GPRE of a cluster has pre-empted and that are saved or being saved. -/
def State.gpreSaved (s : State) (cl : ClusterId) : List Nat :=
  (s.cluster cl).gpre.filter (fun g => (Tab.find s.dev.gangs g).isSome && (s.gang g).pre == 1 && (s.gang g).saved && !(s.gang g).restoring)

def execFrecGrest (d a b : BitVec 4) (s : State) : Host.Outcome State Fault Refusal :=
  .next (s.frecCluster (.frecGrest d a b) d (fun s cl =>
    let gs := s.gpreSaved cl
    if gs.isEmpty then s.put d (failCode 4) else (gs.foldl State.requestRestore s).put d 0))

end Sys2Proof.Machine
end

