-- ==== Sys2Proof/Machine/Host.lean ====
section
/-!
DEFINITION. What the host does through windows A and B of a port: launch doorbells, wakes, tables and control registers, device
flushes, and accesses to scratchpads (R6, R70, R172, R430, R432, R442, R444, R447, R451, R460, R468, R472, R478).
-/

namespace Sys2Proof.Machine

/-! Doorbells, wakes and routes. -/

/-- A doorbell of a job slot and a die: the descriptor at a device address is offered as LAUNCH offers it, and the status stands
in the dword after the doorbell (R172). -/
def State.doLaunchDoorbell (s : State) (j : BitVec 4) (die pa : Nat) : State :=
  if !s.answers then s
  else if !s.cohReady pa 64 then s.later 1 ordLate (.launchDoorbell j die pa)
  else
    let (s, v) := s.offerLaunch die j (s.cohRead pa 64)
    { s with dev := { s.dev with bells := Tab.set s.dev.bells (2 * j.toNat + die) v } }

def execLaunchDoorbell (s : State) : Host.Outcome State Fault Refusal :=
  .next (match s.ev with
    | .launchDoorbell j d pa => s.doLaunchDoorbell j d pa
    | _ => s)

/-- A write to the wake region has the effect of a wake (R442). -/
def State.doHostWakeWrite (s : State) (k : CoreId) (v : W64) : State :=
  if s.answers ∧ s.clusterValid (coreCluster k) then s.doWakeArrival k v else s

def execHostWakeWrite (s : State) : Host.Outcome State Fault Refusal :=
  .next (match s.ev with
    | .hostWakeWrite k v => s.doHostWakeWrite k v
    | _ => s)

/-- A route entry is written; it holds for messages sent after it, and a chip to which no port leads has left (R430, R417). -/
def State.doRouteTableWrite (s : State) (chip : Nat) (ports : BitVec 18) : State :=
  if s.answers then ({ s with dev := { s.dev with routes := Tab.set s.dev.routes chip ports } }).chipsLost else s

def execRouteTableWrite (s : State) : Host.Outcome State Fault Refusal :=
  .next (match s.ev with
    | .routeTableWrite c m => s.doRouteTableWrite c m
    | _ => s)

/-! The device flush (R451). -/

/-- FLUSH: every line of HBM4 that is not lent takes its step as CFLUSH gives it, while BUSY reads 1. A line that the device
holds no copy of has nothing to flush. -/
def State.doCkctlFlush (s : State) : State :=
  if !s.answers then s
  else
    let id := s.token
    let ls := (s.lines.map (·.1)).filter (fun n => !s.lentAway (128 * n))
    let s := { s.tick1 with dev := { s.dev with ckbusy := true } }
    if ls.isEmpty then s.soon .ckctlFlushDone
    else
      let s := { s with ranges := Tab.set s.ranges id { left := ls.length } }
      ls.foldl (fun (s : State) n => s.later 0 ordLate (.lineStep n 0 true id)) s

/-- BUSY returns to 0 when no device flush is left. -/
def State.doCkctlFlushDone (s : State) : State :=
  { s with dev := { s.dev with ckbusy := s.ranges.any (fun e => e.2.who.isNone) } }

def execCkctlFlush (s : State) : Host.Outcome State Fault Refusal :=
  .next (match s.ev with
    | .ckctlFlush => s.doCkctlFlush
    | _ => s)
def execCkctlFlushDone (s : State) : Host.Outcome State Fault Refusal :=
  .next (match s.ev with
    | .ckctlFlushDone => s.doCkctlFlushDone
    | _ => s)

/-! Scratchpads through window B (R478). -/

/-- An access through window B to a scratchpad: as the port receives it, and at the bank, where it takes its turn after the
grains of the cycle. A write that touches a refused byte writes nothing (R282); any other makes whole words full, and a read's
data go back to the port (R291, R298, R478). -/
def State.doHostScratchpadAccess (s : State) (port addr : Nat) (w : Option (List Byte)) (len id : Nat) (relaxed there : Bool) : State :=
  let pa := s.portPa port addr
  let e : Ev := .hostScratchpadAccess port addr w len id relaxed true
  let scratch := match s.region pa with
    | .scratch _ _ => true
    | _ => false
  if !there then s.portAccess port scratch (s.portReceive port pa e)
  else if !s.bankFree pa then s.later 1 500 e
  else
    let s := s.useBank pa
    match w with
    | some bs =>
      let s := if (s.refusedByte pa bs.length).isSome then s.countRefused pa else s.cohPut pa bs
      s.portDone port pa relaxed
    | none => s.send (.portData port id (s.cohRead pa len) (s.cycle + s.hostWay port pa))

def execHostScratchpadAccess (s : State) : Host.Outcome State Fault Refusal :=
  .next (match s.ev with
    | .hostScratchpadAccess p a w n id r t => s.doHostScratchpadAccess p a w n id r t
    | _ => s)

/-! Registers of window A. -/

/-- The window A offset lies in Thatch's region (R460). -/
def inThatch (off : Nat) : Bool := 0x600000 ≤ off && off < 0x700000
/-- The offset is one that CSR writes of the cycle go before: the monitors and the Loom and slice sets (R70, R472). -/
def afterCsrs (off : Nat) : Bool := 0x700000 ≤ off && off < 0x754000

/-- An instruction of a grain is still to be performed in this cycle. -/
def State.grainsToCome (s : State) : Bool :=
  let instr (e : Entry) : Bool := match e.act with
    | .ev _ => false
    | _ => true
  !s.slotted || s.todo.any instr || s.agenda.any (fun e => instr e && e.due ≤ s.cycle)

/-- A host write of a register of a cluster's monitor (R472). -/
def State.monWrite (s : State) (cl : ClusterId) (o : Nat) (v : W64) : State :=
  if !s.clusterValid cl then s
  else if o = 0 then (if v.getLsbD 5 then s.now (.moncfgClr cl v) else s.doMoncfgWrite cl v)
  else if o = 0x28 then
    let m := (s.cluster cl).mon
    s.setCluster cl { s.cluster cl with mon := { m with
      cntSat := m.cntSat && !v.getLsbD 17, sumSat := m.sumSat && !v.getLsbD 16, binSat := m.binSat &&& ~~~(v.setWidth 16) } }
  else s

/-- A host write of a counter of a Loom's or a slice's set (R70). -/
def State.setWrite (s : State) (off : Nat) (v : W64) : State :=
  let n := off % 0x80 / 8
  if off < 0x750000 then
    let cl := (off - 0x740000) / 0x80
    let l := s.loom cl
    if s.clusterValid cl then
      s.setLoom cl { l with k := { l.k with levc := l.k.levc.set n ((l.k.levc.nth n).write v) } }
    else s
  else
    let z := (off - 0x750000) / 0x80
    s.setSlice z { s.slice z with sevc := (s.slice z).sevc.set n (((s.slice z).sevc.nth n).write v) }

/-- A write of an entry of the incarnation table; recalls from a peer whose incarnation changes end with LOST (R432, R449). -/
def State.incWrite (s : State) (c : Nat) (v : BitVec 8) : State :=
  let old := Tab.get 0 s.dev.incs c
  let s := { s with dev := { s.dev with incs := Tab.set s.dev.incs c v } }
  if old = v then s else s.loseRecalls (· == c)

/-- A write of a register of Thatch: TARG0 to TARG3, ALARM.ERASE and the sticky bits of THLTH are written; TCMD starts its
command unless one runs (R468, R470). -/
def State.thatchWrite (s : State) (off : Nat) (v : W64) : State :=
  let t := s.thatch
  if off = 0x600000 then
    let targ (i : Nat) : W64 := t.targ.getD i 0
    if t.busy then s
    else match (v.extractLsb' 0 8).toNat with
      | 1 => s.now (.tcmdLoad s.dev.chip.toNat (targ 0) (targ 1))
      | 2 => s.now (.tcmdAttest (targ 0))
      | 3 => s.now (.tcmdEnroll (targ 0))
      | 4 => s.now (.tcmdFwupd (targ 0))
      | _ => s
  else if 0x600008 ≤ off ∧ off < 0x600028 ∧ off % 8 = 0 then { s with thatch := { t with targ := t.targ.set ((off - 0x600008) / 8) v } }
  else if off = 0x600030 then { s with thatch := { t with trip := t.trip && !v.getLsbD 17, warn := t.warn && !v.getLsbD 16 } }
  else if off = 0x600058 then { s with thatch := { t with erase := t.erase || v.getLsbD 4 } }
  else s

/-- A write of SLCTL, bit by bit (R447). -/
def State.slctlWrite (s : State) (j : BitVec 4) (v : W64) : State :=
  let s := if v.getLsbD 2 then s.now (.slctlRestore j) else s
  let s := if v.getLsbD 1 then s.now (.slctlEnd j) else s
  if v.getLsbD 0 then s.now (.slctlPre j) else s

/-- A write of window A. An access outside Thatch's region is aborted while the device does not answer; a register with a row of
its own has that event; RO and RSV fields and offsets with no register ignore the write (R6, R460). -/
def State.doRegisterWrite (s : State) (port off : Nat) (v : W64) : State :=
  if inThatch off then s.thatchWrite off v
  else if !s.answers then s.send (.abort port)
  else if afterCsrs off ∧ s.grainsToCome then s.later 0 ordEnd (.registerWrite port off v)
  else if off < 0x2000 ∧ off % 0x100 = 0 then
    s.now (.launchDoorbell (BitVec.ofNat 4 (off / 0x200)) (off / 0x100 % 2) v.toNat)
  else if 0x100000 ≤ off ∧ off < 0x101000 ∧ off % 0x100 = 0 then s.slctlWrite (BitVec.ofNat 4 ((off - 0x100000) / 0x100)) v
  else if 0x200000 ≤ off ∧ off < 0x201000 then s.incWrite (off - 0x200000) (v.setWidth 8)
  else if 0x201000 ≤ off ∧ off < 0x205000 ∧ off % 4 = 0 then s.now (.routeTableWrite ((off - 0x201000) / 4) (v.setWidth 18))
  else if 0x210000 ≤ off ∧ off < 0x212000 ∧ off % 8 = 0 then
    { s with dev := { s.dev with peers := Tab.set s.dev.peers ((off - 0x210000) / 8) (v.getLsbD 63, v.setWidth 12) } }
  else if 0x300000 ≤ off ∧ off < 0x308000 ∧ off % 8 = 0 then s.now (.hostWakeWrite ((off - 0x300000) / 8) v)
  else if off = 0x500000 then (if v.getLsbD 0 then s.now .ckctlFlush else s)
  else if off = 0x500008 then { s with dev := { s.dev with wbbase := v } }
  else if 0x700000 ≤ off ∧ off < 0x720000 then s.monWrite ((off - 0x700000) / 0x100) (off % 0x100) v
  else if 0x740000 ≤ off ∧ off < 0x754000 ∧ off % 8 = 0 then s.setWrite off v
  else s

def execRegisterWrite (s : State) : Host.Outcome State Fault Refusal :=
  .next (match s.ev with
    | .registerWrite p o v => s.doRegisterWrite p o v
    | _ => s)

/-! What the host reads in window A; a read has no effect. -/

/-- TSTAT (R468). -/
def Thatch.tstat (t : Thatch) : W64 :=
  fields [(24, t.fwb.toNat), (16, t.op.toNat), (8, t.code.toNat), (1, t.ready.toNat), (0, t.busy.toNat)]
/-- DEVCFG (R471). -/
def Thatch.devcfg (t : Thatch) : W64 := fields [(18, t.hch.toNat), (9, t.n1.toNat), (0, t.n0.toNat)]
/-- ALARM (R470). -/
def Thatch.alarmReg (t : Thatch) : W64 := fields [(4, t.erase.toNat), (3, t.erased.toNat), (0, t.alarm.toNat)]
/-- THLTH (R473). -/
def Thatch.thlth (t : Thatch) : W64 := fields [(17, t.trip.toNat), (16, t.warn.toNat), (0, t.tj.toNat)]

/-- A register of Thatch's region (R460, R468). -/
def State.thatchRead (s : State) (off : Nat) : W64 :=
  let t := s.thatch
  if 0x600008 ≤ off ∧ off < 0x600028 then t.targ.getD ((off - 0x600008) / 8) 0
  else if off = 0x600028 then t.tstat
  else if off = 0x600030 then t.thlth
  else if off = 0x600040 then t.devcfg
  else if off = 0x600048 then t.lncfg.setWidth 64
  else if off = 0x600058 then t.alarmReg
  else if 0x610000 ≤ off ∧ off < 0x612000 then
    BitVec.ofNat 64 (leNat ((List.range 8).map (fun i => Tab.get 0 t.resp (off - 0x610000 + i))))
  else 0

/-- A register of a cluster's monitor (R472). -/
def Monitor.hostRead (m : Monitor) (o : Nat) : W64 :=
  if o = 0 then m.cfg
  else if o = 8 then zx m.min
  else if o = 0x10 then zx m.max
  else if o = 0x18 then zx m.sum
  else if o = 0x20 then zx m.cnt
  else if o = 0x28 then m.flg
  else if 0x80 ≤ o then zx (m.bins.getD ((o - 0x80) / 8) 0)
  else 0

/-- A dword of an entry of the lend table (R449). -/
def State.lendRead (s : State) (off : Nat) : W64 :=
  let l := (s.dev.lends.getD (off / 16) (0, {})).2
  Config.lendDword l.st.toNat l.kind l.peer.toNat l.viol.toNat (off % 16 / 8)

/-- What a host read of a dword of window A returns; none while it is aborted (R6, R460). -/
def State.windowA (s : State) (off : Nat) : Option W64 :=
  if inThatch off then some (s.thatchRead off)
  else if !s.answers then none
  else if off < 0x2000 ∧ off % 0x100 = 8 then some (Tab.get 0 s.dev.bells (off / 0x100))
  else if 0x100000 ≤ off ∧ off < 0x101000 ∧ off % 0x100 = 0 then
    some (fields [(8, (s.dev.slctl.getD ((off - 0x100000) / 0x100) 0).toNat)])
  else if 0x200000 ≤ off ∧ off < 0x201000 then
    some (BitVec.ofNat 64 (leNat ((List.range 8).map (fun i => Tab.get 0 s.dev.incs (off - 0x200000 + i)))))
  else if 0x201000 ≤ off ∧ off < 0x205000 then some (zx (Tab.get 0 s.dev.routes ((off - 0x201000) / 4)))
  else if 0x210000 ≤ off ∧ off < 0x212000 then
    let p := Tab.get (false, 0) s.dev.peers ((off - 0x210000) / 8)
    some (fields [(63, p.1.toNat), (0, p.2.toNat)])
  else if 0x400000 ≤ off ∧ off < 0x410000 then some (s.lendRead (off - 0x400000))
  else if off = 0x500000 then some (fields [(1, s.dev.ckbusy.toNat)])
  else if off = 0x500008 then some s.dev.wbbase
  else if 0x700000 ≤ off ∧ off < 0x720000 then some ((s.cluster ((off - 0x700000) / 0x100)).mon.hostRead (off % 0x100))
  else if 0x740000 ≤ off ∧ off < 0x750000 then some ((s.loom ((off - 0x740000) / 0x80)).k.levc.nth (off % 0x80 / 8)).read
  else if 0x750000 ≤ off ∧ off < 0x754000 then some ((s.slice ((off - 0x750000) / 0x80)).sevc.nth (off % 0x80 / 8)).read
  else some 0

end Sys2Proof.Machine
end

