-- ==== Sys2Proof/Machine/Boot.lean ====
section
/-!
DEFINITION. Thatch: start-up, Folulo containers, LOAD with the boot tree and forwarding, the other mailbox commands, the security
alarm and the thermal events (R459 to R473).
-/

namespace Sys2Proof.Machine

/-! The Folulo container (R462, R463). -/

/-- A little-endian number of n bytes at an offset. -/
def leAt (bs : List Byte) (o n : Nat) : Nat := leNat ((bs.drop o).take n)
/-- The bytes from one offset to another are zero. -/
def zeroFrom (bs : List Byte) (lo hi : Nat) : Bool := ((bs.drop lo).take (hi - lo)).all (· == 0)

/-- SIGOFF and LENGTH of a container. -/
def sigOff (bs : List Byte) : Nat := leAt bs 32 8
/-- LENGTH. -/
def boxLen (bs : List Byte) : Nat := leAt bs 40 8
/-- KEYIDX. -/
def keyIdx (bs : List Byte) : Nat := leAt bs 12 4

/-- A role entry. -/
structure Role where
  addr  : Nat
  entry : Nat
  size  : Nat
  cls   : Nat
  off   : Nat
  deriving DecidableEq, Repr

/-- Offset of a role entry. -/
def roleAt (bs : List Byte) (r : Nat) : Nat := leAt bs 16 8 + 32 * r
/-- A role entry by number. -/
def roleOf (bs : List Byte) (r : Nat) : Role :=
  let o := roleAt bs r
  { addr := leAt bs o 8, entry := leAt bs (o + 8) 8, size := leAt bs (o + 16) 4, cls := leAt bs (o + 20) 1, off := leAt bs (o + 24) 8 }
/-- The numbers of the roles. -/
def roleNos (bs : List Byte) : List Nat := List.range (leAt bs 6 2)
/-- The image of a role. -/
def imageOf (bs : List Byte) (r : Nat) : List Byte := (bs.drop (roleOf bs r).off).take (roleOf bs r).size

/-- A placement entry: FIRST, LAST and ROLE. -/
def placeOf (bs : List Byte) (i : Nat) : Nat × Nat × Nat :=
  let w := leAt bs (leAt bs 24 8 + 8 * i) 8
  (w % 2 ^ 24, w / 2 ^ 24 % 2 ^ 24, w / 2 ^ 48 % 256)
/-- The placement entries. -/
def placesOf (bs : List Byte) : List (Nat × Nat × Nat) := (List.range (leAt bs 8 4)).map (placeOf bs)

/-- The bytes are a container as R462 lays it out. -/
def boxOk (bs : List Byte) : Bool :=
  let nr := leAt bs 6 2
  let np := leAt bs 8 4
  let len := boxLen bs
  leAt bs 0 4 == 0x554C4F46 && leAt bs 4 2 == 1 && 1 ≤ nr && nr ≤ 256 && 1 ≤ np && np ≤ 65536
    && (keyIdx bs < 8 || keyIdx bs == 15)
    && leAt bs 16 8 % 64 == 0 && leAt bs 24 8 % 64 == 0 && sigOff bs % 64 == 0 && len == sigOff bs + 3392
    && zeroFrom bs 48 64 && bs.length == len
    && leAt bs 16 8 + 32 * nr ≤ len && leAt bs 24 8 + 8 * np ≤ len
    && (roleNos bs).all (fun r =>
      let x := roleOf bs r
      zeroFrom bs (roleAt bs r + 21) (roleAt bs r + 24) && x.cls ≤ 1 && x.off + x.size ≤ len)
    && (List.range np).all (fun i => leAt bs (leAt bs 24 8 + 8 * i + 7) 1 == 0)
    && zeroFrom bs (sigOff bs + 3373) len

/-- The public keys of a key slot: Ed25519 and ML-DSA-65 (R463). -/
def Thatch.slotKeys (t : Thatch) (k : Nat) : Option (List Byte × List Byte) :=
  if k = 15 then some (Config.phovenEd, Config.phovenMl) else (Tab.find t.keys k).map (fun b => (b.take 32, b.drop 32))

/-- The first signature over a message that fails under a pair of keys: 3 Ed25519, 4 ML-DSA-65, 0 none (R463). -/
def sigCode (keys : List Byte × List Byte) (msg ed ml : List Byte) : BitVec 8 :=
  if !Config.ed25519Ok keys.1 msg ed then 3 else if !Config.mldsaOk keys.2 msg ml then 4 else 0

/-- The signatures of a container. -/
def boxSigCode (keys : List Byte × List Byte) (bs : List Byte) : BitVec 8 :=
  let o := sigOff bs
  sigCode keys (bs.take o) ((bs.drop o).take 64) ((bs.drop (o + 64)).take 3309)

/-- A container verified as firmware, under slot 0xF only (R463). -/
def firmwareCode (bs : List Byte) : BitVec 8 :=
  if !boxOk bs ∨ keyIdx bs ≠ 15 then 1 else boxSigCode (Config.phovenEd, Config.phovenMl) bs

/-! Start-up (R459). -/

/-- The state that every start-up begins from: what is held in flash and fuses stays; all else
takes its reset value. -/
def State.freshStart (s : State) : State :=
  let t := s.thatch
  { State.reset with
    todo := [], phase0 := s.phase0, phase1 := s.phase1, fresh := s.fresh, draws := s.draws, out := s.out
    dev := { ({} : Device) with wbsize := s.dev.wbsize, cxl := s.dev.cxl }
    thatch := { ({} : Thatch) with
      hch := t.hch, lnFuse := t.lnFuse, keys := t.keys, fwA := t.fwA, fwB := t.fwB, sel := t.sel, incs := t.incs, log := t.log
      fused := t.fused, erased := t.erased } }

/-- The enabled physical clusters of a die, in rising order: those neither fused off nor in the failure log (R148, R461). -/
def Thatch.enabled (t : Thatch) (die : Nat) : List Nat :=
  (List.range 256).filter (fun p => !(t.fused ++ t.log).contains (256 * die + p))

/-- Step 2: the copy that runs and whether it is B, or the code with which both have failed. -/
def Thatch.pickFirmware (t : Thatch) : (List Byte × Bool) ⊕ BitVec 8 :=
  let copy (b : Bool) : List Byte := if b then t.fwB else t.fwA
  if firmwareCode (copy t.sel) = 0 then .inl (copy t.sel, t.sel)
  else if firmwareCode (copy !t.sel) = 0 then .inl (copy !t.sel, !t.sel)
  else .inr (firmwareCode (copy !t.sel))

/-- Step 3: the remap tables, DEVCFG, LNCFG and DOMCFG.INC. -/
def State.configure (s : State) : State :=
  let t := s.thatch
  let e0 := t.enabled 0
  let e1 := t.enabled 1
  { s with
    dev := { s.dev with remap0 := e0, remap1 := e1, inc := t.incs + 1 }
    thatch := { t with n0 := BitVec.ofNat 9 e0.length, n1 := BitVec.ofNat 9 e1.length, lncfg := t.lnFuse, incs := t.incs + 1 } }

/-- Bytes put into memory that no cache holds. -/
def State.putRaw (s : State) (pa : Nat) (bs : List Byte) : State :=
  (splitLines pa bs.length).foldl (fun (s : State) p =>
    match s.region p.pa with
    | .hbm => { s with mem := Memory.write s.mem p.pa ((bs.drop (p.pa - pa)).take p.len) }
    | .scratch _ _ => { s with mem := Memory.write s.mem p.pa ((bs.drop (p.pa - pa)).take p.len) }
    | .bstore _ _ => { s with mem := Memory.write s.mem p.pa ((bs.drop (p.pa - pa)).take p.len) }
    | _ => s) s

/-- The grain role of the firmware. -/
def grainRole (bs : List Byte) : Option Role := ((roleNos bs).map (roleOf bs)).find? (fun r => r.cls == 0)

/-- Where the two tables of the identity map lie: a free place in HBM4 that the image leaves alone. -/
def State.mapAt (s : State) (r : Role) : Nat :=
  let p := 8192 * (Config.freeMap s.draws % (s.hbmLen / 8192))
  if p < r.addr + r.size ∧ r.addr < p + 8192 then (r.addr + r.size + 8191) / 8192 * 8192 else p

/-- Step 5: the firmware's image, and the identity map of the first 1 GiB, to which ASROOT15 points. -/
def State.bootImage (s : State) (bs : List Byte) (r : Role) : State :=
  let p := s.mapAt r
  let s := s.putRaw r.addr ((bs.drop r.off).take r.size)
  let s := (s.putRaw p (leBytes 4096 (p + 4096 + 1))).putRaw (p + 4096) (leBytes 4096 0x1F)
  { s with draws := s.draws + 1, dev := { s.dev with asroot := s.dev.asroot.set 15 (true, BitVec.ofNat 40 (p / 4096)) } }

/-- Step 6: context 0 of every enabled core starts. -/
def State.startStewards (s : State) (entry : Nat) : State :=
  ([0, 1].flatMap (fun die => (List.range (8 * s.nClusters die)).map (fun k => 2048 * die + k))).foldl (fun (s : State) k =>
    let c := stewardOf k
    let x := s.freshCtx c (BitVec.ofNat 64 entry &&& ~~~3#64) true 15 []
    s.setCtx c { x with st := .issuing, readyAt := s.next16 (k / 2048) s.cycle }) s

/-- Start-up, from power-on or device reset. -/
def State.startUp (s : State) : State :=
  let s := s.freshStart
  if s.thatch.erased then s
  else match s.thatch.pickFirmware with
    | .inr code => { s with thatch := { s.thatch with code := code } }
    | .inl (bs, b) =>
      let s := { s with thatch := { s.thatch with sel := b, fwb := b } }.configure
      let s := { s with thatch := { s.thatch with ready := true, running := bs.take (sigOff bs) } }
      match grainRole bs with
      | some r => (s.bootImage bs r).startStewards r.entry
      | none => s

def execPowerOn (s : State) : Host.Outcome State Fault Refusal :=
  .next (match s.ev with
    | .powerOn => s.startUp
    | _ => s)

/-- A device reset starts the part anew, but not out of the state that an alarm has left (R470). -/
def State.doDeviceReset (s : State) : State := if s.thatch.alarmed then s else s.startUp

def execDeviceReset (s : State) : Host.Outcome State Fault Refusal :=
  .next (match s.ev with
    | .deviceReset => s.doDeviceReset
    | _ => s)

/-! Commands (R468). -/

/-- A command ends with its code; the oldest LOAD that waits behind it starts (R467). -/
def State.endCmd (s : State) (code : BitVec 8) : State :=
  let t := s.thatch
  let s := { s with thatch := { t with busy := false, code := code, cmd := none, load := none, images := [], waiting := t.waiting.tail } }
  match t.waiting with
  | (r, a, b) :: _ => s.now (.tcmdLoad r a b)
  | [] => s

/-- A command is accepted unless another runs, waits until the lines it touches are at rest, and runs; after an erasure every
command ends with code 9. -/
def State.command (s : State) (op : BitVec 8) (e : Ev) (ready : Bool) (go : State → State) : State :=
  let t := s.thatch
  let mine := match t.cmd with
    | some (e2, due) => e2 == e && due == s.cycle
    | none => !t.busy
  if !mine then s
  else
    let s := { s with thatch := { t with op := op, busy := true, cmd := none } }
    if t.erased then s.endCmd 9
    else if ready then go s
    else { s with thatch := { s.thatch with cmd := some (e, s.cycle + 1) } }.later 1 ordLate e

/-- Bytes of HBM4, those outside it left out. -/
def State.hbmRead (s : State) (pa n : Nat) : List Byte := if pa < s.hbmLen then s.cohRead pa (min n (s.hbmLen - pa)) else []
/-- Lines of HBM4 are at rest. -/
def State.hbmReady (s : State) (pa n : Nat) : Bool := pa ≥ s.hbmLen || s.cohReady pa (min n (s.hbmLen - pa))
/-- The bytes of a container at an address. -/
def State.boxAt (s : State) (pa : Nat) : List Byte := s.hbmRead pa (boxLen (s.hbmRead pa 64))
/-- They are at rest. -/
def State.boxReady (s : State) (pa : Nat) : Bool := s.hbmReady pa 64 && s.hbmReady pa (boxLen (s.hbmRead pa 64))

/-! LOAD (R464, R465). -/

/-- The part of a placement entry that lies on this chip, as core numbers of the chip. -/
def State.ownPart (s : State) (p : Nat × Nat × Nat) : Option (Nat × Nat) :=
  let base := 4096 * s.dev.chip.toNat
  let lo := max p.1 base
  let hi := min p.2.1 (base + 4095)
  if lo ≤ hi then some (lo - base, hi - base) else none

/-- The valid clusters with a core in a placement entry's part on this chip. -/
def State.placedOn (s : State) (p : Nat × Nat × Nat) : List ClusterId :=
  match s.ownPart p with
  | none => []
  | some (lo, hi) => (List.range 512).filter (fun k => s.clusterValid k && decide (8 * k ≤ hi) && decide (lo ≤ 8 * k + 7))

/-- The clusters of this chip on which a role is placed. -/
def State.roleClusters (s : State) (bs : List Byte) (r : Nat) : List ClusterId :=
  (((placesOf bs).filter (fun p => p.2.2 == r)).flatMap s.placedOn).eraseDups

/-- The roles of a class that are placed on this chip. -/
def State.rolesHere (s : State) (bs : List Byte) (cls : Nat) : List Nat :=
  (roleNos bs).filter (fun r => (roleOf bs r).cls == cls && !(s.roleClusters bs r).isEmpty)

/-- Two roles' load ranges overlap. -/
def rolesMeet (a b : Role) : Bool := overlaps a.addr a.size b.addr b.size

/-- Code 5. -/
def State.badPlace (s : State) (bs : List Byte) : Bool :=
  let grains := s.rolesHere bs 0
  let weaves := s.rolesHere bs 1
  (placesOf bs).any (fun p => decide (p.2.1 < p.1) || ((s.ownPart p).isSome && decide (leAt bs 6 2 ≤ p.2.2)))
    || grains.any (fun a => grains.any (fun b => a != b && rolesMeet (roleOf bs a) (roleOf bs b)))
    || weaves.any (fun a => weaves.any (fun b => a != b && (s.roleClusters bs a).any (s.roleClusters bs b).contains))
    || weaves.any (fun a => decide (0x10000 < (roleOf bs a).addr + (roleOf bs a).size))

/-- Code 6: a context of the job slot is not Stopped; context 15 is of a slot only while it runs a message of it. -/
def State.slotBusy (s : State) (j : BitVec 4) : Bool :=
  s.ctxs.any (fun e => e.2.st != .stopped && s.slotOf e.1 == j && (ctxNo e.1 != 15 || e.2.msg.isSome))

/-- The physical pieces of a grain role through the slot's tables, page by page; none where a page fails. -/
def State.rolePieces (s : State) (j : BitVec 4) (r : Role) : Option (List Piece) :=
  (pageRuns (BitVec.ofNat 64 r.addr) r.size).foldl (fun acc (a, m) =>
    match acc, (s.walk j a).ent with
    | some l, some e => if s.region (e.phys a.toNat) = .none then none else some (l ++ splitLines (e.phys a.toNat) m)
    | _, _ => none) (some [])

/-- The code of a LOAD of some bytes into a job slot, but for an alarm. -/
def State.loadCode (s : State) (j : BitVec 4) (bs : List Byte) : BitVec 8 :=
  if !boxOk bs then 1
  else match s.thatch.slotKeys (keyIdx bs) with
    | none => 2
    | some k =>
      if boxSigCode k bs ≠ 0 then boxSigCode k bs
      else if s.badPlace bs then 5
      else if s.slotBusy j then 6
      else if (s.rolesHere bs 0).any (fun r => (s.rolePieces j (roleOf bs r)).isNone) then 8
      else 0

/-- The pieces that a LOAD writes are at rest. -/
def State.loadReady (s : State) (j : BitVec 4) (bs : List Byte) : Bool :=
  (s.rolesHere bs 0).all (fun r => match s.rolePieces j (roleOf bs r) with
    | some ps => s.unitReady j (BitVec.ofNat 64 (roleOf bs r).addr) ps
    | none => true)

/-- Write pieces whose whole words become full. -/
def State.fillPieces (s : State) : List Piece → List Byte → State
  | [], _ => s
  | p :: t, bs =>
    let b := bs.take p.len
    let s := if (s.region p.pa).outside then s.writePieces [p] b else s.cohPut p.pa b
    s.fillPieces t (bs.drop p.len)

/-- A grain role is written through the slot's tables, and the written lines leave every instruction cache (R465). -/
def State.loadGrain (s : State) (j : BitVec 4) (bs : List Byte) (r : Nat) : State :=
  let x := roleOf bs r
  let va : W64 := BitVec.ofNat 64 x.addr
  match s.rolePieces j x with
  | none => s
  | some ps =>
    let s := (s.dirtyRun j va x.size).fillPieces ps (imageOf bs r)
    let hit (line : Nat) : Bool := ps.any (fun p => lineOf p.pa == line)
    { s with cores := Tab.mapVal (fun c => { c with icache := c.icache.filter (fun l => !hit l.1) }) s.cores }

/-- A weave role sets out on the boot tree of each die (R466). -/
def State.loadWeave (s : State) (bs : List Byte) (r : Nat) : State :=
  let s := { s with thatch := { s.thatch with
    images := Tab.set s.thatch.images r ((roleOf bs r).addr, imageOf bs r, s.roleClusters bs r) } }
  (s.soon (.bootTreeSend 0 0 r)).soon (.bootTreeSend 1 0 r)

/-- The chips to which this chip forwards a container that a first chip loads (R467). -/
def State.forwardTo (s : State) (root : Nat) : List Nat :=
  let n := s.dev.nchm1.toNat + 1
  let k := (s.dev.chip.toNat + n - root % n) % n
  ([2 * k + 1, 2 * k + 2].filter (· < n)).map (fun k => (root + k) % n)

/-- LOAD. -/
def State.doTcmdLoad (s : State) (root : Nat) (targ0 targ1 : W64) : State :=
  let pa := targ0.toNat
  let j : BitVec 4 := targ1.setWidth 4
  let bs := s.boxAt pa
  s.command 1 (.tcmdLoad root targ0 targ1) (s.boxReady pa && s.loadReady j bs) (fun s =>
    let s := if targ1.getLsbD 4 then
        ((s.forwardTo root).filter (fun c => !s.chipGone c)).foldl (fun (s : State) c => s.dieOut 0 c (.forward root pa j bs)) s
      else s
    let code := s.loadCode j bs
    if code ≠ 0 then s.endCmd code
    else
      let weaves := s.rolesHere bs 1
      let s := (s.rolesHere bs 0).foldl (fun (s : State) r => s.loadGrain j bs r) s
      let signed := bs.take (sigOff bs)
      if weaves.isEmpty then
        { s with thatch := { s.thatch with loaded := Tab.set s.thatch.loaded j.toNat signed } }.endCmd 0
      else
        let s := { s with thatch := { s.thatch with load := some (j, signed) } }
        weaves.foldl (fun (s : State) r => s.loadWeave bs r) s)

def execTcmdLoad (s : State) : Host.Outcome State Fault Refusal :=
  .next (match s.ev with
    | .tcmdLoad r a b => s.doTcmdLoad r a b
    | _ => s)

/-- Bytes put into an image buffer, which holds 32-bit words. -/
def imagePut (m : Tab W32) : Nat → List Byte → Tab W32
  | _, [] => m
  | o, b :: t =>
    let w := Tab.get 0 m (o / 4)
    let sh := 8 * (o % 4)
    imagePut (Tab.set m (o / 4) ((w &&& ~~~(0xFF#32 <<< sh)) ||| (b.setWidth 32 <<< sh))) (o + 1) t

/-- A send is still under way. -/
def State.sending (s : State) : Bool :=
  let send (e : Entry) : Bool := match e.act with
    | .ev (.bootTreeSend _ _ _) => true
    | _ => false
  s.todo.any send || s.agenda.any send

/-- A cluster's copy of an image is complete: it keeps it if it is placed there, and sends it on to its two clusters, one after the
other; the last send of all ends the LOAD (R465, R466). -/
def State.doBootTreeSend (s : State) (die n r : Nat) : State :=
  match Tab.find s.thatch.images r with
  | none => s
  | some (addr, bs, cls) =>
    let cl := 256 * die + n
    let x := s.cluster cl
    let s := if cls.contains cl then s.setCluster cl { x with image := imagePut x.image addr bs } else s
    let time (m : Nat) : Nat := (bs.length + 127) / 128 + 10 + 2 * s.dist cl (256 * die + m)
    let a := 2 * n + 1
    let s := if a < s.nClusters die then s.later (time a) ordLate (.bootTreeSend die a r) else s
    let s := if a + 1 < s.nClusters die then s.later (time a + time (a + 1)) ordLate (.bootTreeSend die (a + 1) r) else s
    if s.sending then s
    else match s.thatch.load with
      | some (j, signed) => { s with thatch := { s.thatch with loaded := Tab.set s.thatch.loaded j.toNat signed } }.endCmd 0
      | none => s

def execBootTreeSend (s : State) : Host.Outcome State Fault Refusal :=
  .next (match s.ev with
    | .bootTreeSend d n r => s.doBootTreeSend d n r
    | _ => s)

/-- A forwarded container is written at its address, and a LOAD with FWD is queued (R467). -/
def State.doChipForward (s : State) (root pa : Nat) (j : BitVec 4) (bs : List Byte) : State :=
  if s.thatch.alarmed then s
  else if !s.hbmReady pa bs.length then s.later 1 ordLate (.chipForward root pa j bs none)
  else
    let s := if pa < s.hbmLen then s.cohPut pa (bs.take (s.hbmLen - pa)) else s
    let targ1 : W64 := zx j ||| 0x10
    if s.thatch.busy then
      { s with thatch := { s.thatch with waiting := s.thatch.waiting ++ [(root, BitVec.ofNat 64 pa, targ1)] } }
    else s.now (.tcmdLoad root (BitVec.ofNat 64 pa) targ1)

def execChipForward (s : State) : Host.Outcome State Fault Refusal :=
  .next (match s.ev with
    | .chipForward r pa j bs l => s.fromLink l (fun s => s.doChipForward r pa j bs)
    | _ => s)

/-! ATTEST, ENROLL and FWUPD (R468, R469). -/

/-- An operand address is bad: some byte lies outside HBM4, or it is not aligned to 8. -/
def State.badOperand (s : State) (pa n : Nat) : Bool := pa % 8 != 0 || decide (s.hbmLen < pa + n)

/-- Bytes put into the response buffer. -/
def State.respond (s : State) (o : Nat) (bs : List Byte) : State :=
  { s with thatch := { s.thatch with resp := (bs.zipIdx o).foldl (fun m (b, i) => if i < 8192 then Tab.set m i b else m) s.thatch.resp } }

/-- The signed part of a report: nonce, digests of the firmware and of each slot's container, and four registers. -/
def State.report (s : State) (nonce : List Byte) : List Byte :=
  let t := s.thatch
  nonce ++ Config.sha384 t.running
    ++ (List.range 16).flatMap (fun j => match Tab.find t.loaded j with
      | some b => Config.sha384 b
      | none => List.replicate 48 0)
    ++ leBytes 8 t.devcfg.toNat ++ leBytes 8 t.lncfg.toNat ++ leBytes 8 s.dev.domcfg.toNat ++ leBytes 8 t.alarmReg.toNat

/-- ATTEST. -/
def State.doTcmdAttest (s : State) (targ0 : W64) : State :=
  let pa := targ0.toNat
  s.command 2 (.tcmdAttest targ0) (s.hbmReady pa 32) (fun s =>
    if s.badOperand pa 32 then s.endCmd 1
    else
      let r := s.report (s.hbmRead pa 32)
      let s := ((s.respond 0 r).respond 880 (Config.ed25519Sign r)).respond 944 (Config.mldsaSign r)
      (s.respond 0x1100 Config.identity).endCmd 0)

def execTcmdAttest (s : State) : Host.Outcome State Fault Refusal :=
  .next (match s.ev with
    | .tcmdAttest a => s.doTcmdAttest a
    | _ => s)

/-- The code of an ENROLL, but for the flash. -/
def Thatch.enrollCode (t : Thatch) (bs : List Byte) : BitVec 8 :=
  if !zeroFrom bs 1 8 ∨ !zeroFrom bs 1992 2048 then 1
  else if 7 < leAt bs 0 1 then 10
  else match t.slotKeys 0 with
    | none => 0
    | some k =>
      if zeroFrom bs 2048 5421 then 11
      else sigCode k (bs.take 1992) ((bs.drop 2048).take 64) ((bs.drop 2112).take 3309)

/-- ENROLL. -/
def State.doTcmdEnroll (s : State) (targ0 : W64) : State :=
  let pa := targ0.toNat
  s.command 3 (.tcmdEnroll targ0) (s.hbmReady pa 5421) (fun s =>
    let bs := s.hbmRead pa 5421
    let code := if s.badOperand pa 5421 then 1 else s.thatch.enrollCode bs
    if code ≠ 0 then s.endCmd code
    else
      let ok := Config.flashOk s.draws
      let s := { s with draws := s.draws + 1 }
      if ok then
        { s with thatch := { s.thatch with keys := Tab.set s.thatch.keys (leAt bs 0 1) ((bs.drop 8).take 1984) } }.endCmd 0
      else s.endCmd 12)

def execTcmdEnroll (s : State) : Host.Outcome State Fault Refusal :=
  .next (match s.ev with
    | .tcmdEnroll a => s.doTcmdEnroll a
    | _ => s)

/-- FWUPD: the copy that does not run is written, and the selector names it once it has been read back and verified. -/
def State.doTcmdFwupd (s : State) (targ0 : W64) : State :=
  let pa := targ0.toNat
  s.command 4 (.tcmdFwupd targ0) (s.boxReady pa) (fun s =>
    let bs := s.boxAt pa
    let code := if s.badOperand pa (boxLen bs) then 1 else firmwareCode bs
    if code ≠ 0 then s.endCmd code
    else
      let ok := Config.flashOk s.draws
      let new := if ok then bs else Config.freeFlash s.draws
      let t := s.thatch
      let t := if t.fwb then { t with fwA := new } else { t with fwB := new }
      let t := if ok then { t with sel := !t.fwb } else t
      { s with draws := s.draws + 1, thatch := t }.endCmd (if ok then 0 else 12))

def execTcmdFwupd (s : State) : Host.Outcome State Fault Refusal :=
  .next (match s.ev with
    | .tcmdFwupd a => s.doTcmdFwupd a
    | _ => s)

/-! The security alarm and the thermal events (R470, R473). -/

/-- Both dies stop: nothing more is issued or dispatched, and every context is Stopped. -/
def State.stopDies (s : State) : State :=
  let go (e : Entry) : Bool := match e.act with
    | .ev (.bundleDispatch _) => false
    | .ev _ => true
    | _ => false
  { s with todo := s.todo.filter go, agenda := s.agenda.filter go, ctxs := [], thatch := { s.thatch with hold := true } }

/-- Every job slot is ended (R418). -/
def State.endSlots (s : State) : State :=
  (List.range 16).foldl (fun (s : State) j => s.doGangEnd (some (BitVec.ofNat 4 j)) 0 7 0) s

/-- Place of the clearing in the cycle of an alarm: after all else. -/
def ordClear : Nat := 180000

/-- Both dies are in reset, and every memory and cache is zero; with ERASE the owner keys go for good. -/
def State.clearPart (s : State) : State :=
  let t := s.thatch
  { State.reset with
    todo := [], cycle := s.cycle, phase0 := s.phase0, phase1 := s.phase1, fresh := s.fresh, draws := s.draws, out := s.out
    dev := { s.dev with
      launches := [], gangs := [], jobs := [], launchQ := [], ewaits := [], reads := [], th0 := {}, th1 := {}, ckbusy := false }
    thatch := { t with keys := if t.erase then [] else t.keys, erased := t.erased || t.erase } }

/-- An alarm: in its cycle every job slot ends, the dies stop and a running command ends with code 7; then the part is cleared. An
alarm with no new cause is that second act. -/
def State.doSecurityAlarm (s : State) (which : BitVec 3) : State :=
  let t := s.thatch
  if which = 0 then (if t.alarmed then s.clearPart else s)
  else if t.alarm ||| which = t.alarm then s
  else if t.alarmed then { s with thatch := { t with alarm := t.alarm ||| which } }
  else
    let s := s.endSlots.stopDies
    let t := s.thatch
    let s := { s with thatch := { t with
      alarm := t.alarm ||| which, alarmed := true, waiting := [], images := [], load := none, cmd := none, busy := false
      code := if t.busy then 7 else t.code } }
    s.later 0 ordClear (.securityAlarm 0)

def execSecurityAlarm (s : State) : Host.Outcome State Fault Refusal :=
  .next (match s.ev with
    | .securityAlarm w => s.doSecurityAlarm w
    | _ => s)

/-- The junction passes 105 degrees: WARN is set, and the first steward of each die is woken. -/
def State.doThermalWarn (s : State) (tj : BitVec 16) : State :=
  let w := s.thatch.warn
  let s := { s with thatch := { s.thatch with warn := true, tj := tj } }
  if w then s else (s.doWakeArrival 0 0x7E410001).doWakeArrival 2048 0x7E410001

def execThermalWarn (s : State) : Host.Outcome State Fault Refusal :=
  .next (match s.ev with
    | .thermalWarn t => s.doThermalWarn t
    | _ => s)

/-- The junction passes 115 degrees: TRIP is set, every job slot ends, and both dies are held in reset; memory stands. -/
def State.doThermalTrip (s : State) (tj : BitVec 16) : State :=
  let s := { s with thatch := { s.thatch with trip := true, tj := tj } }
  if s.thatch.hold then s else s.endSlots.stopDies

def execThermalTrip (s : State) : Host.Outcome State Fault Refusal :=
  .next (match s.ev with
    | .thermalTrip t => s.doThermalTrip t
    | _ => s)

end Sys2Proof.Machine
end

