-- ==== Sys2Proof/Machine/Dispatch.lean ====
section
/-! DEFINITION. The dispatch of every constructor of Instr to its meaning. -/

namespace Sys2Proof.Machine

/-- One step's instruction or event, performed. -/
def exec (i : Instr) (s : State) : Host.Outcome State Fault Refusal :=
  match i with
  | .add d a b => Sys2Proof.Machine.execAdd d a b s
  | .sub d a b => Sys2Proof.Machine.execSub d a b s
  | .addw d a b => Sys2Proof.Machine.execAddw d a b s
  | .subw d a b => Sys2Proof.Machine.execSubw d a b s
  | .and_ d a b => Sys2Proof.Machine.execAnd d a b s
  | .or_ d a b => Sys2Proof.Machine.execOr d a b s
  | .xor_ d a b => Sys2Proof.Machine.execXor d a b s
  | .andn d a b => Sys2Proof.Machine.execAndn d a b s
  | .orn d a b => Sys2Proof.Machine.execOrn d a b s
  | .xnor d a b => Sys2Proof.Machine.execXnor d a b s
  | .sll d a b => Sys2Proof.Machine.execSll d a b s
  | .srl d a b => Sys2Proof.Machine.execSrl d a b s
  | .sra d a b => Sys2Proof.Machine.execSra d a b s
  | .rol d a b => Sys2Proof.Machine.execRol d a b s
  | .ror d a b => Sys2Proof.Machine.execRor d a b s
  | .sllw d a b => Sys2Proof.Machine.execSllw d a b s
  | .srlw d a b => Sys2Proof.Machine.execSrlw d a b s
  | .sraw d a b => Sys2Proof.Machine.execSraw d a b s
  | .mul d a b => Sys2Proof.Machine.execMul d a b s
  | .mulh d a b => Sys2Proof.Machine.execMulh d a b s
  | .mulhu d a b => Sys2Proof.Machine.execMulhu d a b s
  | .mulw d a b => Sys2Proof.Machine.execMulw d a b s
  | .div d a b => Sys2Proof.Machine.execDiv d a b s
  | .divu d a b => Sys2Proof.Machine.execDivu d a b s
  | .rem d a b => Sys2Proof.Machine.execRem d a b s
  | .remu d a b => Sys2Proof.Machine.execRemu d a b s
  | .addi d a imm => Sys2Proof.Machine.execAddi d a imm s
  | .andi d a imm => Sys2Proof.Machine.execAndi d a imm s
  | .ori d a imm => Sys2Proof.Machine.execOri d a imm s
  | .xori d a imm => Sys2Proof.Machine.execXori d a imm s
  | .slli d a sh => Sys2Proof.Machine.execSlli d a sh s
  | .srli d a sh => Sys2Proof.Machine.execSrli d a sh s
  | .srai d a sh => Sys2Proof.Machine.execSrai d a sh s
  | .clz d a => Sys2Proof.Machine.execClz d a s
  | .ctz d a => Sys2Proof.Machine.execCtz d a s
  | .popc d a => Sys2Proof.Machine.execPopc d a s
  | .brev d a => Sys2Proof.Machine.execBrev d a s
  | .bswap d a => Sys2Proof.Machine.execBswap d a s
  | .bext d a b => Sys2Proof.Machine.execBext d a b s
  | .bins d a b c => Sys2Proof.Machine.execBins d a b c s
  | .hash d a b => Sys2Proof.Machine.execHash d a b s
  | .crc d a b z => Sys2Proof.Machine.execCrc d a b z s
  | .slt d a b => Sys2Proof.Machine.execSlt d a b s
  | .sltu d a b => Sys2Proof.Machine.execSltu d a b s
  | .seq d a b => Sys2Proof.Machine.execSeq d a b s
  | .sel d a b c => Sys2Proof.Machine.execSel d a b c s
  | .hset d h imm => Sys2Proof.Machine.execHset d h imm s
  | .hins d h imm => Sys2Proof.Machine.execHins d h imm s
  | .beq a b off => Sys2Proof.Machine.execBeq a b off s
  | .bne a b off => Sys2Proof.Machine.execBne a b off s
  | .blt a b off => Sys2Proof.Machine.execBlt a b off s
  | .bge a b off => Sys2Proof.Machine.execBge a b off s
  | .bltu a b off => Sys2Proof.Machine.execBltu a b off s
  | .bgeu a b off => Sys2Proof.Machine.execBgeu a b off s
  | .jal d off => Sys2Proof.Machine.execJal d off s
  | .jalr d a => Sys2Proof.Machine.execJalr d a s
  | .ret a => Sys2Proof.Machine.execRet a s
  | .lb t b dc cls off => Sys2Proof.Machine.execLb t b dc cls off s
  | .lbu t b dc cls off => Sys2Proof.Machine.execLbu t b dc cls off s
  | .lh t b dc cls off => Sys2Proof.Machine.execLh t b dc cls off s
  | .lhu t b dc cls off => Sys2Proof.Machine.execLhu t b dc cls off s
  | .lw t b dc cls off => Sys2Proof.Machine.execLw t b dc cls off s
  | .lwu t b dc cls off => Sys2Proof.Machine.execLwu t b dc cls off s
  | .ld t b dc cls off => Sys2Proof.Machine.execLd t b dc cls off s
  | .sb t b dc cls off => Sys2Proof.Machine.execSb t b dc cls off s
  | .sh t b dc cls off => Sys2Proof.Machine.execSh t b dc cls off s
  | .sw t b dc cls off => Sys2Proof.Machine.execSw t b dc cls off s
  | .sd t b dc cls off => Sys2Proof.Machine.execSd t b dc cls off s
  | .pref l b dc cls off => Sys2Proof.Machine.execPref l b dc cls off s
  | .fadd d a b => Sys2Proof.Machine.execFadd d a b s
  | .fsub d a b => Sys2Proof.Machine.execFsub d a b s
  | .fmul d a b => Sys2Proof.Machine.execFmul d a b s
  | .fdiv d a b => Sys2Proof.Machine.execFdiv d a b s
  | .fsqrt d a => Sys2Proof.Machine.execFsqrt d a s
  | .fma d a b c => Sys2Proof.Machine.execFma d a b c s
  | .fmin d a b => Sys2Proof.Machine.execFmin d a b s
  | .fmax d a b => Sys2Proof.Machine.execFmax d a b s
  | .fsgnj d a b m => Sys2Proof.Machine.execFsgnj d a b m s
  | .feq d a b => Sys2Proof.Machine.execFeq d a b s
  | .flt d a b => Sys2Proof.Machine.execFlt d a b s
  | .fle d a b => Sys2Proof.Machine.execFle d a b s
  | .cvtf d a u => Sys2Proof.Machine.execCvtf d a u s
  | .cvti d a => Sys2Proof.Machine.execCvti d a s
  | .narrow d a b => Sys2Proof.Machine.execNarrow d a b s
  | .widen d a b => Sys2Proof.Machine.execWiden d a b s
  | .pack d a b c => Sys2Proof.Machine.execPack d a b c s
  | .unpack d a b => Sys2Proof.Machine.execUnpack d a b s
  | .mkscl d a => Sys2Proof.Machine.execMkscl d a s
  | .isect d a b w => Sys2Proof.Machine.execIsect d a b w s
  | .fmt p => Sys2Proof.Machine.execFmt p s
  | .nop => Sys2Proof.Machine.execNop s
  | .scall a => Sys2Proof.Machine.execScall a s
  | .sret => Sys2Proof.Machine.execSret s
  | .trap a b => Sys2Proof.Machine.execTrap a b s
  | .idle => Sys2Proof.Machine.execIdle s
  | .csrr d n => Sys2Proof.Machine.execCsrr d n s
  | .csrw d a n => Sys2Proof.Machine.execCsrw d a n s
  | .cstart d a b c => Sys2Proof.Machine.execCstart d a b c s
  | .cstop d a => Sys2Proof.Machine.execCstop d a s
  | .creap d a => Sys2Proof.Machine.execCreap d a s
  | .spawn d a b => Sys2Proof.Machine.execSpawn d a b s
  | .rfork d a b c => Sys2Proof.Machine.execRfork d a b c s
  | .join a => Sys2Proof.Machine.execJoin a s
  | .jwait a => Sys2Proof.Machine.execJwait a s
  | .launch d a => Sys2Proof.Machine.execLaunch d a s
  | .lr d a aq rl dc cls => Sys2Proof.Machine.execLr d a aq rl dc cls s
  | .sc d a b aq rl dc cls => Sys2Proof.Machine.execSc d a b aq rl dc cls s
  | .fxswp d a b aq rl dc cls => Sys2Proof.Machine.execFxswp d a b aq rl dc cls s
  | .fxadd d a b aq rl dc cls => Sys2Proof.Machine.execFxadd d a b aq rl dc cls s
  | .fxand d a b aq rl dc cls => Sys2Proof.Machine.execFxand d a b aq rl dc cls s
  | .fxor d a b aq rl dc cls => Sys2Proof.Machine.execFxor d a b aq rl dc cls s
  | .fxxor d a b aq rl dc cls => Sys2Proof.Machine.execFxxor d a b aq rl dc cls s
  | .fxmin d a b aq rl dc cls => Sys2Proof.Machine.execFxmin d a b aq rl dc cls s
  | .fxmax d a b aq rl dc cls => Sys2Proof.Machine.execFxmax d a b aq rl dc cls s
  | .fxminu d a b aq rl dc cls => Sys2Proof.Machine.execFxminu d a b aq rl dc cls s
  | .fxmaxu d a b aq rl dc cls => Sys2Proof.Machine.execFxmaxu d a b aq rl dc cls s
  | .fxcas d a b aq rl dc cls => Sys2Proof.Machine.execFxcas d a b aq rl dc cls s
  | .amofadd d a b aq rl dc cls => Sys2Proof.Machine.execAmofadd d a b aq rl dc cls s
  | .wrs => Sys2Proof.Machine.execWrs s
  | .ldfe t b dc cls off => Sys2Proof.Machine.execLdfe t b dc cls off s
  | .stfe t b dc cls off => Sys2Proof.Machine.execStfe t b dc cls off s
  | .ldff t b dc cls off => Sys2Proof.Machine.execLdff t b dc cls off s
  | .feset l b dc cls off => Sys2Proof.Machine.execFeset l b dc cls off s
  | .fence scope kind mask => Sys2Proof.Machine.execFence scope kind mask s
  | .gadd a b t rl dc cls => Sys2Proof.Machine.execGadd a b t rl dc cls s
  | .barc d a => Sys2Proof.Machine.execBarc d a s
  | .barw d a => Sys2Proof.Machine.execBarw d a s
  | .migr d a => Sys2Proof.Machine.execMigr d a s
  | .bopen d a b c => Sys2Proof.Machine.execBopen d a b c s
  | .bvalid d a b => Sys2Proof.Machine.execBvalid d a b s
  | .sealBolt d a => Sys2Proof.Machine.execSealBolt d a s
  | .bqueryStatus d a => Sys2Proof.Machine.execBqueryStatus d a s
  | .bqueryMaskLow d a => Sys2Proof.Machine.execBqueryMaskLow d a s
  | .bqueryMaskHigh d a => Sys2Proof.Machine.execBqueryMaskHigh d a s
  | .babort d a => Sys2Proof.Machine.execBabort d a s
  | .bwait d a => Sys2Proof.Machine.execBwait d a s
  | .btime d a b => Sys2Proof.Machine.execBtime d a b s
  | .cflush d a b => Sys2Proof.Machine.execCflush d a b s
  | .cinv d a b => Sys2Proof.Machine.execCinv d a b s
  | .cdisc d a b => Sys2Proof.Machine.execCdisc d a b s
  | .tlbinv d a b => Sys2Proof.Machine.execTlbinv d a b s
  | .atrans d a b => Sys2Proof.Machine.execAtrans d a b s
  | .ejob d a => Sys2Proof.Machine.execEjob d a s
  | .ewaitWait d a => Sys2Proof.Machine.execEwaitWait d a s
  | .ewaitPoll d a => Sys2Proof.Machine.execEwaitPoll d a s
  | .ecpy d a b c => Sys2Proof.Machine.execEcpy d a b c s
  | .gleanOpen d a b => Sys2Proof.Machine.execGleanOpen d a b s
  | .gleanClose d a b => Sys2Proof.Machine.execGleanClose d a b s
  | .gleanFlip d a b => Sys2Proof.Machine.execGleanFlip d a b s
  | .gleanQuery d a b => Sys2Proof.Machine.execGleanQuery d a b s
  | .tgsub d a b c => Sys2Proof.Machine.execTgsub d a b c s
  | .tgnext d => Sys2Proof.Machine.execTgnext d s
  | .tgdone d a b => Sys2Proof.Machine.execTgdone d a b s
  | .tgdoneRequeue d a b => Sys2Proof.Machine.execTgdoneRequeue d a b s
  | .wbind d a b => Sys2Proof.Machine.execWbind d a b s
  | .wbindUnbind d a b => Sys2Proof.Machine.execWbindUnbind d a b s
  | .wpush d a b dc cls => Sys2Proof.Machine.execWpush d a b dc cls s
  | .wpull d a b dc cls => Sys2Proof.Machine.execWpull d a b dc cls s
  | .wdone d a b => Sys2Proof.Machine.execWdone d a b s
  | .amotopk d a b aq rl dc cls => Sys2Proof.Machine.execAmotopk d a b aq rl dc cls s
  | .amobinc d a b aq rl dc cls => Sys2Proof.Machine.execAmobinc d a b aq rl dc cls s
  | .msamp d a => Sys2Proof.Machine.execMsamp d a s
  | .rwr d a b c => Sys2Proof.Machine.execRwr d a b c s
  | .ramo d a b c => Sys2Proof.Machine.execRamo d a b c s
  | .rmsg d a c => Sys2Proof.Machine.execRmsg d a c s
  | .rwake d a c => Sys2Proof.Machine.execRwake d a c s
  | .rlendLend d a b => Sys2Proof.Machine.execRlendLend d a b s
  | .rlendRecall d a b => Sys2Proof.Machine.execRlendRecall d a b s
  | .rlendQuery d a b => Sys2Proof.Machine.execRlendQuery d a b s
  | .ckptArm d a => Sys2Proof.Machine.execCkptArm d a s
  | .ckptDisarm d a => Sys2Proof.Machine.execCkptDisarm d a s
  | .ckptQuery d a => Sys2Proof.Machine.execCkptQuery d a s
  | .twilCouple d a => Sys2Proof.Machine.execTwilCouple d a s
  | .twilUncouple d a => Sys2Proof.Machine.execTwilUncouple d a s
  | .frecResume d a b => Sys2Proof.Machine.execFrecResume d a b s
  | .frecSkip d a b => Sys2Proof.Machine.execFrecSkip d a b s
  | .frecGoto d a b => Sys2Proof.Machine.execFrecGoto d a b s
  | .frecSave d a b => Sys2Proof.Machine.execFrecSave d a b s
  | .frecLoad d a b => Sys2Proof.Machine.execFrecLoad d a b s
  | .frecLresume d a b => Sys2Proof.Machine.execFrecLresume d a b s
  | .frecLdrop d a b => Sys2Proof.Machine.execFrecLdrop d a b s
  | .frecLend d a b => Sys2Proof.Machine.execFrecLend d a b s
  | .frecLring d a b => Sys2Proof.Machine.execFrecLring d a b s
  | .frecGpre d a b => Sys2Proof.Machine.execFrecGpre d a b s
  | .frecGrest d a b => Sys2Proof.Machine.execFrecGrest d a b s
  | .sadd p d a b => Sys2Proof.Machine.execSadd p d a b s
  | .ssub p d a b => Sys2Proof.Machine.execSsub p d a b s
  | .sand p d a b => Sys2Proof.Machine.execSand p d a b s
  | .sor p d a b => Sys2Proof.Machine.execSor p d a b s
  | .ssll p d a b => Sys2Proof.Machine.execSsll p d a b s
  | .ssrl p d a b => Sys2Proof.Machine.execSsrl p d a b s
  | .smul p d a b => Sys2Proof.Machine.execSmul p d a b s
  | .scmp p n cc a b => Sys2Proof.Machine.execScmp p n cc a b s
  | .saddi p d a imm => Sys2Proof.Machine.execSaddi p d a imm s
  | .smovi p d imm => Sys2Proof.Machine.execSmovi p d imm s
  | .sbr p t => Sys2Proof.Machine.execSbr p t s
  | .sloop p d t => Sys2Proof.Machine.execSloop p d t s
  | .snop p => Sys2Proof.Machine.execSnop p s
  | .snext p d => Sys2Proof.Machine.execSnext p d s
  | .srel p a => Sys2Proof.Machine.execSrel p a s
  | .sckpt p => Sys2Proof.Machine.execSckpt p s
  | .srsr p d b => Sys2Proof.Machine.execSrsr p d b s
  | .shalt p => Sys2Proof.Machine.execShalt p s
  | .vadd p d a b fwd => Sys2Proof.Machine.execVadd p d a b fwd s
  | .vsub p d a b fwd => Sys2Proof.Machine.execVsub p d a b fwd s
  | .vand p d a b fwd => Sys2Proof.Machine.execVand p d a b fwd s
  | .vor p d a b fwd => Sys2Proof.Machine.execVor p d a b fwd s
  | .vxor p d a b fwd => Sys2Proof.Machine.execVxor p d a b fwd s
  | .vsll p d a b fwd => Sys2Proof.Machine.execVsll p d a b fwd s
  | .vsra p d a b fwd => Sys2Proof.Machine.execVsra p d a b fwd s
  | .vfadd p d a b fwd lend => Sys2Proof.Machine.execVfadd p d a b fwd lend s
  | .vfmul p d a b fwd lend => Sys2Proof.Machine.execVfmul p d a b fwd lend s
  | .vfma p d a b fwd lend => Sys2Proof.Machine.execVfma p d a b fwd lend s
  | .vfmax p d a b fwd lend => Sys2Proof.Machine.execVfmax p d a b fwd lend s
  | .vfmin p d a b fwd lend => Sys2Proof.Machine.execVfmin p d a b fwd lend s
  | .vnrw p d a b lend => Sys2Proof.Machine.execVnrw p d a b lend s
  | .vwid p d a b lend => Sys2Proof.Machine.execVwid p d a b lend s
  | .vrsum p d a => Sys2Proof.Machine.execVrsum p d a s
  | .vrmax p d a => Sys2Proof.Machine.execVrmax p d a s
  | .vmov p d a fwd => Sys2Proof.Machine.execVmov p d a fwd s
  | .vmrd p d row => Sys2Proof.Machine.execVmrd p d row s
  | .vmask p n cc a b => Sys2Proof.Machine.execVmask p n cc a b s
  | .vnop p => Sys2Proof.Machine.execVnop p s
  | .vfmt payload => Sys2Proof.Machine.execVfmt payload s
  | .mbub p => Sys2Proof.Machine.execMbub p s
  | .mpush p step a b => Sys2Proof.Machine.execMpush p step a b s
  | .mzpush p step a b => Sys2Proof.Machine.execMzpush p step a b s
  | .mdrain p a b => Sys2Proof.Machine.execMdrain p a b s
  | .mset p d imm => Sys2Proof.Machine.execMset p d imm s
  | .madd p d a imm => Sys2Proof.Machine.execMadd p d a imm s
  | .mfmt payload => Sys2Proof.Machine.execMfmt payload s
  | .xrq p flags a b => Sys2Proof.Machine.execXrq p flags a b s
  | .xwr p flags a b => Sys2Proof.Machine.execXwr p flags a b s
  | .xbrd p flags b => Sys2Proof.Machine.execXbrd p flags b s
  | .xbwr p flags b => Sys2Proof.Machine.execXbwr p flags b s
  | .xbld p a b => Sys2Proof.Machine.execXbld p a b s
  | .xcpy p d a b lend => Sys2Proof.Machine.execXcpy p d a b lend s
  | .xnop p => Sys2Proof.Machine.execXnop p s
  | .xset p d a imm => Sys2Proof.Machine.execXset p d a imm s
  | .bundleDispatch => Sys2Proof.Machine.execBundleDispatch s
  | .loomResultLands => Sys2Proof.Machine.execLoomResultLands s
  | .queueRowPlaced => Sys2Proof.Machine.execQueueRowPlaced s
  | .arrayBeat => Sys2Proof.Machine.execArrayBeat s
  | .drainColumnWrite => Sys2Proof.Machine.execDrainColumnWrite s
  | .bstoreWriteLands => Sys2Proof.Machine.execBstoreWriteLands s
  | .lateFaultFreeze => Sys2Proof.Machine.execLateFaultFreeze s
  | .shaltStop => Sys2Proof.Machine.execShaltStop s
  | .replyArrival => Sys2Proof.Machine.execReplyArrival s
  | .storeAcknowledgement => Sys2Proof.Machine.execStoreAcknowledgement s
  | .lateRefusal => Sys2Proof.Machine.execLateRefusal s
  | .trapEntry => Sys2Proof.Machine.execTrapEntry s
  | .fetchMissFill => Sys2Proof.Machine.execFetchMissFill s
  | .spawnArrival => Sys2Proof.Machine.execSpawnArrival s
  | .rforkResume => Sys2Proof.Machine.execRforkResume s
  | .migrationGrant => Sys2Proof.Machine.execMigrationGrant s
  | .migrationAccept => Sys2Proof.Machine.execMigrationAccept s
  | .migratedReply => Sys2Proof.Machine.execMigratedReply s
  | .forwardEntryLapse => Sys2Proof.Machine.execForwardEntryLapse s
  | .reservationRegister => Sys2Proof.Machine.execReservationRegister s
  | .homeStore => Sys2Proof.Machine.execHomeStore s
  | .servingSliceLoad => Sys2Proof.Machine.execServingSliceLoad s
  | .fullEmptyAtHome => Sys2Proof.Machine.execFullEmptyAtHome s
  | .fullEmptyResend => Sys2Proof.Machine.execFullEmptyResend s
  | .bankAccess => Sys2Proof.Machine.execBankAccess s
  | .jwaitWake => Sys2Proof.Machine.execJwaitWake s
  | .barrierArrival => Sys2Proof.Machine.execBarrierArrival s
  | .barcDone => Sys2Proof.Machine.execBarcDone s
  | .barwTapRise => Sys2Proof.Machine.execBarwTapRise s
  | .barwDone => Sys2Proof.Machine.execBarwDone s
  | .barrierTimeout => Sys2Proof.Machine.execBarrierTimeout s
  | .gangAdmission => Sys2Proof.Machine.execGangAdmission s
  | .sheafRelease => Sys2Proof.Machine.execSheafRelease s
  | .stookRelease => Sys2Proof.Machine.execStookRelease s
  | .rickReady => Sys2Proof.Machine.execRickReady s
  | .rickGo => Sys2Proof.Machine.execRickGo s
  | .rickHold => Sys2Proof.Machine.execRickHold s
  | .rickGuardExpiry => Sys2Proof.Machine.execRickGuardExpiry s
  | .rickRelease => Sys2Proof.Machine.execRickRelease s
  | .gangRetire => Sys2Proof.Machine.execGangRetire s
  | .completionRecordWrite => Sys2Proof.Machine.execCompletionRecordWrite s
  | .wakeFloodArrival => Sys2Proof.Machine.execWakeFloodArrival s
  | .chipPartReport => Sys2Proof.Machine.execChipPartReport s
  | .preemptRequestArrival => Sys2Proof.Machine.execPreemptRequestArrival s
  | .gangStop => Sys2Proof.Machine.execGangStop s
  | .clusterSave => Sys2Proof.Machine.execClusterSave s
  | .clusterRestore => Sys2Proof.Machine.execClusterRestore s
  | .watchdogWaitExpiry => Sys2Proof.Machine.execWatchdogWaitExpiry s
  | .watchdogPreExpiry => Sys2Proof.Machine.execWatchdogPreExpiry s
  | .gangEnd => Sys2Proof.Machine.execGangEnd s
  | .correctableErrorCore => Sys2Proof.Machine.execCorrectableErrorCore s
  | .coreFreezeEnd => Sys2Proof.Machine.execCoreFreezeEnd s
  | .correctableErrorLoom => Sys2Proof.Machine.execCorrectableErrorLoom s
  | .loomFreezeEnd => Sys2Proof.Machine.execLoomFreezeEnd s
  | .dataError => Sys2Proof.Machine.execDataError s
  | .rollbackOutcome => Sys2Proof.Machine.execRollbackOutcome s
  | .twillCompare => Sys2Proof.Machine.execTwillCompare s
  | .twillTimeout => Sys2Proof.Machine.execTwillTimeout s
  | .ctTick => Sys2Proof.Machine.execCtTick s
  | .boltTimerExpiry => Sys2Proof.Machine.execBoltTimerExpiry s
  | .pressureSeal => Sys2Proof.Machine.execPressureSeal s
  | .bopenServe => Sys2Proof.Machine.execBopenServe s
  | .boltPost => Sys2Proof.Machine.execBoltPost s
  | .accumJoin => Sys2Proof.Machine.execAccumJoin s
  | .accumGrant => Sys2Proof.Machine.execAccumGrant s
  | .partialEvict => Sys2Proof.Machine.execPartialEvict s
  | .coreRecall => Sys2Proof.Machine.execCoreRecall s
  | .sliceAtomicOp => Sys2Proof.Machine.execSliceAtomicOp s
  | .routerMerge => Sys2Proof.Machine.execRouterMerge s
  | .rds => Sys2Proof.Machine.execRds s
  | .rdx => Sys2Proof.Machine.execRdx s
  | .upg => Sys2Proof.Machine.execUpg s
  | .ajn => Sys2Proof.Machine.execAjn s
  | .aev => Sys2Proof.Machine.execAev s
  | .putMsg => Sys2Proof.Machine.execPutMsg s
  | .wb => Sys2Proof.Machine.execWb s
  | .dataMsg => Sys2Proof.Machine.execDataMsg s
  | .gnt => Sys2Proof.Machine.execGnt s
  | .agnt => Sys2Proof.Machine.execAgnt s
  | .fws => Sys2Proof.Machine.execFws s
  | .fwb => Sys2Proof.Machine.execFwb s
  | .fack => Sys2Proof.Machine.execFack s
  | .invMsg => Sys2Proof.Machine.execInvMsg s
  | .iack => Sys2Proof.Machine.execIack s
  | .rcl => Sys2Proof.Machine.execRcl s
  | .plist => Sys2Proof.Machine.execPlist s
  | .mrg => Sys2Proof.Machine.execMrg s
  | .wback => Sys2Proof.Machine.execWback s
  | .cmp => Sys2Proof.Machine.execCmp s
  | .hostPortRead => Sys2Proof.Machine.execHostPortRead s
  | .hostPortWrite => Sys2Proof.Machine.execHostPortWrite s
  | .hostScratchpadAccess => Sys2Proof.Machine.execHostScratchpadAccess s
  | .walkRequest => Sys2Proof.Machine.execWalkRequest s
  | .walkComplete => Sys2Proof.Machine.execWalkComplete s
  | .walkResend => Sys2Proof.Machine.execWalkResend s
  | .jobAccept => Sys2Proof.Machine.execJobAccept s
  | .engineRequest => Sys2Proof.Machine.execEngineRequest s
  | .jobRetire => Sys2Proof.Machine.execJobRetire s
  | .ecpyRetire => Sys2Proof.Machine.execEcpyRetire s
  | .walkBlock => Sys2Proof.Machine.execWalkBlock s
  | .walkBTileWaitEnd => Sys2Proof.Machine.execWalkBTileWaitEnd s
  | .walkOpenServed => Sys2Proof.Machine.execWalkOpenServed s
  | .gleanPrefetchRow => Sys2Proof.Machine.execGleanPrefetchRow s
  | .messageTake => Sys2Proof.Machine.execMessageTake s
  | .remoteMessageArrival => Sys2Proof.Machine.execRemoteMessageArrival s
  | .rwrPerform => Sys2Proof.Machine.execRwrPerform s
  | .rwrBoltWrite => Sys2Proof.Machine.execRwrBoltWrite s
  | .ramoPerform => Sys2Proof.Machine.execRamoPerform s
  | .rmsgRun => Sys2Proof.Machine.execRmsgRun s
  | .remoteStatusArrival => Sys2Proof.Machine.execRemoteStatusArrival s
  | .wakeArrival => Sys2Proof.Machine.execWakeArrival s
  | .flitCrcFail => Sys2Proof.Machine.execFlitCrcFail s
  | .laneTrainingFail => Sys2Proof.Machine.execLaneTrainingFail s
  | .linkDown => Sys2Proof.Machine.execLinkDown s
  | .syncFlit => Sys2Proof.Machine.execSyncFlit s
  | .recallAck => Sys2Proof.Machine.execRecallAck s
  | .recallLost => Sys2Proof.Machine.execRecallLost s
  | .monitorSample => Sys2Proof.Machine.execMonitorSample s
  | .powerOn => Sys2Proof.Machine.execPowerOn s
  | .deviceReset => Sys2Proof.Machine.execDeviceReset s
  | .bootTreeSend => Sys2Proof.Machine.execBootTreeSend s
  | .chipForward => Sys2Proof.Machine.execChipForward s
  | .securityAlarm => Sys2Proof.Machine.execSecurityAlarm s
  | .thermalWarn => Sys2Proof.Machine.execThermalWarn s
  | .thermalTrip => Sys2Proof.Machine.execThermalTrip s
  | .tfltRelease => Sys2Proof.Machine.execTfltRelease s
  | .tfltNomapTrap => Sys2Proof.Machine.execTfltNomapTrap s
  | .bpoolWrite => Sys2Proof.Machine.execBpoolWrite s
  | .asrootWrite => Sys2Proof.Machine.execAsrootWrite s
  | .stslotWrite => Sys2Proof.Machine.execStslotWrite s
  | .lsrWrite => Sys2Proof.Machine.execLsrWrite s
  | .moncfgClr => Sys2Proof.Machine.execMoncfgClr s
  | .slctlPre => Sys2Proof.Machine.execSlctlPre s
  | .slctlEnd => Sys2Proof.Machine.execSlctlEnd s
  | .slctlRestore => Sys2Proof.Machine.execSlctlRestore s
  | .ckctlFlush => Sys2Proof.Machine.execCkctlFlush s
  | .ckctlFlushDone => Sys2Proof.Machine.execCkctlFlushDone s
  | .tcmdLoad => Sys2Proof.Machine.execTcmdLoad s
  | .tcmdAttest => Sys2Proof.Machine.execTcmdAttest s
  | .tcmdEnroll => Sys2Proof.Machine.execTcmdEnroll s
  | .tcmdFwupd => Sys2Proof.Machine.execTcmdFwupd s
  | .launchDoorbell => Sys2Proof.Machine.execLaunchDoorbell s
  | .hostWakeWrite => Sys2Proof.Machine.execHostWakeWrite s
  | .routeTableWrite => Sys2Proof.Machine.execRouteTableWrite s
  | .registerWrite => Sys2Proof.Machine.execRegisterWrite s
  | .illegalInstruction => Sys2Proof.Machine.execIllegalInstruction s
  | .lineStep => Sys2Proof.Machine.execLineStep s

end Sys2Proof.Machine
end

