-- ==== Sys2Proof/Machine/Step.lean ====
section
/-!
DEFINITION. One step of the machine: the next entry of the cycle's work is performed, or the cycle moves on (R34, R140).
-/

namespace Sys2Proof.Machine

/-- A context's issue slot: the instruction found there is performed. -/
def stepIssue (c : CtxId) (s : State) : Host.Outcome State Fault Refusal :=
  match s.issue c with
  | .idle s => .next s
  | .bad s w => exec .illegalInstruction { s with ev := .illegalInstruction w }
  | .go s i => exec i s

/-- One entry of work. -/
def stepEntry (e : Entry) (s : State) : Host.Outcome State Fault Refusal :=
  match e.act with
  | .issue => stepIssue e.who s
  | .run i => exec i { s with cur := e.who, stage := e.stage }
  | .ev v =>
    match v.instr with
    | some i => exec i { s with ev := v }
    | none => .next s

/-- One step. -/
def step (s : State) : Host.Outcome State Fault Refusal :=
  match s.pick with
  | .inl s => .next s
  | .inr (s, e) => stepEntry e s

/-- The state with a grain word in the instruction cache at context 0's PC, which context 0 issues next. -/
def State.withGrainWord (s : State) (w : W32) : State :=
  let x := s.ctx 0
  let k := s.core 0
  let va := x.pc.toNat % 2 ^ 48 / 2 ^ 16 * 2 ^ 16
  let pa := x.pc.toNat % 2 ^ 16
  let e : TlbEnt := { slot := k.stslot, va := va, pa := 0, u := true, x := true, w := true, r := true, d := true }
  let sh := 32 * (pa / 4 % 32)
  let d : LineData := (Tab.get 0 k.icache (pa / 128) &&& ~~~((0xFFFFFFFF : LineData) <<< sh)) ||| ((w.setWidth 1024 : LineData) <<< sh)
  let s := s.setCtx 0 { x with st := .issuing, late := [], uerr := none, walked := none }
  let s := s.setCore 0 { k with tlb := e :: k.tlb, icache := Tab.set k.icache (pa / 128) d, thaw := 0 }
  { s with todo := { act := .issue } :: s.todo }

/-- The state whose next step fetches and runs the instruction of a word: a grain word at context 0's PC, or a slot word
handed to Loom 0's bundle being dispatched. -/
def State.withFetchWord (s : State) (_nbits w : Nat) : State :=
  match decodeWord (BitVec.ofNat 32 w), decodeSlot (BitVec.ofNat 32 w) 0 with
  | none, some i => s.nowFor 0 0 i
  | _, _ => s.withGrainWord (BitVec.ofNat 32 w)

end Sys2Proof.Machine
end

