-- ==== Sys2Proof/Laws/Decode.lean ====
section
/-!
SUPPORT. What the decoder reads back from a word that the encoder packs: each field of each format, and the table look-ups by the
major opcode (R71, R72, R85).
-/

set_option Elab.async false

namespace Sys2Proof.Laws

open Sys2Proof

/-- A field that lies wholly above the low part of a word. -/
theorem field_above {v w s n : Nat} {x : BitVec v} {y : BitVec w} (h : w ≤ s) :
    (x ++ y).extractLsb' s n = x.extractLsb' (s - w) n := BitVec.extractLsb'_append_eq_of_le h
/-- A field that lies wholly within the low part of a word. -/
theorem field_within {v w s n : Nat} {x : BitVec v} {y : BitVec w} (h : s + n ≤ w) :
    (x ++ y).extractLsb' s n = y.extractLsb' s n := BitVec.extractLsb'_append_eq_of_add_le h

theorem packR_op (op : BitVec 6) (d a b c : BitVec 4) (fn : BitVec 10) : fld (packR op d a b c fn) 26 6 = op := by
  have h : (op ++ d ++ a ++ b ++ c ++ fn).extractLsb' 26 6 = op := by
    repeat rw [field_above (by decide)]
    exact BitVec.extractLsb'_eq_self
  exact h
theorem packR_d (op : BitVec 6) (d a b c : BitVec 4) (fn : BitVec 10) : fld (packR op d a b c fn) 22 4 = d := by
  have h : (op ++ d ++ a ++ b ++ c ++ fn).extractLsb' 22 4 = d := by
    repeat rw [field_above (by decide)]
    rw [field_within (by decide)]
    exact BitVec.extractLsb'_eq_self
  exact h
theorem packR_a (op : BitVec 6) (d a b c : BitVec 4) (fn : BitVec 10) : fld (packR op d a b c fn) 18 4 = a := by
  have h : (op ++ d ++ a ++ b ++ c ++ fn).extractLsb' 18 4 = a := by
    repeat rw [field_above (by decide)]
    rw [field_within (by decide)]
    exact BitVec.extractLsb'_eq_self
  exact h
theorem packR_b (op : BitVec 6) (d a b c : BitVec 4) (fn : BitVec 10) : fld (packR op d a b c fn) 14 4 = b := by
  have h : (op ++ d ++ a ++ b ++ c ++ fn).extractLsb' 14 4 = b := by
    repeat rw [field_above (by decide)]
    rw [field_within (by decide)]
    exact BitVec.extractLsb'_eq_self
  exact h
theorem packR_c (op : BitVec 6) (d a b c : BitVec 4) (fn : BitVec 10) : fld (packR op d a b c fn) 10 4 = c := by
  have h : (op ++ d ++ a ++ b ++ c ++ fn).extractLsb' 10 4 = c := by
    repeat rw [field_above (by decide)]
    rw [field_within (by decide)]
    exact BitVec.extractLsb'_eq_self
  exact h
theorem packR_fn (op : BitVec 6) (d a b c : BitVec 4) (fn : BitVec 10) : fld (packR op d a b c fn) 0 10 = fn := by
  have h : (op ++ d ++ a ++ b ++ c ++ fn).extractLsb' 0 10 = fn := by
    rw [field_within (by decide)]
    exact BitVec.extractLsb'_eq_self
  exact h
theorem packI_op (op : BitVec 6) (d a fn : BitVec 4) (imm : BitVec 14) : fld (packI op d a fn imm) 26 6 = op := by
  have h : (op ++ d ++ a ++ fn ++ imm).extractLsb' 26 6 = op := by
    repeat rw [field_above (by decide)]
    exact BitVec.extractLsb'_eq_self
  exact h
theorem packI_d (op : BitVec 6) (d a fn : BitVec 4) (imm : BitVec 14) : fld (packI op d a fn imm) 22 4 = d := by
  have h : (op ++ d ++ a ++ fn ++ imm).extractLsb' 22 4 = d := by
    repeat rw [field_above (by decide)]
    rw [field_within (by decide)]
    exact BitVec.extractLsb'_eq_self
  exact h
theorem packI_a (op : BitVec 6) (d a fn : BitVec 4) (imm : BitVec 14) : fld (packI op d a fn imm) 18 4 = a := by
  have h : (op ++ d ++ a ++ fn ++ imm).extractLsb' 18 4 = a := by
    repeat rw [field_above (by decide)]
    rw [field_within (by decide)]
    exact BitVec.extractLsb'_eq_self
  exact h
theorem packI_fn (op : BitVec 6) (d a fn : BitVec 4) (imm : BitVec 14) : fld (packI op d a fn imm) 14 4 = fn := by
  have h : (op ++ d ++ a ++ fn ++ imm).extractLsb' 14 4 = fn := by
    repeat rw [field_above (by decide)]
    rw [field_within (by decide)]
    exact BitVec.extractLsb'_eq_self
  exact h
theorem packI_imm (op : BitVec 6) (d a fn : BitVec 4) (imm : BitVec 14) : fld (packI op d a fn imm) 0 14 = imm := by
  have h : (op ++ d ++ a ++ fn ++ imm).extractLsb' 0 14 = imm := by
    rw [field_within (by decide)]
    exact BitVec.extractLsb'_eq_self
  exact h
theorem packU_op (op : BitVec 6) (d : BitVec 4) (fn hx z : BitVec 2) (imm : BitVec 16) : fld (packU op d fn hx z imm) 26 6 = op := by
  have h : (op ++ d ++ fn ++ hx ++ z ++ imm).extractLsb' 26 6 = op := by
    repeat rw [field_above (by decide)]
    exact BitVec.extractLsb'_eq_self
  exact h
theorem packU_d (op : BitVec 6) (d : BitVec 4) (fn hx z : BitVec 2) (imm : BitVec 16) : fld (packU op d fn hx z imm) 22 4 = d := by
  have h : (op ++ d ++ fn ++ hx ++ z ++ imm).extractLsb' 22 4 = d := by
    repeat rw [field_above (by decide)]
    rw [field_within (by decide)]
    exact BitVec.extractLsb'_eq_self
  exact h
theorem packU_fn (op : BitVec 6) (d : BitVec 4) (fn hx z : BitVec 2) (imm : BitVec 16) : fld (packU op d fn hx z imm) 20 2 = fn := by
  have h : (op ++ d ++ fn ++ hx ++ z ++ imm).extractLsb' 20 2 = fn := by
    repeat rw [field_above (by decide)]
    rw [field_within (by decide)]
    exact BitVec.extractLsb'_eq_self
  exact h
theorem packU_hx (op : BitVec 6) (d : BitVec 4) (fn hx z : BitVec 2) (imm : BitVec 16) : fld (packU op d fn hx z imm) 18 2 = hx := by
  have h : (op ++ d ++ fn ++ hx ++ z ++ imm).extractLsb' 18 2 = hx := by
    repeat rw [field_above (by decide)]
    rw [field_within (by decide)]
    exact BitVec.extractLsb'_eq_self
  exact h
theorem packU_z (op : BitVec 6) (d : BitVec 4) (fn hx z : BitVec 2) (imm : BitVec 16) : fld (packU op d fn hx z imm) 16 2 = z := by
  have h : (op ++ d ++ fn ++ hx ++ z ++ imm).extractLsb' 16 2 = z := by
    repeat rw [field_above (by decide)]
    rw [field_within (by decide)]
    exact BitVec.extractLsb'_eq_self
  exact h
theorem packU_imm (op : BitVec 6) (d : BitVec 4) (fn hx z : BitVec 2) (imm : BitVec 16) : fld (packU op d fn hx z imm) 0 16 = imm := by
  have h : (op ++ d ++ fn ++ hx ++ z ++ imm).extractLsb' 0 16 = imm := by
    rw [field_within (by decide)]
    exact BitVec.extractLsb'_eq_self
  exact h
theorem packB_op (op : BitVec 6) (a b : BitVec 4) (cond : BitVec 3) (off : BitVec 15) : fld (packB op a b cond off) 26 6 = op := by
  have h : (op ++ a ++ b ++ cond ++ off).extractLsb' 26 6 = op := by
    repeat rw [field_above (by decide)]
    exact BitVec.extractLsb'_eq_self
  exact h
theorem packB_a (op : BitVec 6) (a b : BitVec 4) (cond : BitVec 3) (off : BitVec 15) : fld (packB op a b cond off) 22 4 = a := by
  have h : (op ++ a ++ b ++ cond ++ off).extractLsb' 22 4 = a := by
    repeat rw [field_above (by decide)]
    rw [field_within (by decide)]
    exact BitVec.extractLsb'_eq_self
  exact h
theorem packB_b (op : BitVec 6) (a b : BitVec 4) (cond : BitVec 3) (off : BitVec 15) : fld (packB op a b cond off) 18 4 = b := by
  have h : (op ++ a ++ b ++ cond ++ off).extractLsb' 18 4 = b := by
    repeat rw [field_above (by decide)]
    rw [field_within (by decide)]
    exact BitVec.extractLsb'_eq_self
  exact h
theorem packB_cond (op : BitVec 6) (a b : BitVec 4) (cond : BitVec 3) (off : BitVec 15) : fld (packB op a b cond off) 15 3 = cond := by
  have h : (op ++ a ++ b ++ cond ++ off).extractLsb' 15 3 = cond := by
    repeat rw [field_above (by decide)]
    rw [field_within (by decide)]
    exact BitVec.extractLsb'_eq_self
  exact h
theorem packB_off (op : BitVec 6) (a b : BitVec 4) (cond : BitVec 3) (off : BitVec 15) : fld (packB op a b cond off) 0 15 = off := by
  have h : (op ++ a ++ b ++ cond ++ off).extractLsb' 0 15 = off := by
    rw [field_within (by decide)]
    exact BitVec.extractLsb'_eq_self
  exact h
theorem packJ_op (op : BitVec 6) (d : BitVec 4) (off : BitVec 22) : fld (packJ op d off) 26 6 = op := by
  have h : (op ++ d ++ off).extractLsb' 26 6 = op := by
    repeat rw [field_above (by decide)]
    exact BitVec.extractLsb'_eq_self
  exact h
theorem packJ_d (op : BitVec 6) (d : BitVec 4) (off : BitVec 22) : fld (packJ op d off) 22 4 = d := by
  have h : (op ++ d ++ off).extractLsb' 22 4 = d := by
    repeat rw [field_above (by decide)]
    rw [field_within (by decide)]
    exact BitVec.extractLsb'_eq_self
  exact h
theorem packJ_off (op : BitVec 6) (d : BitVec 4) (off : BitVec 22) : fld (packJ op d off) 0 22 = off := by
  have h : (op ++ d ++ off).extractLsb' 0 22 = off := by
    rw [field_within (by decide)]
    exact BitVec.extractLsb'_eq_self
  exact h
theorem packM_op (op : BitVec 6) (t b : BitVec 4) (dc : BitVec 1) (cls : BitVec 4) (fn : BitVec 3) (off : BitVec 10) : fld (packM op t b dc cls fn off) 26 6 = op := by
  have h : (op ++ t ++ b ++ dc ++ cls ++ fn ++ off).extractLsb' 26 6 = op := by
    repeat rw [field_above (by decide)]
    exact BitVec.extractLsb'_eq_self
  exact h
theorem packM_t (op : BitVec 6) (t b : BitVec 4) (dc : BitVec 1) (cls : BitVec 4) (fn : BitVec 3) (off : BitVec 10) : fld (packM op t b dc cls fn off) 22 4 = t := by
  have h : (op ++ t ++ b ++ dc ++ cls ++ fn ++ off).extractLsb' 22 4 = t := by
    repeat rw [field_above (by decide)]
    rw [field_within (by decide)]
    exact BitVec.extractLsb'_eq_self
  exact h
theorem packM_b (op : BitVec 6) (t b : BitVec 4) (dc : BitVec 1) (cls : BitVec 4) (fn : BitVec 3) (off : BitVec 10) : fld (packM op t b dc cls fn off) 18 4 = b := by
  have h : (op ++ t ++ b ++ dc ++ cls ++ fn ++ off).extractLsb' 18 4 = b := by
    repeat rw [field_above (by decide)]
    rw [field_within (by decide)]
    exact BitVec.extractLsb'_eq_self
  exact h
theorem packM_dc_bit (op : BitVec 6) (t b : BitVec 4) (dc : BitVec 1) (cls : BitVec 4) (fn : BitVec 3) (off : BitVec 10) : bit (packM op t b dc cls fn off) 17 = dc.getLsbD 0 := by
  have h : (op ++ t ++ b ++ dc ++ cls ++ fn ++ off).getLsbD 17 = dc.getLsbD 0 := by
    repeat rw [BitVec.getLsbD_append]
    rfl
  exact h
theorem packM_dc (op : BitVec 6) (t b : BitVec 4) (dc : BitVec 1) (cls : BitVec 4) (fn : BitVec 3) (off : BitVec 10) : fld (packM op t b dc cls fn off) 17 1 = dc := by
  have h : (op ++ t ++ b ++ dc ++ cls ++ fn ++ off).extractLsb' 17 1 = dc := by
    repeat rw [field_above (by decide)]
    rw [field_within (by decide)]
    exact BitVec.extractLsb'_eq_self
  exact h
theorem packM_cls (op : BitVec 6) (t b : BitVec 4) (dc : BitVec 1) (cls : BitVec 4) (fn : BitVec 3) (off : BitVec 10) : fld (packM op t b dc cls fn off) 13 4 = cls := by
  have h : (op ++ t ++ b ++ dc ++ cls ++ fn ++ off).extractLsb' 13 4 = cls := by
    repeat rw [field_above (by decide)]
    rw [field_within (by decide)]
    exact BitVec.extractLsb'_eq_self
  exact h
theorem packM_fn (op : BitVec 6) (t b : BitVec 4) (dc : BitVec 1) (cls : BitVec 4) (fn : BitVec 3) (off : BitVec 10) : fld (packM op t b dc cls fn off) 10 3 = fn := by
  have h : (op ++ t ++ b ++ dc ++ cls ++ fn ++ off).extractLsb' 10 3 = fn := by
    repeat rw [field_above (by decide)]
    rw [field_within (by decide)]
    exact BitVec.extractLsb'_eq_self
  exact h
theorem packM_off (op : BitVec 6) (t b : BitVec 4) (dc : BitVec 1) (cls : BitVec 4) (fn : BitVec 3) (off : BitVec 10) : fld (packM op t b dc cls fn off) 0 10 = off := by
  have h : (op ++ t ++ b ++ dc ++ cls ++ fn ++ off).extractLsb' 0 10 = off := by
    rw [field_within (by decide)]
    exact BitVec.extractLsb'_eq_self
  exact h
theorem packA_op (op : BitVec 6) (d a b fn : BitVec 4) (aq rl dc : BitVec 1) (cls : BitVec 4) (z : BitVec 3) : fld (packA op d a b fn aq rl dc cls z) 26 6 = op := by
  have h : (op ++ d ++ a ++ b ++ fn ++ aq ++ rl ++ dc ++ cls ++ z).extractLsb' 26 6 = op := by
    repeat rw [field_above (by decide)]
    exact BitVec.extractLsb'_eq_self
  exact h
theorem packA_d (op : BitVec 6) (d a b fn : BitVec 4) (aq rl dc : BitVec 1) (cls : BitVec 4) (z : BitVec 3) : fld (packA op d a b fn aq rl dc cls z) 22 4 = d := by
  have h : (op ++ d ++ a ++ b ++ fn ++ aq ++ rl ++ dc ++ cls ++ z).extractLsb' 22 4 = d := by
    repeat rw [field_above (by decide)]
    rw [field_within (by decide)]
    exact BitVec.extractLsb'_eq_self
  exact h
theorem packA_a (op : BitVec 6) (d a b fn : BitVec 4) (aq rl dc : BitVec 1) (cls : BitVec 4) (z : BitVec 3) : fld (packA op d a b fn aq rl dc cls z) 18 4 = a := by
  have h : (op ++ d ++ a ++ b ++ fn ++ aq ++ rl ++ dc ++ cls ++ z).extractLsb' 18 4 = a := by
    repeat rw [field_above (by decide)]
    rw [field_within (by decide)]
    exact BitVec.extractLsb'_eq_self
  exact h
theorem packA_b (op : BitVec 6) (d a b fn : BitVec 4) (aq rl dc : BitVec 1) (cls : BitVec 4) (z : BitVec 3) : fld (packA op d a b fn aq rl dc cls z) 14 4 = b := by
  have h : (op ++ d ++ a ++ b ++ fn ++ aq ++ rl ++ dc ++ cls ++ z).extractLsb' 14 4 = b := by
    repeat rw [field_above (by decide)]
    rw [field_within (by decide)]
    exact BitVec.extractLsb'_eq_self
  exact h
theorem packA_fn (op : BitVec 6) (d a b fn : BitVec 4) (aq rl dc : BitVec 1) (cls : BitVec 4) (z : BitVec 3) : fld (packA op d a b fn aq rl dc cls z) 10 4 = fn := by
  have h : (op ++ d ++ a ++ b ++ fn ++ aq ++ rl ++ dc ++ cls ++ z).extractLsb' 10 4 = fn := by
    repeat rw [field_above (by decide)]
    rw [field_within (by decide)]
    exact BitVec.extractLsb'_eq_self
  exact h
theorem packA_aq_bit (op : BitVec 6) (d a b fn : BitVec 4) (aq rl dc : BitVec 1) (cls : BitVec 4) (z : BitVec 3) : bit (packA op d a b fn aq rl dc cls z) 9 = aq.getLsbD 0 := by
  have h : (op ++ d ++ a ++ b ++ fn ++ aq ++ rl ++ dc ++ cls ++ z).getLsbD 9 = aq.getLsbD 0 := by
    repeat rw [BitVec.getLsbD_append]
    rfl
  exact h
theorem packA_aq (op : BitVec 6) (d a b fn : BitVec 4) (aq rl dc : BitVec 1) (cls : BitVec 4) (z : BitVec 3) : fld (packA op d a b fn aq rl dc cls z) 9 1 = aq := by
  have h : (op ++ d ++ a ++ b ++ fn ++ aq ++ rl ++ dc ++ cls ++ z).extractLsb' 9 1 = aq := by
    repeat rw [field_above (by decide)]
    rw [field_within (by decide)]
    exact BitVec.extractLsb'_eq_self
  exact h
theorem packA_rl_bit (op : BitVec 6) (d a b fn : BitVec 4) (aq rl dc : BitVec 1) (cls : BitVec 4) (z : BitVec 3) : bit (packA op d a b fn aq rl dc cls z) 8 = rl.getLsbD 0 := by
  have h : (op ++ d ++ a ++ b ++ fn ++ aq ++ rl ++ dc ++ cls ++ z).getLsbD 8 = rl.getLsbD 0 := by
    repeat rw [BitVec.getLsbD_append]
    rfl
  exact h
theorem packA_rl (op : BitVec 6) (d a b fn : BitVec 4) (aq rl dc : BitVec 1) (cls : BitVec 4) (z : BitVec 3) : fld (packA op d a b fn aq rl dc cls z) 8 1 = rl := by
  have h : (op ++ d ++ a ++ b ++ fn ++ aq ++ rl ++ dc ++ cls ++ z).extractLsb' 8 1 = rl := by
    repeat rw [field_above (by decide)]
    rw [field_within (by decide)]
    exact BitVec.extractLsb'_eq_self
  exact h
theorem packA_dc_bit (op : BitVec 6) (d a b fn : BitVec 4) (aq rl dc : BitVec 1) (cls : BitVec 4) (z : BitVec 3) : bit (packA op d a b fn aq rl dc cls z) 7 = dc.getLsbD 0 := by
  have h : (op ++ d ++ a ++ b ++ fn ++ aq ++ rl ++ dc ++ cls ++ z).getLsbD 7 = dc.getLsbD 0 := by
    repeat rw [BitVec.getLsbD_append]
    rfl
  exact h
theorem packA_dc (op : BitVec 6) (d a b fn : BitVec 4) (aq rl dc : BitVec 1) (cls : BitVec 4) (z : BitVec 3) : fld (packA op d a b fn aq rl dc cls z) 7 1 = dc := by
  have h : (op ++ d ++ a ++ b ++ fn ++ aq ++ rl ++ dc ++ cls ++ z).extractLsb' 7 1 = dc := by
    repeat rw [field_above (by decide)]
    rw [field_within (by decide)]
    exact BitVec.extractLsb'_eq_self
  exact h
theorem packA_cls (op : BitVec 6) (d a b fn : BitVec 4) (aq rl dc : BitVec 1) (cls : BitVec 4) (z : BitVec 3) : fld (packA op d a b fn aq rl dc cls z) 3 4 = cls := by
  have h : (op ++ d ++ a ++ b ++ fn ++ aq ++ rl ++ dc ++ cls ++ z).extractLsb' 3 4 = cls := by
    repeat rw [field_above (by decide)]
    rw [field_within (by decide)]
    exact BitVec.extractLsb'_eq_self
  exact h
theorem packA_z (op : BitVec 6) (d a b fn : BitVec 4) (aq rl dc : BitVec 1) (cls : BitVec 4) (z : BitVec 3) : fld (packA op d a b fn aq rl dc cls z) 0 3 = z := by
  have h : (op ++ d ++ a ++ b ++ fn ++ aq ++ rl ++ dc ++ cls ++ z).extractLsb' 0 3 = z := by
    rw [field_within (by decide)]
    exact BitVec.extractLsb'_eq_self
  exact h
theorem packF_op (op : BitVec 6) (scope : BitVec 3) (kind : BitVec 4) (z : BitVec 3) (mask : BitVec 16) : fld (packF op scope kind z mask) 26 6 = op := by
  have h : (op ++ scope ++ kind ++ z ++ mask).extractLsb' 26 6 = op := by
    repeat rw [field_above (by decide)]
    exact BitVec.extractLsb'_eq_self
  exact h
theorem packF_scope (op : BitVec 6) (scope : BitVec 3) (kind : BitVec 4) (z : BitVec 3) (mask : BitVec 16) : fld (packF op scope kind z mask) 23 3 = scope := by
  have h : (op ++ scope ++ kind ++ z ++ mask).extractLsb' 23 3 = scope := by
    repeat rw [field_above (by decide)]
    rw [field_within (by decide)]
    exact BitVec.extractLsb'_eq_self
  exact h
theorem packF_kind (op : BitVec 6) (scope : BitVec 3) (kind : BitVec 4) (z : BitVec 3) (mask : BitVec 16) : fld (packF op scope kind z mask) 19 4 = kind := by
  have h : (op ++ scope ++ kind ++ z ++ mask).extractLsb' 19 4 = kind := by
    repeat rw [field_above (by decide)]
    rw [field_within (by decide)]
    exact BitVec.extractLsb'_eq_self
  exact h
theorem packF_z (op : BitVec 6) (scope : BitVec 3) (kind : BitVec 4) (z : BitVec 3) (mask : BitVec 16) : fld (packF op scope kind z mask) 16 3 = z := by
  have h : (op ++ scope ++ kind ++ z ++ mask).extractLsb' 16 3 = z := by
    repeat rw [field_above (by decide)]
    rw [field_within (by decide)]
    exact BitVec.extractLsb'_eq_self
  exact h
theorem packF_mask (op : BitVec 6) (scope : BitVec 3) (kind : BitVec 4) (z : BitVec 3) (mask : BitVec 16) : fld (packF op scope kind z mask) 0 16 = mask := by
  have h : (op ++ scope ++ kind ++ z ++ mask).extractLsb' 0 16 = mask := by
    rw [field_within (by decide)]
    exact BitVec.extractLsb'_eq_self
  exact h
theorem packP_op (op : BitVec 6) (z : BitVec 14) (p : BitVec 12) : fld (packP op z p) 26 6 = op := by
  have h : (op ++ z ++ p).extractLsb' 26 6 = op := by
    repeat rw [field_above (by decide)]
    exact BitVec.extractLsb'_eq_self
  exact h
theorem packP_z (op : BitVec 6) (z : BitVec 14) (p : BitVec 12) : fld (packP op z p) 12 14 = z := by
  have h : (op ++ z ++ p).extractLsb' 12 14 = z := by
    repeat rw [field_above (by decide)]
    rw [field_within (by decide)]
    exact BitVec.extractLsb'_eq_self
  exact h
theorem packP_p (op : BitVec 6) (z : BitVec 14) (p : BitVec 12) : fld (packP op z p) 0 12 = p := by
  have h : (op ++ z ++ p).extractLsb' 0 12 = p := by
    rw [field_within (by decide)]
    exact BitVec.extractLsb'_eq_self
  exact h
theorem packI_high_6 (op : BitVec 6) (d a fn : BitVec 4) (x : BitVec 8) (y : BitVec 6) :
    fld (packI op d a fn (x ++ y)) 6 8 = x := by
  have h : (op ++ d ++ a ++ fn ++ (x ++ y)).extractLsb' 6 8 = x := by
    rw [field_within (by decide)]
    rw [field_above (by decide)]
    exact BitVec.extractLsb'_eq_self
  exact h
theorem packI_low_6 (op : BitVec 6) (d a fn : BitVec 4) (x : BitVec 8) (y : BitVec 6) :
    fld (packI op d a fn (x ++ y)) 0 6 = y := by
  have h : (op ++ d ++ a ++ fn ++ (x ++ y)).extractLsb' 0 6 = y := by
    rw [field_within (by decide)]
    rw [field_within (by decide)]
    exact BitVec.extractLsb'_eq_self
  exact h
theorem packI_high_12 (op : BitVec 6) (d a fn : BitVec 4) (x : BitVec 2) (y : BitVec 12) :
    fld (packI op d a fn (x ++ y)) 12 2 = x := by
  have h : (op ++ d ++ a ++ fn ++ (x ++ y)).extractLsb' 12 2 = x := by
    rw [field_within (by decide)]
    rw [field_above (by decide)]
    exact BitVec.extractLsb'_eq_self
  exact h
theorem packI_low_12 (op : BitVec 6) (d a fn : BitVec 4) (x : BitVec 2) (y : BitVec 12) :
    fld (packI op d a fn (x ++ y)) 0 12 = y := by
  have h : (op ++ d ++ a ++ fn ++ (x ++ y)).extractLsb' 0 12 = y := by
    rw [field_within (by decide)]
    rw [field_within (by decide)]
    exact BitVec.extractLsb'_eq_self
  exact h
theorem packS_op (op : BitVec 6) (p : Pred) (d a b : BitVec 5) (fn : BitVec 7) : fld (packS op p d a b fn) 26 6 = op := by
  have h : (op ++ BitVec.ofBool p.pe ++ BitVec.ofBool p.pn ++ p.pi ++ d ++ a ++ b ++ fn).extractLsb' 26 6 = op := by
    repeat rw [field_above (by decide)]
    exact BitVec.extractLsb'_eq_self
  exact h
theorem packS_d (op : BitVec 6) (p : Pred) (d a b : BitVec 5) (fn : BitVec 7) : fld (packS op p d a b fn) 17 5 = d := by
  have h : (op ++ BitVec.ofBool p.pe ++ BitVec.ofBool p.pn ++ p.pi ++ d ++ a ++ b ++ fn).extractLsb' 17 5 = d := by
    repeat rw [field_above (by decide)]
    rw [field_within (by decide)]
    exact BitVec.extractLsb'_eq_self
  exact h
theorem packS_a (op : BitVec 6) (p : Pred) (d a b : BitVec 5) (fn : BitVec 7) : fld (packS op p d a b fn) 12 5 = a := by
  have h : (op ++ BitVec.ofBool p.pe ++ BitVec.ofBool p.pn ++ p.pi ++ d ++ a ++ b ++ fn).extractLsb' 12 5 = a := by
    repeat rw [field_above (by decide)]
    rw [field_within (by decide)]
    exact BitVec.extractLsb'_eq_self
  exact h
theorem packS_b (op : BitVec 6) (p : Pred) (d a b : BitVec 5) (fn : BitVec 7) : fld (packS op p d a b fn) 7 5 = b := by
  have h : (op ++ BitVec.ofBool p.pe ++ BitVec.ofBool p.pn ++ p.pi ++ d ++ a ++ b ++ fn).extractLsb' 7 5 = b := by
    repeat rw [field_above (by decide)]
    rw [field_within (by decide)]
    exact BitVec.extractLsb'_eq_self
  exact h
theorem packS_fn (op : BitVec 6) (p : Pred) (d a b : BitVec 5) (fn : BitVec 7) : fld (packS op p d a b fn) 0 7 = fn := by
  have h : (op ++ BitVec.ofBool p.pe ++ BitVec.ofBool p.pn ++ p.pi ++ d ++ a ++ b ++ fn).extractLsb' 0 7 = fn := by
    rw [field_within (by decide)]
    exact BitVec.extractLsb'_eq_self
  exact h
theorem packS_pred (op : BitVec 6) (p : Pred) (d a b : BitVec 5) (fn : BitVec 7) : predOf (packS op p d a b fn) = p := by
  have h1 : (op ++ BitVec.ofBool p.pe ++ BitVec.ofBool p.pn ++ p.pi ++ d ++ a ++ b ++ fn).getLsbD 25 = p.pe := by
    repeat rw [BitVec.getLsbD_append]
    cases p.pe <;> rfl
  have h2 : (op ++ BitVec.ofBool p.pe ++ BitVec.ofBool p.pn ++ p.pi ++ d ++ a ++ b ++ fn).getLsbD 24 = p.pn := by
    repeat rw [BitVec.getLsbD_append]
    cases p.pn <;> rfl
  have h3 : (op ++ BitVec.ofBool p.pe ++ BitVec.ofBool p.pn ++ p.pi ++ d ++ a ++ b ++ fn).extractLsb' 22 2 = p.pi := by
    repeat rw [field_above (by decide)]
    rw [field_within (by decide)]
    exact BitVec.extractLsb'_eq_self
  have h : (Pred.mk ((op ++ BitVec.ofBool p.pe ++ BitVec.ofBool p.pn ++ p.pi ++ d ++ a ++ b ++ fn).getLsbD 25) ((op ++ BitVec.ofBool p.pe ++ BitVec.ofBool p.pn ++ p.pi ++ d ++ a ++ b ++ fn).getLsbD 24) ((op ++ BitVec.ofBool p.pe ++ BitVec.ofBool p.pn ++ p.pi ++ d ++ a ++ b ++ fn).extractLsb' 22 2)) = p := by
    rw [h1, h2, h3]
  exact h
theorem packS_ab (op : BitVec 6) (p : Pred) (d a b : BitVec 5) (fn : BitVec 7) : fld (packS op p d a b fn) 7 10 = a ++ b := by
  have h : (op ++ BitVec.ofBool p.pe ++ BitVec.ofBool p.pn ++ p.pi ++ d ++ a ++ b ++ fn).extractLsb' 7 10 = a ++ b := by
    rw [field_above (by decide), BitVec.append_assoc, BitVec.extractLsb'_cast, field_within (by decide)]
    exact BitVec.extractLsb'_eq_self
  exact h
theorem packS_dx (op : BitVec 6) (p : Pred) (x : BitVec 3) (y : BitVec 2) (a b : BitVec 5) (fn : BitVec 7) : fld (packS op p (x ++ y) a b fn) 19 3 = x := by
  have h : (op ++ BitVec.ofBool p.pe ++ BitVec.ofBool p.pn ++ p.pi ++ (x ++ y) ++ a ++ b ++ fn).extractLsb' 19 3 = x := by
    rw [field_above (by decide), field_above (by decide), field_above (by decide), field_within (by decide), field_above (by decide)]
    exact BitVec.extractLsb'_eq_self
  exact h
theorem packS_dy (op : BitVec 6) (p : Pred) (x : BitVec 3) (y : BitVec 2) (a b : BitVec 5) (fn : BitVec 7) : fld (packS op p (x ++ y) a b fn) 17 2 = y := by
  have h : (op ++ BitVec.ofBool p.pe ++ BitVec.ofBool p.pn ++ p.pi ++ (x ++ y) ++ a ++ b ++ fn).extractLsb' 17 2 = y := by
    rw [field_above (by decide), field_above (by decide), field_above (by decide), field_within (by decide), field_within (by decide)]
    exact BitVec.extractLsb'_eq_self
  exact h
theorem packS_fnlow (op : BitVec 6) (p : Pred) (d a b : BitVec 5) (x : BitVec 1) (y : BitVec 6) : fld (packS op p d a b (x ++ y)) 0 6 = y := by
  have h : (op ++ BitVec.ofBool p.pe ++ BitVec.ofBool p.pn ++ p.pi ++ d ++ a ++ b ++ (x ++ y)).extractLsb' 0 6 = y := by
    rw [field_within (by decide), field_within (by decide)]
    exact BitVec.extractLsb'_eq_self
  exact h
theorem packS_fwd (op : BitVec 6) (p : Pred) (d a b : BitVec 5) (x : BitVec 1) (y : BitVec 6) : bit (packS op p d a b (x ++ y)) 6 = x.getLsbD 0 := by
  have h : (op ++ BitVec.ofBool p.pe ++ BitVec.ofBool p.pn ++ p.pi ++ d ++ a ++ b ++ (x ++ y)).getLsbD 6 = x.getLsbD 0 := by
    repeat rw [BitVec.getLsbD_append]
    rfl
  exact h
theorem packS_low6 (op : BitVec 6) (p : Pred) (d a b : BitVec 5) (k : BitVec 7) (h : k.getLsbD 6 = false) : bit (packS op p d a b k) 6 = false ∧ fld (packS op p d a b k) 0 6 = k.extractLsb' 0 6 := by
  have h1 : (op ++ BitVec.ofBool p.pe ++ BitVec.ofBool p.pn ++ p.pi ++ d ++ a ++ b ++ k).getLsbD 6 = k.getLsbD 6 := by
    rw [BitVec.getLsbD_append]
    rfl
  have h2 : (op ++ BitVec.ofBool p.pe ++ BitVec.ofBool p.pn ++ p.pi ++ d ++ a ++ b ++ k).extractLsb' 0 6 = k.extractLsb' 0 6 :=
    field_within (by decide)
  exact ⟨h1.trans h, h2⟩
theorem packPfx_op (op : BitVec 6) (payload : BitVec 12) : fld (packPfx op payload) 26 6 = op := by
  have h : (op ++ 0#4 ++ payload ++ 0#3 ++ 0x7F#7).extractLsb' 26 6 = op := by
    repeat rw [field_above (by decide)]
    exact BitVec.extractLsb'_eq_self
  exact h
theorem packPfx_z1 (op : BitVec 6) (payload : BitVec 12) : fld (packPfx op payload) 22 4 = 0#4 := by
  have h : (op ++ 0#4 ++ payload ++ 0#3 ++ 0x7F#7).extractLsb' 22 4 = 0#4 := by
    repeat rw [field_above (by decide)]
    rw [field_within (by decide)]
    exact BitVec.extractLsb'_eq_self
  exact h
theorem packPfx_payload (op : BitVec 6) (payload : BitVec 12) : fld (packPfx op payload) 10 12 = payload := by
  have h : (op ++ 0#4 ++ payload ++ 0#3 ++ 0x7F#7).extractLsb' 10 12 = payload := by
    repeat rw [field_above (by decide)]
    rw [field_within (by decide)]
    exact BitVec.extractLsb'_eq_self
  exact h
theorem packPfx_z2 (op : BitVec 6) (payload : BitVec 12) : fld (packPfx op payload) 7 3 = 0#3 := by
  have h : (op ++ 0#4 ++ payload ++ 0#3 ++ 0x7F#7).extractLsb' 7 3 = 0#3 := by
    repeat rw [field_above (by decide)]
    rw [field_within (by decide)]
    exact BitVec.extractLsb'_eq_self
  exact h
theorem packPfx_fn (op : BitVec 6) (payload : BitVec 12) : fld (packPfx op payload) 0 7 = 0x7F#7 := by
  have h : (op ++ 0#4 ++ payload ++ 0#3 ++ 0x7F#7).extractLsb' 0 7 = 0x7F#7 := by
    rw [field_within (by decide)]
    exact BitVec.extractLsb'_eq_self
  exact h

theorem ofBool_bit (b : Bool) : (BitVec.ofBool b).getLsbD 0 = b := by cases b <;> rfl

/-! Immediates that a word and its lent byte share (R85, R230). -/

theorem join_10 {n : Nat} (x : BitVec n) : x.extractLsb' 5 5 ++ x.extractLsb' 0 5 = x.extractLsb' 0 10 :=
  BitVec.extractLsb'_append_extractLsb'_eq_extractLsb' rfl
theorem join_13 (x : BitVec 13) : x.extractLsb' 5 8 ++ x.extractLsb' 0 5 = x :=
  (BitVec.extractLsb'_append_extractLsb'_eq_extractLsb' rfl).trans BitVec.extractLsb'_eq_self
theorem join_18 (x : BitVec 18) : x.extractLsb' 10 8 ++ x.extractLsb' 0 10 = x :=
  (BitVec.extractLsb'_append_extractLsb'_eq_extractLsb' rfl).trans BitVec.extractLsb'_eq_self
theorem join_12 (x : BitVec 12) : x.extractLsb' 10 2 ++ x.extractLsb' 0 10 = x :=
  (BitVec.extractLsb'_append_extractLsb'_eq_extractLsb' rfl).trans BitVec.extractLsb'_eq_self
theorem join_7 (x : BitVec 7) : x.extractLsb' 5 2 ++ x.extractLsb' 0 5 = x :=
  (BitVec.extractLsb'_append_extractLsb'_eq_extractLsb' rfl).trans BitVec.extractLsb'_eq_self
theorem lent_high (x : BitVec 2) : (0#6 ++ x).extractLsb' 2 6 = 0#6 := by
  rw [field_above (by decide)]
  exact BitVec.extractLsb'_eq_self
theorem lent_low (x : BitVec 2) : (0#6 ++ x).extractLsb' 0 2 = x := by
  rw [field_within (by decide)]
  exact BitVec.extractLsb'_eq_self

/-! The look-up by the major opcode. -/

theorem decMajor01_of (w : W32) (h : fld w 26 6 = 1#6) : decodeRaw w = decMajor01 w := by simp only [decodeRaw, h]; rfl
theorem decMajor02_of (w : W32) (h : fld w 26 6 = 2#6) : decodeRaw w = decMajor02 w := by simp only [decodeRaw, h]; rfl
theorem decMajor03_of (w : W32) (h : fld w 26 6 = 3#6) : decodeRaw w = decMajor03 w := by simp only [decodeRaw, h]; rfl
theorem decMajor04_of (w : W32) (h : fld w 26 6 = 4#6) : decodeRaw w = decMajor04 w := by simp only [decodeRaw, h]; rfl
theorem decMajor05_of (w : W32) (h : fld w 26 6 = 5#6) : decodeRaw w = decMajor05 w := by simp only [decodeRaw, h]; rfl
theorem decMajor06_of (w : W32) (h : fld w 26 6 = 6#6) : decodeRaw w = decMajor06 w := by simp only [decodeRaw, h]; rfl
theorem decMajor07_of (w : W32) (h : fld w 26 6 = 7#6) : decodeRaw w = decMajor07 w := by simp only [decodeRaw, h]; rfl
theorem decMajor08_of (w : W32) (h : fld w 26 6 = 8#6) : decodeRaw w = decMajor08 w := by simp only [decodeRaw, h]; rfl
theorem decMajor09_of (w : W32) (h : fld w 26 6 = 9#6) : decodeRaw w = decMajor09 w := by simp only [decodeRaw, h]; rfl
theorem decMajor0A_of (w : W32) (h : fld w 26 6 = 10#6) : decodeRaw w = decMajor0A w := by simp only [decodeRaw, h]; rfl
theorem decMajor0B_of (w : W32) (h : fld w 26 6 = 11#6) : decodeRaw w = decMajor0B w := by simp only [decodeRaw, h]; rfl
theorem decMajor0C_of (w : W32) (h : fld w 26 6 = 12#6) : decodeRaw w = decMajor0C w := by simp only [decodeRaw, h]; rfl
theorem decMajor0D_of (w : W32) (h : fld w 26 6 = 13#6) : decodeRaw w = decMajor0D w := by simp only [decodeRaw, h]; rfl
theorem decMajor0E_of (w : W32) (h : fld w 26 6 = 14#6) : decodeRaw w = decMajor0E w := by simp only [decodeRaw, h]; rfl
theorem decMajor0F_of (w : W32) (h : fld w 26 6 = 15#6) : decodeRaw w = decMajor0F w := by simp only [decodeRaw, h]; rfl
theorem decMajor10_of (w : W32) (h : fld w 26 6 = 16#6) : decodeRaw w = decMajor10 w := by simp only [decodeRaw, h]; rfl
theorem decMajor11_of (w : W32) (h : fld w 26 6 = 17#6) : decodeRaw w = decMajor11 w := by simp only [decodeRaw, h]; rfl
theorem decMajor12_of (w : W32) (h : fld w 26 6 = 18#6) : decodeRaw w = decMajor12 w := by simp only [decodeRaw, h]; rfl
theorem decMajor13_of (w : W32) (h : fld w 26 6 = 19#6) : decodeRaw w = decMajor13 w := by simp only [decodeRaw, h]; rfl
theorem decMajor14_of (w : W32) (h : fld w 26 6 = 20#6) : decodeRaw w = decMajor14 w := by simp only [decodeRaw, h]; rfl
theorem decMajor15_of (w : W32) (h : fld w 26 6 = 21#6) : decodeRaw w = decMajor15 w := by simp only [decodeRaw, h]; rfl
theorem decMajor16_of (w : W32) (h : fld w 26 6 = 22#6) : decodeRaw w = decMajor16 w := by simp only [decodeRaw, h]; rfl
theorem decMajor17_of (w : W32) (h : fld w 26 6 = 23#6) : decodeRaw w = decMajor17 w := by simp only [decodeRaw, h]; rfl
theorem decMajor18_of (w : W32) (h : fld w 26 6 = 24#6) : decodeRaw w = decMajor18 w := by simp only [decodeRaw, h]; rfl
theorem decMajor19_of (w : W32) (h : fld w 26 6 = 25#6) : decodeRaw w = decMajor19 w := by simp only [decodeRaw, h]; rfl
theorem decMajor1A_of (w : W32) (h : fld w 26 6 = 26#6) : decodeRaw w = decMajor1A w := by simp only [decodeRaw, h]; rfl
theorem decMajor1B_of (w : W32) (h : fld w 26 6 = 27#6) : decodeRaw w = decMajor1B w := by simp only [decodeRaw, h]; rfl
theorem decMajor1C_of (w : W32) (h : fld w 26 6 = 28#6) : decodeRaw w = decMajor1C w := by simp only [decodeRaw, h]; rfl
theorem decMajor1D_of (w : W32) (h : fld w 26 6 = 29#6) : decodeRaw w = decMajor1D w := by simp only [decodeRaw, h]; rfl
theorem decMajor1E_of (w : W32) (h : fld w 26 6 = 30#6) : decodeRaw w = decMajor1E w := by simp only [decodeRaw, h]; rfl
theorem decMajor1F_of (w : W32) (h : fld w 26 6 = 31#6) : decodeRaw w = decMajor1F w := by simp only [decodeRaw, h]; rfl
theorem decMajor20_of (w : W32) (h : fld w 26 6 = 32#6) : decodeRaw w = decMajor20 w := by simp only [decodeRaw, h]; rfl
theorem decSlot28_of (w : W32) (lend : Byte) (h : fld w 26 6 = 40#6) : decodeSlotRaw w lend = decSlot28 w lend := by simp only [decodeSlotRaw, h]; rfl
theorem decSlot28_none (w : W32) (h : fld w 26 6 = 40#6) : decodeRaw w = none := by simp only [decodeRaw, h]; rfl
theorem decSlot29_of (w : W32) (lend : Byte) (h : fld w 26 6 = 41#6) : decodeSlotRaw w lend = decSlot29 w lend := by simp only [decodeSlotRaw, h]; rfl
theorem decSlot29_none (w : W32) (h : fld w 26 6 = 41#6) : decodeRaw w = none := by simp only [decodeRaw, h]; rfl
theorem decSlot2A_of (w : W32) (lend : Byte) (h : fld w 26 6 = 42#6) : decodeSlotRaw w lend = decSlot2A w lend := by simp only [decodeSlotRaw, h]; rfl
theorem decSlot2A_none (w : W32) (h : fld w 26 6 = 42#6) : decodeRaw w = none := by simp only [decodeRaw, h]; rfl
theorem decSlot2B_of (w : W32) (lend : Byte) (h : fld w 26 6 = 43#6) : decodeSlotRaw w lend = decSlot2B w lend := by simp only [decodeSlotRaw, h]; rfl
theorem decSlot2B_none (w : W32) (h : fld w 26 6 = 43#6) : decodeRaw w = none := by simp only [decodeRaw, h]; rfl
theorem decSlot2E_of (w : W32) (lend : Byte) (h : fld w 26 6 = 46#6) : decodeSlotRaw w lend = decSlot2E w lend := by simp only [decodeSlotRaw, h]; rfl
theorem decSlot2E_none (w : W32) (h : fld w 26 6 = 46#6) : decodeRaw w = none := by simp only [decodeRaw, h]; rfl
theorem decSlot2F_of (w : W32) (lend : Byte) (h : fld w 26 6 = 47#6) : decodeSlotRaw w lend = decSlot2F w lend := by simp only [decodeSlotRaw, h]; rfl
theorem decSlot2F_none (w : W32) (h : fld w 26 6 = 47#6) : decodeRaw w = none := by simp only [decodeRaw, h]; rfl
theorem decSlot30_of (w : W32) (lend : Byte) (h : fld w 26 6 = 48#6) : decodeSlotRaw w lend = decSlot30 w lend := by simp only [decodeSlotRaw, h]; rfl
theorem decSlot30_none (w : W32) (h : fld w 26 6 = 48#6) : decodeRaw w = none := by simp only [decodeRaw, h]; rfl
theorem decSlot31_of (w : W32) (lend : Byte) (h : fld w 26 6 = 49#6) : decodeSlotRaw w lend = decSlot31 w lend := by simp only [decodeSlotRaw, h]; rfl
theorem decSlot31_none (w : W32) (h : fld w 26 6 = 49#6) : decodeRaw w = none := by simp only [decodeRaw, h]; rfl
theorem decSlot32_of (w : W32) (lend : Byte) (h : fld w 26 6 = 50#6) : decodeSlotRaw w lend = decSlot32 w lend := by simp only [decodeSlotRaw, h]; rfl
theorem decSlot32_none (w : W32) (h : fld w 26 6 = 50#6) : decodeRaw w = none := by simp only [decodeRaw, h]; rfl
theorem decSlot35_of (w : W32) (lend : Byte) (h : fld w 26 6 = 53#6) : decodeSlotRaw w lend = decSlot35 w lend := by simp only [decodeSlotRaw, h]; rfl
theorem decSlot35_none (w : W32) (h : fld w 26 6 = 53#6) : decodeRaw w = none := by simp only [decodeRaw, h]; rfl
theorem decSlot36_of (w : W32) (lend : Byte) (h : fld w 26 6 = 54#6) : decodeSlotRaw w lend = decSlot36 w lend := by simp only [decodeSlotRaw, h]; rfl
theorem decSlot36_none (w : W32) (h : fld w 26 6 = 54#6) : decodeRaw w = none := by simp only [decodeRaw, h]; rfl
theorem decSlot37_of (w : W32) (lend : Byte) (h : fld w 26 6 = 55#6) : decodeSlotRaw w lend = decSlot37 w lend := by simp only [decodeSlotRaw, h]; rfl
theorem decSlot37_none (w : W32) (h : fld w 26 6 = 55#6) : decodeRaw w = none := by simp only [decodeRaw, h]; rfl
theorem decSlot38_of (w : W32) (lend : Byte) (h : fld w 26 6 = 56#6) : decodeSlotRaw w lend = decSlot38 w lend := by simp only [decodeSlotRaw, h]; rfl
theorem decSlot38_none (w : W32) (h : fld w 26 6 = 56#6) : decodeRaw w = none := by simp only [decodeRaw, h]; rfl
theorem decSlot39_of (w : W32) (lend : Byte) (h : fld w 26 6 = 57#6) : decodeSlotRaw w lend = decSlot39 w lend := by simp only [decodeSlotRaw, h]; rfl
theorem decSlot39_none (w : W32) (h : fld w 26 6 = 57#6) : decodeRaw w = none := by simp only [decodeRaw, h]; rfl
theorem decSlot3A_of (w : W32) (lend : Byte) (h : fld w 26 6 = 58#6) : decodeSlotRaw w lend = decSlot3A w lend := by simp only [decodeSlotRaw, h]; rfl
theorem decSlot3A_none (w : W32) (h : fld w 26 6 = 58#6) : decodeRaw w = none := by simp only [decodeRaw, h]; rfl
theorem decSlot3B_of (w : W32) (lend : Byte) (h : fld w 26 6 = 59#6) : decodeSlotRaw w lend = decSlot3B w lend := by simp only [decodeSlotRaw, h]; rfl
theorem decSlot3B_none (w : W32) (h : fld w 26 6 = 59#6) : decodeRaw w = none := by simp only [decodeRaw, h]; rfl

/-- A word that reads back raw as a well-formed instruction decodes to it. -/
theorem decodeWord_of_raw {w : W32} {i : Instr} (h : decodeRaw w = some i) (wf : wellFormed i = true) : decodeWord w = some i := by
  simp only [decodeWord, h, wf, if_true]
/-- The same of a slot word. -/
theorem decodeSlot_of_raw {w : W32} {lend : Byte} {i : Instr} (h : decodeSlotRaw w lend = some i) (wf : wellFormed i = true) :
    decodeSlot w lend = some i := by
  simp only [decodeSlot, h, wf, if_true]
/-- A word whose opcode is no grain's decodes to no grain instruction. -/
theorem decodeWord_of_none {w : W32} (h : decodeRaw w = none) : decodeWord w = none := by simp only [decodeWord, h]

/-- A grain word reads back. -/
theorem readBack_grain {w : W32} {lend : Byte} {i : Instr} (h : decodeRaw w = some i) (wf : wellFormed i = true) :
    readBack (w, lend) = some i := by
  simp only [readBack, decodeWord_of_raw h wf]
/-- A slot word reads back with its lent byte. -/
theorem readBack_slot {w : W32} {lend : Byte} {i : Instr} (n : decodeRaw w = none) (h : decodeSlotRaw w lend = some i)
    (wf : wellFormed i = true) : readBack (w, lend) = some i := by
  simp only [readBack, decodeWord_of_none n, decodeSlot_of_raw h wf]

end Sys2Proof.Laws
end

