-- ==== Sys2Proof/Laws/PerInstr.lean ====
section
/-!
SUPPORT. Statements made of every instruction, one lemma each: the word that the encoder packs is read back as the instruction it
stands for (R71 to R85).
-/

set_option linter.unusedSimpArgs false
set_option Elab.async false

namespace Sys2Proof.Laws.RoundTrip

open Sys2Proof Sys2Proof.Laws

/-- The word of a well-formed instruction, with its lent byte, reads back as its row, every operand as it was; an event has no
word. -/
def Statement (i : Instr) : Prop :=
  wellFormed i = true → match encode i with
    | none => True
    | some p => readBack p = some (coreRow i)

theorem add (d : BitVec 4) (a : BitVec 4) (b : BitVec 4) : Statement (Instr.add d a b) := by
  intro h
  refine readBack_grain (i := coreRow (.add d a b)) ?_ h
  rw [decMajor01_of _ (packR_op ..)]
  simp only [decMajor01, packR_op, packR_d, packR_a, packR_b, packR_c, packR_fn, ofBool_bit]
  rfl
theorem sub (d : BitVec 4) (a : BitVec 4) (b : BitVec 4) : Statement (Instr.sub d a b) := by
  intro h
  refine readBack_grain (i := coreRow (.sub d a b)) ?_ h
  rw [decMajor01_of _ (packR_op ..)]
  simp only [decMajor01, packR_op, packR_d, packR_a, packR_b, packR_c, packR_fn, ofBool_bit]
  rfl
theorem addw (d : BitVec 4) (a : BitVec 4) (b : BitVec 4) : Statement (Instr.addw d a b) := by
  intro h
  refine readBack_grain (i := coreRow (.addw d a b)) ?_ h
  rw [decMajor01_of _ (packR_op ..)]
  simp only [decMajor01, packR_op, packR_d, packR_a, packR_b, packR_c, packR_fn, ofBool_bit]
  rfl
theorem subw (d : BitVec 4) (a : BitVec 4) (b : BitVec 4) : Statement (Instr.subw d a b) := by
  intro h
  refine readBack_grain (i := coreRow (.subw d a b)) ?_ h
  rw [decMajor01_of _ (packR_op ..)]
  simp only [decMajor01, packR_op, packR_d, packR_a, packR_b, packR_c, packR_fn, ofBool_bit]
  rfl
theorem and_ (d : BitVec 4) (a : BitVec 4) (b : BitVec 4) : Statement (Instr.and_ d a b) := by
  intro h
  refine readBack_grain (i := coreRow (.and_ d a b)) ?_ h
  rw [decMajor01_of _ (packR_op ..)]
  simp only [decMajor01, packR_op, packR_d, packR_a, packR_b, packR_c, packR_fn, ofBool_bit]
  rfl
theorem or_ (d : BitVec 4) (a : BitVec 4) (b : BitVec 4) : Statement (Instr.or_ d a b) := by
  intro h
  refine readBack_grain (i := coreRow (.or_ d a b)) ?_ h
  rw [decMajor01_of _ (packR_op ..)]
  simp only [decMajor01, packR_op, packR_d, packR_a, packR_b, packR_c, packR_fn, ofBool_bit]
  rfl
theorem xor_ (d : BitVec 4) (a : BitVec 4) (b : BitVec 4) : Statement (Instr.xor_ d a b) := by
  intro h
  refine readBack_grain (i := coreRow (.xor_ d a b)) ?_ h
  rw [decMajor01_of _ (packR_op ..)]
  simp only [decMajor01, packR_op, packR_d, packR_a, packR_b, packR_c, packR_fn, ofBool_bit]
  rfl
theorem andn (d : BitVec 4) (a : BitVec 4) (b : BitVec 4) : Statement (Instr.andn d a b) := by
  intro h
  refine readBack_grain (i := coreRow (.andn d a b)) ?_ h
  rw [decMajor01_of _ (packR_op ..)]
  simp only [decMajor01, packR_op, packR_d, packR_a, packR_b, packR_c, packR_fn, ofBool_bit]
  rfl
theorem orn (d : BitVec 4) (a : BitVec 4) (b : BitVec 4) : Statement (Instr.orn d a b) := by
  intro h
  refine readBack_grain (i := coreRow (.orn d a b)) ?_ h
  rw [decMajor01_of _ (packR_op ..)]
  simp only [decMajor01, packR_op, packR_d, packR_a, packR_b, packR_c, packR_fn, ofBool_bit]
  rfl
theorem xnor (d : BitVec 4) (a : BitVec 4) (b : BitVec 4) : Statement (Instr.xnor d a b) := by
  intro h
  refine readBack_grain (i := coreRow (.xnor d a b)) ?_ h
  rw [decMajor01_of _ (packR_op ..)]
  simp only [decMajor01, packR_op, packR_d, packR_a, packR_b, packR_c, packR_fn, ofBool_bit]
  rfl
theorem sll (d : BitVec 4) (a : BitVec 4) (b : BitVec 4) : Statement (Instr.sll d a b) := by
  intro h
  refine readBack_grain (i := coreRow (.sll d a b)) ?_ h
  rw [decMajor01_of _ (packR_op ..)]
  simp only [decMajor01, packR_op, packR_d, packR_a, packR_b, packR_c, packR_fn, ofBool_bit]
  rfl
theorem srl (d : BitVec 4) (a : BitVec 4) (b : BitVec 4) : Statement (Instr.srl d a b) := by
  intro h
  refine readBack_grain (i := coreRow (.srl d a b)) ?_ h
  rw [decMajor01_of _ (packR_op ..)]
  simp only [decMajor01, packR_op, packR_d, packR_a, packR_b, packR_c, packR_fn, ofBool_bit]
  rfl
theorem sra (d : BitVec 4) (a : BitVec 4) (b : BitVec 4) : Statement (Instr.sra d a b) := by
  intro h
  refine readBack_grain (i := coreRow (.sra d a b)) ?_ h
  rw [decMajor01_of _ (packR_op ..)]
  simp only [decMajor01, packR_op, packR_d, packR_a, packR_b, packR_c, packR_fn, ofBool_bit]
  rfl
theorem rol (d : BitVec 4) (a : BitVec 4) (b : BitVec 4) : Statement (Instr.rol d a b) := by
  intro h
  refine readBack_grain (i := coreRow (.rol d a b)) ?_ h
  rw [decMajor01_of _ (packR_op ..)]
  simp only [decMajor01, packR_op, packR_d, packR_a, packR_b, packR_c, packR_fn, ofBool_bit]
  rfl
theorem ror (d : BitVec 4) (a : BitVec 4) (b : BitVec 4) : Statement (Instr.ror d a b) := by
  intro h
  refine readBack_grain (i := coreRow (.ror d a b)) ?_ h
  rw [decMajor01_of _ (packR_op ..)]
  simp only [decMajor01, packR_op, packR_d, packR_a, packR_b, packR_c, packR_fn, ofBool_bit]
  rfl
theorem sllw (d : BitVec 4) (a : BitVec 4) (b : BitVec 4) : Statement (Instr.sllw d a b) := by
  intro h
  refine readBack_grain (i := coreRow (.sllw d a b)) ?_ h
  rw [decMajor01_of _ (packR_op ..)]
  simp only [decMajor01, packR_op, packR_d, packR_a, packR_b, packR_c, packR_fn, ofBool_bit]
  rfl
theorem srlw (d : BitVec 4) (a : BitVec 4) (b : BitVec 4) : Statement (Instr.srlw d a b) := by
  intro h
  refine readBack_grain (i := coreRow (.srlw d a b)) ?_ h
  rw [decMajor01_of _ (packR_op ..)]
  simp only [decMajor01, packR_op, packR_d, packR_a, packR_b, packR_c, packR_fn, ofBool_bit]
  rfl
theorem sraw (d : BitVec 4) (a : BitVec 4) (b : BitVec 4) : Statement (Instr.sraw d a b) := by
  intro h
  refine readBack_grain (i := coreRow (.sraw d a b)) ?_ h
  rw [decMajor01_of _ (packR_op ..)]
  simp only [decMajor01, packR_op, packR_d, packR_a, packR_b, packR_c, packR_fn, ofBool_bit]
  rfl
theorem mul (d : BitVec 4) (a : BitVec 4) (b : BitVec 4) : Statement (Instr.mul d a b) := by
  intro h
  refine readBack_grain (i := coreRow (.mul d a b)) ?_ h
  rw [decMajor02_of _ (packR_op ..)]
  simp only [decMajor02, packR_op, packR_d, packR_a, packR_b, packR_c, packR_fn, ofBool_bit]
  rfl
theorem mulh (d : BitVec 4) (a : BitVec 4) (b : BitVec 4) : Statement (Instr.mulh d a b) := by
  intro h
  refine readBack_grain (i := coreRow (.mulh d a b)) ?_ h
  rw [decMajor02_of _ (packR_op ..)]
  simp only [decMajor02, packR_op, packR_d, packR_a, packR_b, packR_c, packR_fn, ofBool_bit]
  rfl
theorem mulhu (d : BitVec 4) (a : BitVec 4) (b : BitVec 4) : Statement (Instr.mulhu d a b) := by
  intro h
  refine readBack_grain (i := coreRow (.mulhu d a b)) ?_ h
  rw [decMajor02_of _ (packR_op ..)]
  simp only [decMajor02, packR_op, packR_d, packR_a, packR_b, packR_c, packR_fn, ofBool_bit]
  rfl
theorem mulw (d : BitVec 4) (a : BitVec 4) (b : BitVec 4) : Statement (Instr.mulw d a b) := by
  intro h
  refine readBack_grain (i := coreRow (.mulw d a b)) ?_ h
  rw [decMajor02_of _ (packR_op ..)]
  simp only [decMajor02, packR_op, packR_d, packR_a, packR_b, packR_c, packR_fn, ofBool_bit]
  rfl
theorem div (d : BitVec 4) (a : BitVec 4) (b : BitVec 4) : Statement (Instr.div d a b) := by
  intro h
  refine readBack_grain (i := coreRow (.div d a b)) ?_ h
  rw [decMajor02_of _ (packR_op ..)]
  simp only [decMajor02, packR_op, packR_d, packR_a, packR_b, packR_c, packR_fn, ofBool_bit]
  rfl
theorem divu (d : BitVec 4) (a : BitVec 4) (b : BitVec 4) : Statement (Instr.divu d a b) := by
  intro h
  refine readBack_grain (i := coreRow (.divu d a b)) ?_ h
  rw [decMajor02_of _ (packR_op ..)]
  simp only [decMajor02, packR_op, packR_d, packR_a, packR_b, packR_c, packR_fn, ofBool_bit]
  rfl
theorem rem (d : BitVec 4) (a : BitVec 4) (b : BitVec 4) : Statement (Instr.rem d a b) := by
  intro h
  refine readBack_grain (i := coreRow (.rem d a b)) ?_ h
  rw [decMajor02_of _ (packR_op ..)]
  simp only [decMajor02, packR_op, packR_d, packR_a, packR_b, packR_c, packR_fn, ofBool_bit]
  rfl
theorem remu (d : BitVec 4) (a : BitVec 4) (b : BitVec 4) : Statement (Instr.remu d a b) := by
  intro h
  refine readBack_grain (i := coreRow (.remu d a b)) ?_ h
  rw [decMajor02_of _ (packR_op ..)]
  simp only [decMajor02, packR_op, packR_d, packR_a, packR_b, packR_c, packR_fn, ofBool_bit]
  rfl
theorem addi (d : BitVec 4) (a : BitVec 4) (imm : BitVec 14) : Statement (Instr.addi d a imm) := by
  intro h
  refine readBack_grain (i := coreRow (.addi d a imm)) ?_ h
  rw [decMajor03_of _ (packI_op ..)]
  simp only [decMajor03, packI_op, packI_d, packI_a, packI_fn, packI_imm, packI_high_6, packI_low_6, packI_high_12, packI_low_12, ofBool_bit]
  rfl
theorem andi (d : BitVec 4) (a : BitVec 4) (imm : BitVec 14) : Statement (Instr.andi d a imm) := by
  intro h
  refine readBack_grain (i := coreRow (.andi d a imm)) ?_ h
  rw [decMajor03_of _ (packI_op ..)]
  simp only [decMajor03, packI_op, packI_d, packI_a, packI_fn, packI_imm, packI_high_6, packI_low_6, packI_high_12, packI_low_12, ofBool_bit]
  rfl
theorem ori (d : BitVec 4) (a : BitVec 4) (imm : BitVec 14) : Statement (Instr.ori d a imm) := by
  intro h
  refine readBack_grain (i := coreRow (.ori d a imm)) ?_ h
  rw [decMajor03_of _ (packI_op ..)]
  simp only [decMajor03, packI_op, packI_d, packI_a, packI_fn, packI_imm, packI_high_6, packI_low_6, packI_high_12, packI_low_12, ofBool_bit]
  rfl
theorem xori (d : BitVec 4) (a : BitVec 4) (imm : BitVec 14) : Statement (Instr.xori d a imm) := by
  intro h
  refine readBack_grain (i := coreRow (.xori d a imm)) ?_ h
  rw [decMajor03_of _ (packI_op ..)]
  simp only [decMajor03, packI_op, packI_d, packI_a, packI_fn, packI_imm, packI_high_6, packI_low_6, packI_high_12, packI_low_12, ofBool_bit]
  rfl
theorem slli (d : BitVec 4) (a : BitVec 4) (sh : BitVec 6) : Statement (Instr.slli d a sh) := by
  intro h
  refine readBack_grain (i := coreRow (.slli d a sh)) ?_ h
  rw [decMajor03_of _ (packI_op ..)]
  simp only [decMajor03, packI_op, packI_d, packI_a, packI_fn, packI_imm, packI_high_6, packI_low_6, packI_high_12, packI_low_12, ofBool_bit]
  rfl
theorem srli (d : BitVec 4) (a : BitVec 4) (sh : BitVec 6) : Statement (Instr.srli d a sh) := by
  intro h
  refine readBack_grain (i := coreRow (.srli d a sh)) ?_ h
  rw [decMajor03_of _ (packI_op ..)]
  simp only [decMajor03, packI_op, packI_d, packI_a, packI_fn, packI_imm, packI_high_6, packI_low_6, packI_high_12, packI_low_12, ofBool_bit]
  rfl
theorem srai (d : BitVec 4) (a : BitVec 4) (sh : BitVec 6) : Statement (Instr.srai d a sh) := by
  intro h
  refine readBack_grain (i := coreRow (.srai d a sh)) ?_ h
  rw [decMajor03_of _ (packI_op ..)]
  simp only [decMajor03, packI_op, packI_d, packI_a, packI_fn, packI_imm, packI_high_6, packI_low_6, packI_high_12, packI_low_12, ofBool_bit]
  rfl
theorem clz (d : BitVec 4) (a : BitVec 4) : Statement (Instr.clz d a) := by
  intro h
  refine readBack_grain (i := coreRow (.clz d a)) ?_ h
  rw [decMajor04_of _ (packR_op ..)]
  simp only [decMajor04, packR_op, packR_d, packR_a, packR_b, packR_c, packR_fn, ofBool_bit]
  rfl
theorem ctz (d : BitVec 4) (a : BitVec 4) : Statement (Instr.ctz d a) := by
  intro h
  refine readBack_grain (i := coreRow (.ctz d a)) ?_ h
  rw [decMajor04_of _ (packR_op ..)]
  simp only [decMajor04, packR_op, packR_d, packR_a, packR_b, packR_c, packR_fn, ofBool_bit]
  rfl
theorem popc (d : BitVec 4) (a : BitVec 4) : Statement (Instr.popc d a) := by
  intro h
  refine readBack_grain (i := coreRow (.popc d a)) ?_ h
  rw [decMajor04_of _ (packR_op ..)]
  simp only [decMajor04, packR_op, packR_d, packR_a, packR_b, packR_c, packR_fn, ofBool_bit]
  rfl
theorem brev (d : BitVec 4) (a : BitVec 4) : Statement (Instr.brev d a) := by
  intro h
  refine readBack_grain (i := coreRow (.brev d a)) ?_ h
  rw [decMajor04_of _ (packR_op ..)]
  simp only [decMajor04, packR_op, packR_d, packR_a, packR_b, packR_c, packR_fn, ofBool_bit]
  rfl
theorem bswap (d : BitVec 4) (a : BitVec 4) : Statement (Instr.bswap d a) := by
  intro h
  refine readBack_grain (i := coreRow (.bswap d a)) ?_ h
  rw [decMajor04_of _ (packR_op ..)]
  simp only [decMajor04, packR_op, packR_d, packR_a, packR_b, packR_c, packR_fn, ofBool_bit]
  rfl
theorem bext (d : BitVec 4) (a : BitVec 4) (b : BitVec 4) : Statement (Instr.bext d a b) := by
  intro h
  refine readBack_grain (i := coreRow (.bext d a b)) ?_ h
  rw [decMajor04_of _ (packR_op ..)]
  simp only [decMajor04, packR_op, packR_d, packR_a, packR_b, packR_c, packR_fn, ofBool_bit]
  rfl
theorem bins (d : BitVec 4) (a : BitVec 4) (b : BitVec 4) (c : BitVec 4) : Statement (Instr.bins d a b c) := by
  intro h
  refine readBack_grain (i := coreRow (.bins d a b c)) ?_ h
  rw [decMajor04_of _ (packR_op ..)]
  simp only [decMajor04, packR_op, packR_d, packR_a, packR_b, packR_c, packR_fn, ofBool_bit]
  rfl
theorem hash (d : BitVec 4) (a : BitVec 4) (b : BitVec 4) : Statement (Instr.hash d a b) := by
  intro h
  refine readBack_grain (i := coreRow (.hash d a b)) ?_ h
  rw [decMajor05_of _ (packR_op ..)]
  simp only [decMajor05, packR_op, packR_d, packR_a, packR_b, packR_c, packR_fn, ofBool_bit]
  rfl
theorem crc (d : BitVec 4) (a : BitVec 4) (b : BitVec 4) (z : BitVec 4) : Statement (Instr.crc d a b z) := by
  intro h
  refine readBack_grain (i := coreRow (.crc d a b z)) ?_ h
  rw [decMajor05_of _ (packR_op ..)]
  simp only [decMajor05, packR_op, packR_d, packR_a, packR_b, packR_c, packR_fn, ofBool_bit]
  rfl
theorem slt (d : BitVec 4) (a : BitVec 4) (b : BitVec 4) : Statement (Instr.slt d a b) := by
  intro h
  refine readBack_grain (i := coreRow (.slt d a b)) ?_ h
  rw [decMajor06_of _ (packR_op ..)]
  simp only [decMajor06, packR_op, packR_d, packR_a, packR_b, packR_c, packR_fn, ofBool_bit]
  rfl
theorem sltu (d : BitVec 4) (a : BitVec 4) (b : BitVec 4) : Statement (Instr.sltu d a b) := by
  intro h
  refine readBack_grain (i := coreRow (.sltu d a b)) ?_ h
  rw [decMajor06_of _ (packR_op ..)]
  simp only [decMajor06, packR_op, packR_d, packR_a, packR_b, packR_c, packR_fn, ofBool_bit]
  rfl
theorem seq (d : BitVec 4) (a : BitVec 4) (b : BitVec 4) : Statement (Instr.seq d a b) := by
  intro h
  refine readBack_grain (i := coreRow (.seq d a b)) ?_ h
  rw [decMajor06_of _ (packR_op ..)]
  simp only [decMajor06, packR_op, packR_d, packR_a, packR_b, packR_c, packR_fn, ofBool_bit]
  rfl
theorem sel (d : BitVec 4) (a : BitVec 4) (b : BitVec 4) (c : BitVec 4) : Statement (Instr.sel d a b c) := by
  intro h
  refine readBack_grain (i := coreRow (.sel d a b c)) ?_ h
  rw [decMajor06_of _ (packR_op ..)]
  simp only [decMajor06, packR_op, packR_d, packR_a, packR_b, packR_c, packR_fn, ofBool_bit]
  rfl
theorem hset (d : BitVec 4) (hx : BitVec 2) (imm : BitVec 16) : Statement (Instr.hset d hx imm) := by
  intro h
  refine readBack_grain (i := coreRow (.hset d hx imm)) ?_ h
  rw [decMajor07_of _ (packU_op ..)]
  simp only [decMajor07, packU_op, packU_d, packU_fn, packU_hx, packU_z, packU_imm, ofBool_bit]
  rfl
theorem hins (d : BitVec 4) (hx : BitVec 2) (imm : BitVec 16) : Statement (Instr.hins d hx imm) := by
  intro h
  refine readBack_grain (i := coreRow (.hins d hx imm)) ?_ h
  rw [decMajor07_of _ (packU_op ..)]
  simp only [decMajor07, packU_op, packU_d, packU_fn, packU_hx, packU_z, packU_imm, ofBool_bit]
  rfl
theorem beq (a : BitVec 4) (b : BitVec 4) (off : BitVec 15) : Statement (Instr.beq a b off) := by
  intro h
  refine readBack_grain (i := coreRow (.beq a b off)) ?_ h
  rw [decMajor08_of _ (packB_op ..)]
  simp only [decMajor08, packB_op, packB_a, packB_b, packB_cond, packB_off, ofBool_bit]
  rfl
theorem bne (a : BitVec 4) (b : BitVec 4) (off : BitVec 15) : Statement (Instr.bne a b off) := by
  intro h
  refine readBack_grain (i := coreRow (.bne a b off)) ?_ h
  rw [decMajor08_of _ (packB_op ..)]
  simp only [decMajor08, packB_op, packB_a, packB_b, packB_cond, packB_off, ofBool_bit]
  rfl
theorem blt (a : BitVec 4) (b : BitVec 4) (off : BitVec 15) : Statement (Instr.blt a b off) := by
  intro h
  refine readBack_grain (i := coreRow (.blt a b off)) ?_ h
  rw [decMajor08_of _ (packB_op ..)]
  simp only [decMajor08, packB_op, packB_a, packB_b, packB_cond, packB_off, ofBool_bit]
  rfl
theorem bge (a : BitVec 4) (b : BitVec 4) (off : BitVec 15) : Statement (Instr.bge a b off) := by
  intro h
  refine readBack_grain (i := coreRow (.bge a b off)) ?_ h
  rw [decMajor08_of _ (packB_op ..)]
  simp only [decMajor08, packB_op, packB_a, packB_b, packB_cond, packB_off, ofBool_bit]
  rfl
theorem bltu (a : BitVec 4) (b : BitVec 4) (off : BitVec 15) : Statement (Instr.bltu a b off) := by
  intro h
  refine readBack_grain (i := coreRow (.bltu a b off)) ?_ h
  rw [decMajor08_of _ (packB_op ..)]
  simp only [decMajor08, packB_op, packB_a, packB_b, packB_cond, packB_off, ofBool_bit]
  rfl
theorem bgeu (a : BitVec 4) (b : BitVec 4) (off : BitVec 15) : Statement (Instr.bgeu a b off) := by
  intro h
  refine readBack_grain (i := coreRow (.bgeu a b off)) ?_ h
  rw [decMajor08_of _ (packB_op ..)]
  simp only [decMajor08, packB_op, packB_a, packB_b, packB_cond, packB_off, ofBool_bit]
  rfl
theorem jal (d : BitVec 4) (off : BitVec 22) : Statement (Instr.jal d off) := by
  intro h
  refine readBack_grain (i := coreRow (.jal d off)) ?_ h
  rw [decMajor09_of _ (packJ_op ..)]
  simp only [decMajor09, packJ_op, packJ_d, packJ_off, ofBool_bit]
  rfl
theorem jalr (d : BitVec 4) (a : BitVec 4) : Statement (Instr.jalr d a) := by
  intro h
  refine readBack_grain (i := coreRow (.jalr d a)) ?_ h
  rw [decMajor0A_of _ (packR_op ..)]
  simp only [decMajor0A, packR_op, packR_d, packR_a, packR_b, packR_c, packR_fn, ofBool_bit]
  rfl
theorem ret (a : BitVec 4) : Statement (Instr.ret a) := by
  intro h
  refine readBack_grain (i := coreRow (.ret a)) ?_ h
  rw [decMajor0A_of _ (packR_op ..)]
  simp only [decMajor0A, packR_op, packR_d, packR_a, packR_b, packR_c, packR_fn, ofBool_bit]
  rfl
theorem lb (t : BitVec 4) (b : BitVec 4) (dc : Bool) (cls : BitVec 4) (off : BitVec 10) : Statement (Instr.lb t b dc cls off) := by
  intro h
  refine readBack_grain (i := coreRow (.lb t b dc cls off)) ?_ h
  rw [decMajor0B_of _ (packM_op ..)]
  simp only [decMajor0B, packM_op, packM_t, packM_b, packM_dc_bit, packM_dc, packM_cls, packM_fn, packM_off, ofBool_bit]
  rfl
theorem lbu (t : BitVec 4) (b : BitVec 4) (dc : Bool) (cls : BitVec 4) (off : BitVec 10) : Statement (Instr.lbu t b dc cls off) := by
  intro h
  refine readBack_grain (i := coreRow (.lbu t b dc cls off)) ?_ h
  rw [decMajor0B_of _ (packM_op ..)]
  simp only [decMajor0B, packM_op, packM_t, packM_b, packM_dc_bit, packM_dc, packM_cls, packM_fn, packM_off, ofBool_bit]
  rfl
theorem lh (t : BitVec 4) (b : BitVec 4) (dc : Bool) (cls : BitVec 4) (off : BitVec 10) : Statement (Instr.lh t b dc cls off) := by
  intro h
  refine readBack_grain (i := coreRow (.lh t b dc cls off)) ?_ h
  rw [decMajor0B_of _ (packM_op ..)]
  simp only [decMajor0B, packM_op, packM_t, packM_b, packM_dc_bit, packM_dc, packM_cls, packM_fn, packM_off, ofBool_bit]
  rfl
theorem lhu (t : BitVec 4) (b : BitVec 4) (dc : Bool) (cls : BitVec 4) (off : BitVec 10) : Statement (Instr.lhu t b dc cls off) := by
  intro h
  refine readBack_grain (i := coreRow (.lhu t b dc cls off)) ?_ h
  rw [decMajor0B_of _ (packM_op ..)]
  simp only [decMajor0B, packM_op, packM_t, packM_b, packM_dc_bit, packM_dc, packM_cls, packM_fn, packM_off, ofBool_bit]
  rfl
theorem lw (t : BitVec 4) (b : BitVec 4) (dc : Bool) (cls : BitVec 4) (off : BitVec 10) : Statement (Instr.lw t b dc cls off) := by
  intro h
  refine readBack_grain (i := coreRow (.lw t b dc cls off)) ?_ h
  rw [decMajor0B_of _ (packM_op ..)]
  simp only [decMajor0B, packM_op, packM_t, packM_b, packM_dc_bit, packM_dc, packM_cls, packM_fn, packM_off, ofBool_bit]
  rfl
theorem lwu (t : BitVec 4) (b : BitVec 4) (dc : Bool) (cls : BitVec 4) (off : BitVec 10) : Statement (Instr.lwu t b dc cls off) := by
  intro h
  refine readBack_grain (i := coreRow (.lwu t b dc cls off)) ?_ h
  rw [decMajor0B_of _ (packM_op ..)]
  simp only [decMajor0B, packM_op, packM_t, packM_b, packM_dc_bit, packM_dc, packM_cls, packM_fn, packM_off, ofBool_bit]
  rfl
theorem ld (t : BitVec 4) (b : BitVec 4) (dc : Bool) (cls : BitVec 4) (off : BitVec 10) : Statement (Instr.ld t b dc cls off) := by
  intro h
  refine readBack_grain (i := coreRow (.ld t b dc cls off)) ?_ h
  rw [decMajor0B_of _ (packM_op ..)]
  simp only [decMajor0B, packM_op, packM_t, packM_b, packM_dc_bit, packM_dc, packM_cls, packM_fn, packM_off, ofBool_bit]
  rfl
theorem sb (t : BitVec 4) (b : BitVec 4) (dc : Bool) (cls : BitVec 4) (off : BitVec 10) : Statement (Instr.sb t b dc cls off) := by
  intro h
  refine readBack_grain (i := coreRow (.sb t b dc cls off)) ?_ h
  rw [decMajor0C_of _ (packM_op ..)]
  simp only [decMajor0C, packM_op, packM_t, packM_b, packM_dc_bit, packM_dc, packM_cls, packM_fn, packM_off, ofBool_bit]
  rfl
theorem sh (t : BitVec 4) (b : BitVec 4) (dc : Bool) (cls : BitVec 4) (off : BitVec 10) : Statement (Instr.sh t b dc cls off) := by
  intro h
  refine readBack_grain (i := coreRow (.sh t b dc cls off)) ?_ h
  rw [decMajor0C_of _ (packM_op ..)]
  simp only [decMajor0C, packM_op, packM_t, packM_b, packM_dc_bit, packM_dc, packM_cls, packM_fn, packM_off, ofBool_bit]
  rfl
theorem sw (t : BitVec 4) (b : BitVec 4) (dc : Bool) (cls : BitVec 4) (off : BitVec 10) : Statement (Instr.sw t b dc cls off) := by
  intro h
  refine readBack_grain (i := coreRow (.sw t b dc cls off)) ?_ h
  rw [decMajor0C_of _ (packM_op ..)]
  simp only [decMajor0C, packM_op, packM_t, packM_b, packM_dc_bit, packM_dc, packM_cls, packM_fn, packM_off, ofBool_bit]
  rfl
theorem sd (t : BitVec 4) (b : BitVec 4) (dc : Bool) (cls : BitVec 4) (off : BitVec 10) : Statement (Instr.sd t b dc cls off) := by
  intro h
  refine readBack_grain (i := coreRow (.sd t b dc cls off)) ?_ h
  rw [decMajor0C_of _ (packM_op ..)]
  simp only [decMajor0C, packM_op, packM_t, packM_b, packM_dc_bit, packM_dc, packM_cls, packM_fn, packM_off, ofBool_bit]
  rfl
theorem pref (l : BitVec 4) (b : BitVec 4) (dc : Bool) (cls : BitVec 4) (off : BitVec 10) : Statement (Instr.pref l b dc cls off) := by
  intro h
  refine readBack_grain (i := coreRow (.pref l b dc cls off)) ?_ h
  rw [decMajor0D_of _ (packM_op ..)]
  simp only [decMajor0D, packM_op, packM_t, packM_b, packM_dc_bit, packM_dc, packM_cls, packM_fn, packM_off, ofBool_bit]
  rfl
theorem fadd (d : BitVec 4) (a : BitVec 4) (b : BitVec 4) : Statement (Instr.fadd d a b) := by
  intro h
  refine readBack_grain (i := coreRow (.fadd d a b)) ?_ h
  rw [decMajor0E_of _ (packR_op ..)]
  simp only [decMajor0E, packR_op, packR_d, packR_a, packR_b, packR_c, packR_fn, ofBool_bit]
  rfl
theorem fsub (d : BitVec 4) (a : BitVec 4) (b : BitVec 4) : Statement (Instr.fsub d a b) := by
  intro h
  refine readBack_grain (i := coreRow (.fsub d a b)) ?_ h
  rw [decMajor0E_of _ (packR_op ..)]
  simp only [decMajor0E, packR_op, packR_d, packR_a, packR_b, packR_c, packR_fn, ofBool_bit]
  rfl
theorem fmul (d : BitVec 4) (a : BitVec 4) (b : BitVec 4) : Statement (Instr.fmul d a b) := by
  intro h
  refine readBack_grain (i := coreRow (.fmul d a b)) ?_ h
  rw [decMajor0E_of _ (packR_op ..)]
  simp only [decMajor0E, packR_op, packR_d, packR_a, packR_b, packR_c, packR_fn, ofBool_bit]
  rfl
theorem fdiv (d : BitVec 4) (a : BitVec 4) (b : BitVec 4) : Statement (Instr.fdiv d a b) := by
  intro h
  refine readBack_grain (i := coreRow (.fdiv d a b)) ?_ h
  rw [decMajor0E_of _ (packR_op ..)]
  simp only [decMajor0E, packR_op, packR_d, packR_a, packR_b, packR_c, packR_fn, ofBool_bit]
  rfl
theorem fsqrt (d : BitVec 4) (a : BitVec 4) : Statement (Instr.fsqrt d a) := by
  intro h
  refine readBack_grain (i := coreRow (.fsqrt d a)) ?_ h
  rw [decMajor0E_of _ (packR_op ..)]
  simp only [decMajor0E, packR_op, packR_d, packR_a, packR_b, packR_c, packR_fn, ofBool_bit]
  rfl
theorem fma (d : BitVec 4) (a : BitVec 4) (b : BitVec 4) (c : BitVec 4) : Statement (Instr.fma d a b c) := by
  intro h
  refine readBack_grain (i := coreRow (.fma d a b c)) ?_ h
  rw [decMajor0E_of _ (packR_op ..)]
  simp only [decMajor0E, packR_op, packR_d, packR_a, packR_b, packR_c, packR_fn, ofBool_bit]
  rfl
theorem fmin (d : BitVec 4) (a : BitVec 4) (b : BitVec 4) : Statement (Instr.fmin d a b) := by
  intro h
  refine readBack_grain (i := coreRow (.fmin d a b)) ?_ h
  rw [decMajor0E_of _ (packR_op ..)]
  simp only [decMajor0E, packR_op, packR_d, packR_a, packR_b, packR_c, packR_fn, ofBool_bit]
  rfl
theorem fmax (d : BitVec 4) (a : BitVec 4) (b : BitVec 4) : Statement (Instr.fmax d a b) := by
  intro h
  refine readBack_grain (i := coreRow (.fmax d a b)) ?_ h
  rw [decMajor0E_of _ (packR_op ..)]
  simp only [decMajor0E, packR_op, packR_d, packR_a, packR_b, packR_c, packR_fn, ofBool_bit]
  rfl
theorem fsgnj (d : BitVec 4) (a : BitVec 4) (b : BitVec 4) (m : BitVec 4) : Statement (Instr.fsgnj d a b m) := by
  intro h
  refine readBack_grain (i := coreRow (.fsgnj d a b m)) ?_ h
  rw [decMajor0E_of _ (packR_op ..)]
  simp only [decMajor0E, packR_op, packR_d, packR_a, packR_b, packR_c, packR_fn, ofBool_bit]
  rfl
theorem feq (d : BitVec 4) (a : BitVec 4) (b : BitVec 4) : Statement (Instr.feq d a b) := by
  intro h
  refine readBack_grain (i := coreRow (.feq d a b)) ?_ h
  rw [decMajor0E_of _ (packR_op ..)]
  simp only [decMajor0E, packR_op, packR_d, packR_a, packR_b, packR_c, packR_fn, ofBool_bit]
  rfl
theorem flt (d : BitVec 4) (a : BitVec 4) (b : BitVec 4) : Statement (Instr.flt d a b) := by
  intro h
  refine readBack_grain (i := coreRow (.flt d a b)) ?_ h
  rw [decMajor0E_of _ (packR_op ..)]
  simp only [decMajor0E, packR_op, packR_d, packR_a, packR_b, packR_c, packR_fn, ofBool_bit]
  rfl
theorem fle (d : BitVec 4) (a : BitVec 4) (b : BitVec 4) : Statement (Instr.fle d a b) := by
  intro h
  refine readBack_grain (i := coreRow (.fle d a b)) ?_ h
  rw [decMajor0E_of _ (packR_op ..)]
  simp only [decMajor0E, packR_op, packR_d, packR_a, packR_b, packR_c, packR_fn, ofBool_bit]
  rfl
theorem cvtf (d : BitVec 4) (a : BitVec 4) (u : BitVec 4) : Statement (Instr.cvtf d a u) := by
  intro h
  refine readBack_grain (i := coreRow (.cvtf d a u)) ?_ h
  rw [decMajor0F_of _ (packR_op ..)]
  simp only [decMajor0F, packR_op, packR_d, packR_a, packR_b, packR_c, packR_fn, ofBool_bit]
  rfl
theorem cvti (d : BitVec 4) (a : BitVec 4) : Statement (Instr.cvti d a) := by
  intro h
  refine readBack_grain (i := coreRow (.cvti d a)) ?_ h
  rw [decMajor0F_of _ (packR_op ..)]
  simp only [decMajor0F, packR_op, packR_d, packR_a, packR_b, packR_c, packR_fn, ofBool_bit]
  rfl
theorem narrow (d : BitVec 4) (a : BitVec 4) (b : BitVec 4) : Statement (Instr.narrow d a b) := by
  intro h
  refine readBack_grain (i := coreRow (.narrow d a b)) ?_ h
  rw [decMajor0F_of _ (packR_op ..)]
  simp only [decMajor0F, packR_op, packR_d, packR_a, packR_b, packR_c, packR_fn, ofBool_bit]
  rfl
theorem widen (d : BitVec 4) (a : BitVec 4) (b : BitVec 4) : Statement (Instr.widen d a b) := by
  intro h
  refine readBack_grain (i := coreRow (.widen d a b)) ?_ h
  rw [decMajor0F_of _ (packR_op ..)]
  simp only [decMajor0F, packR_op, packR_d, packR_a, packR_b, packR_c, packR_fn, ofBool_bit]
  rfl
theorem pack (d : BitVec 4) (a : BitVec 4) (b : BitVec 4) (c : BitVec 4) : Statement (Instr.pack d a b c) := by
  intro h
  refine readBack_grain (i := coreRow (.pack d a b c)) ?_ h
  rw [decMajor0F_of _ (packR_op ..)]
  simp only [decMajor0F, packR_op, packR_d, packR_a, packR_b, packR_c, packR_fn, ofBool_bit]
  rfl
theorem unpack (d : BitVec 4) (a : BitVec 4) (b : BitVec 4) : Statement (Instr.unpack d a b) := by
  intro h
  refine readBack_grain (i := coreRow (.unpack d a b)) ?_ h
  rw [decMajor0F_of _ (packR_op ..)]
  simp only [decMajor0F, packR_op, packR_d, packR_a, packR_b, packR_c, packR_fn, ofBool_bit]
  rfl
theorem mkscl (d : BitVec 4) (a : BitVec 4) : Statement (Instr.mkscl d a) := by
  intro h
  refine readBack_grain (i := coreRow (.mkscl d a)) ?_ h
  rw [decMajor0F_of _ (packR_op ..)]
  simp only [decMajor0F, packR_op, packR_d, packR_a, packR_b, packR_c, packR_fn, ofBool_bit]
  rfl
theorem isect (d : BitVec 4) (a : BitVec 4) (b : BitVec 4) (w : BitVec 4) : Statement (Instr.isect d a b w) := by
  intro h
  refine readBack_grain (i := coreRow (.isect d a b w)) ?_ h
  rw [decMajor10_of _ (packR_op ..)]
  simp only [decMajor10, packR_op, packR_d, packR_a, packR_b, packR_c, packR_fn, ofBool_bit]
  rfl
theorem fmt (p : BitVec 12) : Statement (Instr.fmt p) := by
  intro h
  refine readBack_grain (i := coreRow (.fmt p)) ?_ h
  rw [decMajor11_of _ (packP_op ..)]
  simp only [decMajor11, packP_op, packP_z, packP_p, ofBool_bit]
  rfl
theorem nop : Statement (Instr.nop) := by
  intro h
  refine readBack_grain (i := coreRow (.nop)) ?_ h
  rw [decMajor12_of _ (packR_op ..)]
  simp only [decMajor12, packR_op, packR_d, packR_a, packR_b, packR_c, packR_fn, ofBool_bit]
  rfl
theorem scall (a : BitVec 4) : Statement (Instr.scall a) := by
  intro h
  refine readBack_grain (i := coreRow (.scall a)) ?_ h
  rw [decMajor12_of _ (packR_op ..)]
  simp only [decMajor12, packR_op, packR_d, packR_a, packR_b, packR_c, packR_fn, ofBool_bit]
  rfl
theorem sret : Statement (Instr.sret) := by
  intro h
  refine readBack_grain (i := coreRow (.sret)) ?_ h
  rw [decMajor12_of _ (packR_op ..)]
  simp only [decMajor12, packR_op, packR_d, packR_a, packR_b, packR_c, packR_fn, ofBool_bit]
  rfl
theorem trap (a : BitVec 4) (b : BitVec 4) : Statement (Instr.trap a b) := by
  intro h
  refine readBack_grain (i := coreRow (.trap a b)) ?_ h
  rw [decMajor12_of _ (packR_op ..)]
  simp only [decMajor12, packR_op, packR_d, packR_a, packR_b, packR_c, packR_fn, ofBool_bit]
  rfl
theorem idle : Statement (Instr.idle) := by
  intro h
  refine readBack_grain (i := coreRow (.idle)) ?_ h
  rw [decMajor12_of _ (packR_op ..)]
  simp only [decMajor12, packR_op, packR_d, packR_a, packR_b, packR_c, packR_fn, ofBool_bit]
  rfl
theorem csrr (d : BitVec 4) (n : BitVec 12) : Statement (Instr.csrr d n) := by
  intro h
  refine readBack_grain (i := coreRow (.csrr d n)) ?_ h
  rw [decMajor13_of _ (packI_op ..)]
  simp only [decMajor13, packI_op, packI_d, packI_a, packI_fn, packI_imm, packI_high_6, packI_low_6, packI_high_12, packI_low_12, ofBool_bit]
  rfl
theorem csrw (d : BitVec 4) (a : BitVec 4) (n : BitVec 12) : Statement (Instr.csrw d a n) := by
  intro h
  refine readBack_grain (i := coreRow (.csrw d a n)) ?_ h
  rw [decMajor13_of _ (packI_op ..)]
  simp only [decMajor13, packI_op, packI_d, packI_a, packI_fn, packI_imm, packI_high_6, packI_low_6, packI_high_12, packI_low_12, ofBool_bit]
  rfl
theorem cstart (d : BitVec 4) (a : BitVec 4) (b : BitVec 4) (c : BitVec 4) : Statement (Instr.cstart d a b c) := by
  intro h
  refine readBack_grain (i := coreRow (.cstart d a b c)) ?_ h
  rw [decMajor14_of _ (packR_op ..)]
  simp only [decMajor14, packR_op, packR_d, packR_a, packR_b, packR_c, packR_fn, ofBool_bit]
  rfl
theorem cstop (d : BitVec 4) (a : BitVec 4) : Statement (Instr.cstop d a) := by
  intro h
  refine readBack_grain (i := coreRow (.cstop d a)) ?_ h
  rw [decMajor14_of _ (packR_op ..)]
  simp only [decMajor14, packR_op, packR_d, packR_a, packR_b, packR_c, packR_fn, ofBool_bit]
  rfl
theorem creap (d : BitVec 4) (a : BitVec 4) : Statement (Instr.creap d a) := by
  intro h
  refine readBack_grain (i := coreRow (.creap d a)) ?_ h
  rw [decMajor14_of _ (packR_op ..)]
  simp only [decMajor14, packR_op, packR_d, packR_a, packR_b, packR_c, packR_fn, ofBool_bit]
  rfl
theorem spawn (d : BitVec 4) (a : BitVec 4) (b : BitVec 4) : Statement (Instr.spawn d a b) := by
  intro h
  refine readBack_grain (i := coreRow (.spawn d a b)) ?_ h
  rw [decMajor15_of _ (packR_op ..)]
  simp only [decMajor15, packR_op, packR_d, packR_a, packR_b, packR_c, packR_fn, ofBool_bit]
  rfl
theorem rfork (d : BitVec 4) (a : BitVec 4) (b : BitVec 4) (c : BitVec 4) : Statement (Instr.rfork d a b c) := by
  intro h
  refine readBack_grain (i := coreRow (.rfork d a b c)) ?_ h
  rw [decMajor15_of _ (packR_op ..)]
  simp only [decMajor15, packR_op, packR_d, packR_a, packR_b, packR_c, packR_fn, ofBool_bit]
  rfl
theorem join (a : BitVec 4) : Statement (Instr.join a) := by
  intro h
  refine readBack_grain (i := coreRow (.join a)) ?_ h
  rw [decMajor15_of _ (packR_op ..)]
  simp only [decMajor15, packR_op, packR_d, packR_a, packR_b, packR_c, packR_fn, ofBool_bit]
  rfl
theorem jwait (a : BitVec 4) : Statement (Instr.jwait a) := by
  intro h
  refine readBack_grain (i := coreRow (.jwait a)) ?_ h
  rw [decMajor15_of _ (packR_op ..)]
  simp only [decMajor15, packR_op, packR_d, packR_a, packR_b, packR_c, packR_fn, ofBool_bit]
  rfl
theorem launch (d : BitVec 4) (a : BitVec 4) : Statement (Instr.launch d a) := by
  intro h
  refine readBack_grain (i := coreRow (.launch d a)) ?_ h
  rw [decMajor15_of _ (packR_op ..)]
  simp only [decMajor15, packR_op, packR_d, packR_a, packR_b, packR_c, packR_fn, ofBool_bit]
  rfl
theorem lr (d : BitVec 4) (a : BitVec 4) (aq : Bool) (rl : Bool) (dc : Bool) (cls : BitVec 4) : Statement (Instr.lr d a aq rl dc cls) := by
  intro h
  refine readBack_grain (i := coreRow (.lr d a aq rl dc cls)) ?_ h
  rw [decMajor16_of _ (packA_op ..)]
  simp only [decMajor16, packA_op, packA_d, packA_a, packA_b, packA_fn, packA_aq_bit, packA_aq, packA_rl_bit, packA_rl, packA_dc_bit, packA_dc, packA_cls, packA_z, ofBool_bit]
  rfl
theorem sc (d : BitVec 4) (a : BitVec 4) (b : BitVec 4) (aq : Bool) (rl : Bool) (dc : Bool) (cls : BitVec 4) : Statement (Instr.sc d a b aq rl dc cls) := by
  intro h
  refine readBack_grain (i := coreRow (.sc d a b aq rl dc cls)) ?_ h
  rw [decMajor16_of _ (packA_op ..)]
  simp only [decMajor16, packA_op, packA_d, packA_a, packA_b, packA_fn, packA_aq_bit, packA_aq, packA_rl_bit, packA_rl, packA_dc_bit, packA_dc, packA_cls, packA_z, ofBool_bit]
  rfl
theorem fxswp (d : BitVec 4) (a : BitVec 4) (b : BitVec 4) (aq : Bool) (rl : Bool) (dc : Bool) (cls : BitVec 4) : Statement (Instr.fxswp d a b aq rl dc cls) := by
  intro h
  refine readBack_grain (i := coreRow (.fxswp d a b aq rl dc cls)) ?_ h
  rw [decMajor16_of _ (packA_op ..)]
  simp only [decMajor16, packA_op, packA_d, packA_a, packA_b, packA_fn, packA_aq_bit, packA_aq, packA_rl_bit, packA_rl, packA_dc_bit, packA_dc, packA_cls, packA_z, ofBool_bit]
  rfl
theorem fxadd (d : BitVec 4) (a : BitVec 4) (b : BitVec 4) (aq : Bool) (rl : Bool) (dc : Bool) (cls : BitVec 4) : Statement (Instr.fxadd d a b aq rl dc cls) := by
  intro h
  refine readBack_grain (i := coreRow (.fxadd d a b aq rl dc cls)) ?_ h
  rw [decMajor16_of _ (packA_op ..)]
  simp only [decMajor16, packA_op, packA_d, packA_a, packA_b, packA_fn, packA_aq_bit, packA_aq, packA_rl_bit, packA_rl, packA_dc_bit, packA_dc, packA_cls, packA_z, ofBool_bit]
  rfl
theorem fxand (d : BitVec 4) (a : BitVec 4) (b : BitVec 4) (aq : Bool) (rl : Bool) (dc : Bool) (cls : BitVec 4) : Statement (Instr.fxand d a b aq rl dc cls) := by
  intro h
  refine readBack_grain (i := coreRow (.fxand d a b aq rl dc cls)) ?_ h
  rw [decMajor16_of _ (packA_op ..)]
  simp only [decMajor16, packA_op, packA_d, packA_a, packA_b, packA_fn, packA_aq_bit, packA_aq, packA_rl_bit, packA_rl, packA_dc_bit, packA_dc, packA_cls, packA_z, ofBool_bit]
  rfl
theorem fxor (d : BitVec 4) (a : BitVec 4) (b : BitVec 4) (aq : Bool) (rl : Bool) (dc : Bool) (cls : BitVec 4) : Statement (Instr.fxor d a b aq rl dc cls) := by
  intro h
  refine readBack_grain (i := coreRow (.fxor d a b aq rl dc cls)) ?_ h
  rw [decMajor16_of _ (packA_op ..)]
  simp only [decMajor16, packA_op, packA_d, packA_a, packA_b, packA_fn, packA_aq_bit, packA_aq, packA_rl_bit, packA_rl, packA_dc_bit, packA_dc, packA_cls, packA_z, ofBool_bit]
  rfl
theorem fxxor (d : BitVec 4) (a : BitVec 4) (b : BitVec 4) (aq : Bool) (rl : Bool) (dc : Bool) (cls : BitVec 4) : Statement (Instr.fxxor d a b aq rl dc cls) := by
  intro h
  refine readBack_grain (i := coreRow (.fxxor d a b aq rl dc cls)) ?_ h
  rw [decMajor16_of _ (packA_op ..)]
  simp only [decMajor16, packA_op, packA_d, packA_a, packA_b, packA_fn, packA_aq_bit, packA_aq, packA_rl_bit, packA_rl, packA_dc_bit, packA_dc, packA_cls, packA_z, ofBool_bit]
  rfl
theorem fxmin (d : BitVec 4) (a : BitVec 4) (b : BitVec 4) (aq : Bool) (rl : Bool) (dc : Bool) (cls : BitVec 4) : Statement (Instr.fxmin d a b aq rl dc cls) := by
  intro h
  refine readBack_grain (i := coreRow (.fxmin d a b aq rl dc cls)) ?_ h
  rw [decMajor16_of _ (packA_op ..)]
  simp only [decMajor16, packA_op, packA_d, packA_a, packA_b, packA_fn, packA_aq_bit, packA_aq, packA_rl_bit, packA_rl, packA_dc_bit, packA_dc, packA_cls, packA_z, ofBool_bit]
  rfl
theorem fxmax (d : BitVec 4) (a : BitVec 4) (b : BitVec 4) (aq : Bool) (rl : Bool) (dc : Bool) (cls : BitVec 4) : Statement (Instr.fxmax d a b aq rl dc cls) := by
  intro h
  refine readBack_grain (i := coreRow (.fxmax d a b aq rl dc cls)) ?_ h
  rw [decMajor16_of _ (packA_op ..)]
  simp only [decMajor16, packA_op, packA_d, packA_a, packA_b, packA_fn, packA_aq_bit, packA_aq, packA_rl_bit, packA_rl, packA_dc_bit, packA_dc, packA_cls, packA_z, ofBool_bit]
  rfl
theorem fxminu (d : BitVec 4) (a : BitVec 4) (b : BitVec 4) (aq : Bool) (rl : Bool) (dc : Bool) (cls : BitVec 4) : Statement (Instr.fxminu d a b aq rl dc cls) := by
  intro h
  refine readBack_grain (i := coreRow (.fxminu d a b aq rl dc cls)) ?_ h
  rw [decMajor16_of _ (packA_op ..)]
  simp only [decMajor16, packA_op, packA_d, packA_a, packA_b, packA_fn, packA_aq_bit, packA_aq, packA_rl_bit, packA_rl, packA_dc_bit, packA_dc, packA_cls, packA_z, ofBool_bit]
  rfl
theorem fxmaxu (d : BitVec 4) (a : BitVec 4) (b : BitVec 4) (aq : Bool) (rl : Bool) (dc : Bool) (cls : BitVec 4) : Statement (Instr.fxmaxu d a b aq rl dc cls) := by
  intro h
  refine readBack_grain (i := coreRow (.fxmaxu d a b aq rl dc cls)) ?_ h
  rw [decMajor16_of _ (packA_op ..)]
  simp only [decMajor16, packA_op, packA_d, packA_a, packA_b, packA_fn, packA_aq_bit, packA_aq, packA_rl_bit, packA_rl, packA_dc_bit, packA_dc, packA_cls, packA_z, ofBool_bit]
  rfl
theorem fxcas (d : BitVec 4) (a : BitVec 4) (b : BitVec 4) (aq : Bool) (rl : Bool) (dc : Bool) (cls : BitVec 4) : Statement (Instr.fxcas d a b aq rl dc cls) := by
  intro h
  refine readBack_grain (i := coreRow (.fxcas d a b aq rl dc cls)) ?_ h
  rw [decMajor16_of _ (packA_op ..)]
  simp only [decMajor16, packA_op, packA_d, packA_a, packA_b, packA_fn, packA_aq_bit, packA_aq, packA_rl_bit, packA_rl, packA_dc_bit, packA_dc, packA_cls, packA_z, ofBool_bit]
  rfl
theorem amofadd (d : BitVec 4) (a : BitVec 4) (b : BitVec 4) (aq : Bool) (rl : Bool) (dc : Bool) (cls : BitVec 4) : Statement (Instr.amofadd d a b aq rl dc cls) := by
  intro h
  refine readBack_grain (i := coreRow (.amofadd d a b aq rl dc cls)) ?_ h
  rw [decMajor16_of _ (packA_op ..)]
  simp only [decMajor16, packA_op, packA_d, packA_a, packA_b, packA_fn, packA_aq_bit, packA_aq, packA_rl_bit, packA_rl, packA_dc_bit, packA_dc, packA_cls, packA_z, ofBool_bit]
  rfl
theorem wrs : Statement (Instr.wrs) := by
  intro h
  refine readBack_grain (i := coreRow (.wrs)) ?_ h
  rw [decMajor16_of _ (packA_op ..)]
  simp only [decMajor16, packA_op, packA_d, packA_a, packA_b, packA_fn, packA_aq_bit, packA_aq, packA_rl_bit, packA_rl, packA_dc_bit, packA_dc, packA_cls, packA_z, ofBool_bit]
  rfl
theorem ldfe (t : BitVec 4) (b : BitVec 4) (dc : Bool) (cls : BitVec 4) (off : BitVec 10) : Statement (Instr.ldfe t b dc cls off) := by
  intro h
  refine readBack_grain (i := coreRow (.ldfe t b dc cls off)) ?_ h
  rw [decMajor17_of _ (packM_op ..)]
  simp only [decMajor17, packM_op, packM_t, packM_b, packM_dc_bit, packM_dc, packM_cls, packM_fn, packM_off, ofBool_bit]
  rfl
theorem stfe (t : BitVec 4) (b : BitVec 4) (dc : Bool) (cls : BitVec 4) (off : BitVec 10) : Statement (Instr.stfe t b dc cls off) := by
  intro h
  refine readBack_grain (i := coreRow (.stfe t b dc cls off)) ?_ h
  rw [decMajor17_of _ (packM_op ..)]
  simp only [decMajor17, packM_op, packM_t, packM_b, packM_dc_bit, packM_dc, packM_cls, packM_fn, packM_off, ofBool_bit]
  rfl
theorem ldff (t : BitVec 4) (b : BitVec 4) (dc : Bool) (cls : BitVec 4) (off : BitVec 10) : Statement (Instr.ldff t b dc cls off) := by
  intro h
  refine readBack_grain (i := coreRow (.ldff t b dc cls off)) ?_ h
  rw [decMajor17_of _ (packM_op ..)]
  simp only [decMajor17, packM_op, packM_t, packM_b, packM_dc_bit, packM_dc, packM_cls, packM_fn, packM_off, ofBool_bit]
  rfl
theorem feset (l : BitVec 4) (b : BitVec 4) (dc : Bool) (cls : BitVec 4) (off : BitVec 10) : Statement (Instr.feset l b dc cls off) := by
  intro h
  refine readBack_grain (i := coreRow (.feset l b dc cls off)) ?_ h
  rw [decMajor17_of _ (packM_op ..)]
  simp only [decMajor17, packM_op, packM_t, packM_b, packM_dc_bit, packM_dc, packM_cls, packM_fn, packM_off, ofBool_bit]
  rfl
theorem fence (scope : BitVec 3) (kind : BitVec 4) (mask : BitVec 16) : Statement (Instr.fence scope kind mask) := by
  intro h
  refine readBack_grain (i := coreRow (.fence scope kind mask)) ?_ h
  rw [decMajor18_of _ (packF_op ..)]
  simp only [decMajor18, packF_op, packF_scope, packF_kind, packF_z, packF_mask, ofBool_bit]
  rfl
theorem gadd (a : BitVec 4) (b : BitVec 4) (t : BitVec 4) (rl : Bool) (dc : Bool) (cls : BitVec 4) : Statement (Instr.gadd a b t rl dc cls) := by
  intro h
  refine readBack_grain (i := coreRow (.gadd a b t rl dc cls)) ?_ h
  rw [decMajor19_of _ (packA_op ..)]
  simp only [decMajor19, packA_op, packA_d, packA_a, packA_b, packA_fn, packA_aq_bit, packA_aq, packA_rl_bit, packA_rl, packA_dc_bit, packA_dc, packA_cls, packA_z, ofBool_bit]
  rfl
theorem barc (d : BitVec 4) (a : BitVec 4) : Statement (Instr.barc d a) := by
  intro h
  refine readBack_grain (i := coreRow (.barc d a)) ?_ h
  rw [decMajor1A_of _ (packR_op ..)]
  simp only [decMajor1A, packR_op, packR_d, packR_a, packR_b, packR_c, packR_fn, ofBool_bit]
  rfl
theorem barw (d : BitVec 4) (a : BitVec 4) : Statement (Instr.barw d a) := by
  intro h
  refine readBack_grain (i := coreRow (.barw d a)) ?_ h
  rw [decMajor1A_of _ (packR_op ..)]
  simp only [decMajor1A, packR_op, packR_d, packR_a, packR_b, packR_c, packR_fn, ofBool_bit]
  rfl
theorem migr (d : BitVec 4) (a : BitVec 4) : Statement (Instr.migr d a) := by
  intro h
  refine readBack_grain (i := coreRow (.migr d a)) ?_ h
  rw [decMajor1A_of _ (packR_op ..)]
  simp only [decMajor1A, packR_op, packR_d, packR_a, packR_b, packR_c, packR_fn, ofBool_bit]
  rfl
theorem bopen (d : BitVec 4) (a : BitVec 4) (b : BitVec 4) (c : BitVec 4) : Statement (Instr.bopen d a b c) := by
  intro h
  refine readBack_grain (i := coreRow (.bopen d a b c)) ?_ h
  rw [decMajor1B_of _ (packR_op ..)]
  simp only [decMajor1B, packR_op, packR_d, packR_a, packR_b, packR_c, packR_fn, ofBool_bit]
  rfl
theorem bvalid (d : BitVec 4) (a : BitVec 4) (b : BitVec 4) : Statement (Instr.bvalid d a b) := by
  intro h
  refine readBack_grain (i := coreRow (.bvalid d a b)) ?_ h
  rw [decMajor1B_of _ (packR_op ..)]
  simp only [decMajor1B, packR_op, packR_d, packR_a, packR_b, packR_c, packR_fn, ofBool_bit]
  rfl
theorem sealBolt (d : BitVec 4) (a : BitVec 4) : Statement (Instr.sealBolt d a) := by
  intro h
  refine readBack_grain (i := coreRow (.sealBolt d a)) ?_ h
  rw [decMajor1B_of _ (packR_op ..)]
  simp only [decMajor1B, packR_op, packR_d, packR_a, packR_b, packR_c, packR_fn, ofBool_bit]
  rfl
theorem bqueryStatus (d : BitVec 4) (a : BitVec 4) : Statement (Instr.bqueryStatus d a) := by
  intro h
  refine readBack_grain (i := coreRow (.bqueryStatus d a)) ?_ h
  rw [decMajor1B_of _ (packR_op ..)]
  simp only [decMajor1B, packR_op, packR_d, packR_a, packR_b, packR_c, packR_fn, ofBool_bit]
  rfl
theorem bqueryMaskLow (d : BitVec 4) (a : BitVec 4) : Statement (Instr.bqueryMaskLow d a) := by
  intro h
  refine readBack_grain (i := coreRow (.bqueryMaskLow d a)) ?_ h
  rw [decMajor1B_of _ (packR_op ..)]
  simp only [decMajor1B, packR_op, packR_d, packR_a, packR_b, packR_c, packR_fn, ofBool_bit]
  rfl
theorem bqueryMaskHigh (d : BitVec 4) (a : BitVec 4) : Statement (Instr.bqueryMaskHigh d a) := by
  intro h
  refine readBack_grain (i := coreRow (.bqueryMaskHigh d a)) ?_ h
  rw [decMajor1B_of _ (packR_op ..)]
  simp only [decMajor1B, packR_op, packR_d, packR_a, packR_b, packR_c, packR_fn, ofBool_bit]
  rfl
theorem babort (d : BitVec 4) (a : BitVec 4) : Statement (Instr.babort d a) := by
  intro h
  refine readBack_grain (i := coreRow (.babort d a)) ?_ h
  rw [decMajor1B_of _ (packR_op ..)]
  simp only [decMajor1B, packR_op, packR_d, packR_a, packR_b, packR_c, packR_fn, ofBool_bit]
  rfl
theorem bwait (d : BitVec 4) (a : BitVec 4) : Statement (Instr.bwait d a) := by
  intro h
  refine readBack_grain (i := coreRow (.bwait d a)) ?_ h
  rw [decMajor1B_of _ (packR_op ..)]
  simp only [decMajor1B, packR_op, packR_d, packR_a, packR_b, packR_c, packR_fn, ofBool_bit]
  rfl
theorem btime (d : BitVec 4) (a : BitVec 4) (b : BitVec 4) : Statement (Instr.btime d a b) := by
  intro h
  refine readBack_grain (i := coreRow (.btime d a b)) ?_ h
  rw [decMajor1B_of _ (packR_op ..)]
  simp only [decMajor1B, packR_op, packR_d, packR_a, packR_b, packR_c, packR_fn, ofBool_bit]
  rfl
theorem cflush (d : BitVec 4) (a : BitVec 4) (b : BitVec 4) : Statement (Instr.cflush d a b) := by
  intro h
  refine readBack_grain (i := coreRow (.cflush d a b)) ?_ h
  rw [decMajor1C_of _ (packR_op ..)]
  simp only [decMajor1C, packR_op, packR_d, packR_a, packR_b, packR_c, packR_fn, ofBool_bit]
  rfl
theorem cinv (d : BitVec 4) (a : BitVec 4) (b : BitVec 4) : Statement (Instr.cinv d a b) := by
  intro h
  refine readBack_grain (i := coreRow (.cinv d a b)) ?_ h
  rw [decMajor1C_of _ (packR_op ..)]
  simp only [decMajor1C, packR_op, packR_d, packR_a, packR_b, packR_c, packR_fn, ofBool_bit]
  rfl
theorem cdisc (d : BitVec 4) (a : BitVec 4) (b : BitVec 4) : Statement (Instr.cdisc d a b) := by
  intro h
  refine readBack_grain (i := coreRow (.cdisc d a b)) ?_ h
  rw [decMajor1C_of _ (packR_op ..)]
  simp only [decMajor1C, packR_op, packR_d, packR_a, packR_b, packR_c, packR_fn, ofBool_bit]
  rfl
theorem tlbinv (d : BitVec 4) (a : BitVec 4) (b : BitVec 4) : Statement (Instr.tlbinv d a b) := by
  intro h
  refine readBack_grain (i := coreRow (.tlbinv d a b)) ?_ h
  rw [decMajor1C_of _ (packR_op ..)]
  simp only [decMajor1C, packR_op, packR_d, packR_a, packR_b, packR_c, packR_fn, ofBool_bit]
  rfl
theorem atrans (d : BitVec 4) (a : BitVec 4) (b : BitVec 4) : Statement (Instr.atrans d a b) := by
  intro h
  refine readBack_grain (i := coreRow (.atrans d a b)) ?_ h
  rw [decMajor1C_of _ (packR_op ..)]
  simp only [decMajor1C, packR_op, packR_d, packR_a, packR_b, packR_c, packR_fn, ofBool_bit]
  rfl
theorem ejob (d : BitVec 4) (a : BitVec 4) : Statement (Instr.ejob d a) := by
  intro h
  refine readBack_grain (i := coreRow (.ejob d a)) ?_ h
  rw [decMajor1D_of _ (packR_op ..)]
  simp only [decMajor1D, packR_op, packR_d, packR_a, packR_b, packR_c, packR_fn, ofBool_bit]
  rfl
theorem ewaitWait (d : BitVec 4) (a : BitVec 4) : Statement (Instr.ewaitWait d a) := by
  intro h
  refine readBack_grain (i := coreRow (.ewaitWait d a)) ?_ h
  rw [decMajor1D_of _ (packR_op ..)]
  simp only [decMajor1D, packR_op, packR_d, packR_a, packR_b, packR_c, packR_fn, ofBool_bit]
  rfl
theorem ewaitPoll (d : BitVec 4) (a : BitVec 4) : Statement (Instr.ewaitPoll d a) := by
  intro h
  refine readBack_grain (i := coreRow (.ewaitPoll d a)) ?_ h
  rw [decMajor1D_of _ (packR_op ..)]
  simp only [decMajor1D, packR_op, packR_d, packR_a, packR_b, packR_c, packR_fn, ofBool_bit]
  rfl
theorem ecpy (d : BitVec 4) (a : BitVec 4) (b : BitVec 4) (c : BitVec 4) : Statement (Instr.ecpy d a b c) := by
  intro h
  refine readBack_grain (i := coreRow (.ecpy d a b c)) ?_ h
  rw [decMajor1D_of _ (packR_op ..)]
  simp only [decMajor1D, packR_op, packR_d, packR_a, packR_b, packR_c, packR_fn, ofBool_bit]
  rfl
theorem gleanOpen (d : BitVec 4) (a : BitVec 4) (b : BitVec 4) : Statement (Instr.gleanOpen d a b) := by
  intro h
  refine readBack_grain (i := coreRow (.gleanOpen d a b)) ?_ h
  rw [decMajor1D_of _ (packR_op ..)]
  simp only [decMajor1D, packR_op, packR_d, packR_a, packR_b, packR_c, packR_fn, ofBool_bit]
  rfl
theorem gleanClose (d : BitVec 4) (a : BitVec 4) (b : BitVec 4) : Statement (Instr.gleanClose d a b) := by
  intro h
  refine readBack_grain (i := coreRow (.gleanClose d a b)) ?_ h
  rw [decMajor1D_of _ (packR_op ..)]
  simp only [decMajor1D, packR_op, packR_d, packR_a, packR_b, packR_c, packR_fn, ofBool_bit]
  rfl
theorem gleanFlip (d : BitVec 4) (a : BitVec 4) (b : BitVec 4) : Statement (Instr.gleanFlip d a b) := by
  intro h
  refine readBack_grain (i := coreRow (.gleanFlip d a b)) ?_ h
  rw [decMajor1D_of _ (packR_op ..)]
  simp only [decMajor1D, packR_op, packR_d, packR_a, packR_b, packR_c, packR_fn, ofBool_bit]
  rfl
theorem gleanQuery (d : BitVec 4) (a : BitVec 4) (b : BitVec 4) : Statement (Instr.gleanQuery d a b) := by
  intro h
  refine readBack_grain (i := coreRow (.gleanQuery d a b)) ?_ h
  rw [decMajor1D_of _ (packR_op ..)]
  simp only [decMajor1D, packR_op, packR_d, packR_a, packR_b, packR_c, packR_fn, ofBool_bit]
  rfl
theorem tgsub (d : BitVec 4) (a : BitVec 4) (b : BitVec 4) (c : BitVec 4) : Statement (Instr.tgsub d a b c) := by
  intro h
  refine readBack_grain (i := coreRow (.tgsub d a b c)) ?_ h
  rw [decMajor1D_of _ (packR_op ..)]
  simp only [decMajor1D, packR_op, packR_d, packR_a, packR_b, packR_c, packR_fn, ofBool_bit]
  rfl
theorem tgnext (d : BitVec 4) : Statement (Instr.tgnext d) := by
  intro h
  refine readBack_grain (i := coreRow (.tgnext d)) ?_ h
  rw [decMajor1D_of _ (packR_op ..)]
  simp only [decMajor1D, packR_op, packR_d, packR_a, packR_b, packR_c, packR_fn, ofBool_bit]
  rfl
theorem tgdone (d : BitVec 4) (a : BitVec 4) (b : BitVec 4) : Statement (Instr.tgdone d a b) := by
  intro h
  refine readBack_grain (i := coreRow (.tgdone d a b)) ?_ h
  rw [decMajor1D_of _ (packR_op ..)]
  simp only [decMajor1D, packR_op, packR_d, packR_a, packR_b, packR_c, packR_fn, ofBool_bit]
  rfl
theorem tgdoneRequeue (d : BitVec 4) (a : BitVec 4) (b : BitVec 4) : Statement (Instr.tgdoneRequeue d a b) := by
  intro h
  refine readBack_grain (i := coreRow (.tgdoneRequeue d a b)) ?_ rfl
  rw [decMajor1D_of _ (packR_op ..)]
  simp only [decMajor1D, packR_op, packR_d, packR_a, packR_b, packR_c, packR_fn, ofBool_bit]
  rfl
theorem wbind (d : BitVec 4) (a : BitVec 4) (b : BitVec 4) : Statement (Instr.wbind d a b) := by
  intro h
  refine readBack_grain (i := coreRow (.wbind d a b)) ?_ h
  rw [decMajor1E_of _ (packA_op ..)]
  simp only [decMajor1E, packA_op, packA_d, packA_a, packA_b, packA_fn, packA_aq_bit, packA_aq, packA_rl_bit, packA_rl, packA_dc_bit, packA_dc, packA_cls, packA_z, ofBool_bit]
  rfl
theorem wbindUnbind (d : BitVec 4) (a : BitVec 4) (b : BitVec 4) : Statement (Instr.wbindUnbind d a b) := by
  intro h
  refine readBack_grain (i := coreRow (.wbindUnbind d a b)) ?_ rfl
  rw [decMajor1E_of _ (packA_op ..)]
  simp only [decMajor1E, packA_op, packA_d, packA_a, packA_b, packA_fn, packA_aq_bit, packA_aq, packA_rl_bit, packA_rl, packA_dc_bit, packA_dc, packA_cls, packA_z, ofBool_bit]
  rfl
theorem wpush (d : BitVec 4) (a : BitVec 4) (b : BitVec 4) (dc : Bool) (cls : BitVec 4) : Statement (Instr.wpush d a b dc cls) := by
  intro h
  refine readBack_grain (i := coreRow (.wpush d a b dc cls)) ?_ h
  rw [decMajor1E_of _ (packA_op ..)]
  simp only [decMajor1E, packA_op, packA_d, packA_a, packA_b, packA_fn, packA_aq_bit, packA_aq, packA_rl_bit, packA_rl, packA_dc_bit, packA_dc, packA_cls, packA_z, ofBool_bit]
  rfl
theorem wpull (d : BitVec 4) (a : BitVec 4) (b : BitVec 4) (dc : Bool) (cls : BitVec 4) : Statement (Instr.wpull d a b dc cls) := by
  intro h
  refine readBack_grain (i := coreRow (.wpull d a b dc cls)) ?_ h
  rw [decMajor1E_of _ (packA_op ..)]
  simp only [decMajor1E, packA_op, packA_d, packA_a, packA_b, packA_fn, packA_aq_bit, packA_aq, packA_rl_bit, packA_rl, packA_dc_bit, packA_dc, packA_cls, packA_z, ofBool_bit]
  rfl
theorem wdone (d : BitVec 4) (a : BitVec 4) (b : BitVec 4) : Statement (Instr.wdone d a b) := by
  intro h
  refine readBack_grain (i := coreRow (.wdone d a b)) ?_ h
  rw [decMajor1E_of _ (packA_op ..)]
  simp only [decMajor1E, packA_op, packA_d, packA_a, packA_b, packA_fn, packA_aq_bit, packA_aq, packA_rl_bit, packA_rl, packA_dc_bit, packA_dc, packA_cls, packA_z, ofBool_bit]
  rfl
theorem amotopk (d : BitVec 4) (a : BitVec 4) (b : BitVec 4) (aq : Bool) (rl : Bool) (dc : Bool) (cls : BitVec 4) : Statement (Instr.amotopk d a b aq rl dc cls) := by
  intro h
  refine readBack_grain (i := coreRow (.amotopk d a b aq rl dc cls)) ?_ h
  rw [decMajor1E_of _ (packA_op ..)]
  simp only [decMajor1E, packA_op, packA_d, packA_a, packA_b, packA_fn, packA_aq_bit, packA_aq, packA_rl_bit, packA_rl, packA_dc_bit, packA_dc, packA_cls, packA_z, ofBool_bit]
  rfl
theorem amobinc (d : BitVec 4) (a : BitVec 4) (b : BitVec 4) (aq : Bool) (rl : Bool) (dc : Bool) (cls : BitVec 4) : Statement (Instr.amobinc d a b aq rl dc cls) := by
  intro h
  refine readBack_grain (i := coreRow (.amobinc d a b aq rl dc cls)) ?_ h
  rw [decMajor1E_of _ (packA_op ..)]
  simp only [decMajor1E, packA_op, packA_d, packA_a, packA_b, packA_fn, packA_aq_bit, packA_aq, packA_rl_bit, packA_rl, packA_dc_bit, packA_dc, packA_cls, packA_z, ofBool_bit]
  rfl
theorem msamp (d : BitVec 4) (a : BitVec 4) : Statement (Instr.msamp d a) := by
  intro h
  refine readBack_grain (i := coreRow (.msamp d a)) ?_ h
  rw [decMajor1E_of _ (packA_op ..)]
  simp only [decMajor1E, packA_op, packA_d, packA_a, packA_b, packA_fn, packA_aq_bit, packA_aq, packA_rl_bit, packA_rl, packA_dc_bit, packA_dc, packA_cls, packA_z, ofBool_bit]
  rfl
theorem rwr (d : BitVec 4) (a : BitVec 4) (b : BitVec 4) (c : BitVec 4) : Statement (Instr.rwr d a b c) := by
  intro h
  refine readBack_grain (i := coreRow (.rwr d a b c)) ?_ h
  rw [decMajor1F_of _ (packR_op ..)]
  simp only [decMajor1F, packR_op, packR_d, packR_a, packR_b, packR_c, packR_fn, ofBool_bit]
  rfl
theorem ramo (d : BitVec 4) (a : BitVec 4) (b : BitVec 4) (c : BitVec 4) : Statement (Instr.ramo d a b c) := by
  intro h
  refine readBack_grain (i := coreRow (.ramo d a b c)) ?_ h
  rw [decMajor1F_of _ (packR_op ..)]
  simp only [decMajor1F, packR_op, packR_d, packR_a, packR_b, packR_c, packR_fn, ofBool_bit]
  rfl
theorem rmsg (d : BitVec 4) (a : BitVec 4) (c : BitVec 4) : Statement (Instr.rmsg d a c) := by
  intro h
  refine readBack_grain (i := coreRow (.rmsg d a c)) ?_ h
  rw [decMajor1F_of _ (packR_op ..)]
  simp only [decMajor1F, packR_op, packR_d, packR_a, packR_b, packR_c, packR_fn, ofBool_bit]
  rfl
theorem rwake (d : BitVec 4) (a : BitVec 4) (c : BitVec 4) : Statement (Instr.rwake d a c) := by
  intro h
  refine readBack_grain (i := coreRow (.rwake d a c)) ?_ h
  rw [decMajor1F_of _ (packR_op ..)]
  simp only [decMajor1F, packR_op, packR_d, packR_a, packR_b, packR_c, packR_fn, ofBool_bit]
  rfl
theorem rlendLend (d : BitVec 4) (a : BitVec 4) (b : BitVec 4) : Statement (Instr.rlendLend d a b) := by
  intro h
  refine readBack_grain (i := coreRow (.rlendLend d a b)) ?_ h
  rw [decMajor1F_of _ (packR_op ..)]
  simp only [decMajor1F, packR_op, packR_d, packR_a, packR_b, packR_c, packR_fn, ofBool_bit]
  rfl
theorem rlendRecall (d : BitVec 4) (a : BitVec 4) (b : BitVec 4) : Statement (Instr.rlendRecall d a b) := by
  intro h
  refine readBack_grain (i := coreRow (.rlendRecall d a b)) ?_ rfl
  rw [decMajor1F_of _ (packR_op ..)]
  simp only [decMajor1F, packR_op, packR_d, packR_a, packR_b, packR_c, packR_fn, ofBool_bit]
  rfl
theorem rlendQuery (d : BitVec 4) (a : BitVec 4) (b : BitVec 4) : Statement (Instr.rlendQuery d a b) := by
  intro h
  refine readBack_grain (i := coreRow (.rlendQuery d a b)) ?_ rfl
  rw [decMajor1F_of _ (packR_op ..)]
  simp only [decMajor1F, packR_op, packR_d, packR_a, packR_b, packR_c, packR_fn, ofBool_bit]
  rfl
theorem ckptArm (d : BitVec 4) (a : BitVec 4) : Statement (Instr.ckptArm d a) := by
  intro h
  refine readBack_grain (i := coreRow (.ckptArm d a)) ?_ h
  rw [decMajor20_of _ (packR_op ..)]
  simp only [decMajor20, packR_op, packR_d, packR_a, packR_b, packR_c, packR_fn, ofBool_bit]
  rfl
theorem ckptDisarm (d : BitVec 4) (a : BitVec 4) : Statement (Instr.ckptDisarm d a) := by
  intro h
  refine readBack_grain (i := coreRow (.ckptDisarm d a)) ?_ rfl
  rw [decMajor20_of _ (packR_op ..)]
  simp only [decMajor20, packR_op, packR_d, packR_a, packR_b, packR_c, packR_fn, ofBool_bit]
  rfl
theorem ckptQuery (d : BitVec 4) (a : BitVec 4) : Statement (Instr.ckptQuery d a) := by
  intro h
  refine readBack_grain (i := coreRow (.ckptQuery d a)) ?_ rfl
  rw [decMajor20_of _ (packR_op ..)]
  simp only [decMajor20, packR_op, packR_d, packR_a, packR_b, packR_c, packR_fn, ofBool_bit]
  rfl
theorem twilCouple (d : BitVec 4) (a : BitVec 4) : Statement (Instr.twilCouple d a) := by
  intro h
  refine readBack_grain (i := coreRow (.twilCouple d a)) ?_ h
  rw [decMajor20_of _ (packR_op ..)]
  simp only [decMajor20, packR_op, packR_d, packR_a, packR_b, packR_c, packR_fn, ofBool_bit]
  rfl
theorem twilUncouple (d : BitVec 4) (a : BitVec 4) : Statement (Instr.twilUncouple d a) := by
  intro h
  refine readBack_grain (i := coreRow (.twilUncouple d a)) ?_ rfl
  rw [decMajor20_of _ (packR_op ..)]
  simp only [decMajor20, packR_op, packR_d, packR_a, packR_b, packR_c, packR_fn, ofBool_bit]
  rfl
theorem frecResume (d : BitVec 4) (a : BitVec 4) (b : BitVec 4) : Statement (Instr.frecResume d a b) := by
  intro h
  refine readBack_grain (i := coreRow (.frecResume d a b)) ?_ h
  rw [decMajor20_of _ (packR_op ..)]
  simp only [decMajor20, packR_op, packR_d, packR_a, packR_b, packR_c, packR_fn, ofBool_bit]
  rfl
theorem frecSkip (d : BitVec 4) (a : BitVec 4) (b : BitVec 4) : Statement (Instr.frecSkip d a b) := by
  intro h
  refine readBack_grain (i := coreRow (.frecSkip d a b)) ?_ rfl
  rw [decMajor20_of _ (packR_op ..)]
  simp only [decMajor20, packR_op, packR_d, packR_a, packR_b, packR_c, packR_fn, ofBool_bit]
  rfl
theorem frecGoto (d : BitVec 4) (a : BitVec 4) (b : BitVec 4) : Statement (Instr.frecGoto d a b) := by
  intro h
  refine readBack_grain (i := coreRow (.frecGoto d a b)) ?_ rfl
  rw [decMajor20_of _ (packR_op ..)]
  simp only [decMajor20, packR_op, packR_d, packR_a, packR_b, packR_c, packR_fn, ofBool_bit]
  rfl
theorem frecSave (d : BitVec 4) (a : BitVec 4) (b : BitVec 4) : Statement (Instr.frecSave d a b) := by
  intro h
  refine readBack_grain (i := coreRow (.frecSave d a b)) ?_ rfl
  rw [decMajor20_of _ (packR_op ..)]
  simp only [decMajor20, packR_op, packR_d, packR_a, packR_b, packR_c, packR_fn, ofBool_bit]
  rfl
theorem frecLoad (d : BitVec 4) (a : BitVec 4) (b : BitVec 4) : Statement (Instr.frecLoad d a b) := by
  intro h
  refine readBack_grain (i := coreRow (.frecLoad d a b)) ?_ rfl
  rw [decMajor20_of _ (packR_op ..)]
  simp only [decMajor20, packR_op, packR_d, packR_a, packR_b, packR_c, packR_fn, ofBool_bit]
  rfl
theorem frecLresume (d : BitVec 4) (a : BitVec 4) (b : BitVec 4) : Statement (Instr.frecLresume d a b) := by
  intro h
  refine readBack_grain (i := coreRow (.frecLresume d a b)) ?_ rfl
  rw [decMajor20_of _ (packR_op ..)]
  simp only [decMajor20, packR_op, packR_d, packR_a, packR_b, packR_c, packR_fn, ofBool_bit]
  rfl
theorem frecLdrop (d : BitVec 4) (a : BitVec 4) (b : BitVec 4) : Statement (Instr.frecLdrop d a b) := by
  intro h
  refine readBack_grain (i := coreRow (.frecLdrop d a b)) ?_ rfl
  rw [decMajor20_of _ (packR_op ..)]
  simp only [decMajor20, packR_op, packR_d, packR_a, packR_b, packR_c, packR_fn, ofBool_bit]
  rfl
theorem frecLend (d : BitVec 4) (a : BitVec 4) (b : BitVec 4) : Statement (Instr.frecLend d a b) := by
  intro h
  refine readBack_grain (i := coreRow (.frecLend d a b)) ?_ rfl
  rw [decMajor20_of _ (packR_op ..)]
  simp only [decMajor20, packR_op, packR_d, packR_a, packR_b, packR_c, packR_fn, ofBool_bit]
  rfl
theorem frecLring (d : BitVec 4) (a : BitVec 4) (b : BitVec 4) : Statement (Instr.frecLring d a b) := by
  intro h
  refine readBack_grain (i := coreRow (.frecLring d a b)) ?_ rfl
  rw [decMajor20_of _ (packR_op ..)]
  simp only [decMajor20, packR_op, packR_d, packR_a, packR_b, packR_c, packR_fn, ofBool_bit]
  rfl
theorem frecGpre (d : BitVec 4) (a : BitVec 4) (b : BitVec 4) : Statement (Instr.frecGpre d a b) := by
  intro h
  refine readBack_grain (i := coreRow (.frecGpre d a b)) ?_ rfl
  rw [decMajor20_of _ (packR_op ..)]
  simp only [decMajor20, packR_op, packR_d, packR_a, packR_b, packR_c, packR_fn, ofBool_bit]
  rfl
theorem frecGrest (d : BitVec 4) (a : BitVec 4) (b : BitVec 4) : Statement (Instr.frecGrest d a b) := by
  intro h
  refine readBack_grain (i := coreRow (.frecGrest d a b)) ?_ rfl
  rw [decMajor20_of _ (packR_op ..)]
  simp only [decMajor20, packR_op, packR_d, packR_a, packR_b, packR_c, packR_fn, ofBool_bit]
  rfl
theorem sadd (p : Pred) (d : BitVec 5) (a : BitVec 5) (b : BitVec 5) : Statement (Instr.sadd p d a b) := by
  intro h
  refine readBack_slot (decSlot28_none _ (packS_op ..)) ?_ h
  rw [decSlot28_of _ _ (packS_op ..)]
  simp only [decSlot28, packS_op, packS_d, packS_a, packS_b, packS_fn, packS_pred, packS_ab, packS_dx, packS_dy, packS_fnlow, packS_fwd, ofBool_bit, join_10, join_12, join_13, join_18, join_7, lent_high, lent_low]
  rfl
theorem ssub (p : Pred) (d : BitVec 5) (a : BitVec 5) (b : BitVec 5) : Statement (Instr.ssub p d a b) := by
  intro h
  refine readBack_slot (decSlot28_none _ (packS_op ..)) ?_ h
  rw [decSlot28_of _ _ (packS_op ..)]
  simp only [decSlot28, packS_op, packS_d, packS_a, packS_b, packS_fn, packS_pred, packS_ab, packS_dx, packS_dy, packS_fnlow, packS_fwd, ofBool_bit, join_10, join_12, join_13, join_18, join_7, lent_high, lent_low]
  rfl
theorem sand (p : Pred) (d : BitVec 5) (a : BitVec 5) (b : BitVec 5) : Statement (Instr.sand p d a b) := by
  intro h
  refine readBack_slot (decSlot28_none _ (packS_op ..)) ?_ h
  rw [decSlot28_of _ _ (packS_op ..)]
  simp only [decSlot28, packS_op, packS_d, packS_a, packS_b, packS_fn, packS_pred, packS_ab, packS_dx, packS_dy, packS_fnlow, packS_fwd, ofBool_bit, join_10, join_12, join_13, join_18, join_7, lent_high, lent_low]
  rfl
theorem sor (p : Pred) (d : BitVec 5) (a : BitVec 5) (b : BitVec 5) : Statement (Instr.sor p d a b) := by
  intro h
  refine readBack_slot (decSlot28_none _ (packS_op ..)) ?_ h
  rw [decSlot28_of _ _ (packS_op ..)]
  simp only [decSlot28, packS_op, packS_d, packS_a, packS_b, packS_fn, packS_pred, packS_ab, packS_dx, packS_dy, packS_fnlow, packS_fwd, ofBool_bit, join_10, join_12, join_13, join_18, join_7, lent_high, lent_low]
  rfl
theorem ssll (p : Pred) (d : BitVec 5) (a : BitVec 5) (b : BitVec 5) : Statement (Instr.ssll p d a b) := by
  intro h
  refine readBack_slot (decSlot28_none _ (packS_op ..)) ?_ h
  rw [decSlot28_of _ _ (packS_op ..)]
  simp only [decSlot28, packS_op, packS_d, packS_a, packS_b, packS_fn, packS_pred, packS_ab, packS_dx, packS_dy, packS_fnlow, packS_fwd, ofBool_bit, join_10, join_12, join_13, join_18, join_7, lent_high, lent_low]
  rfl
theorem ssrl (p : Pred) (d : BitVec 5) (a : BitVec 5) (b : BitVec 5) : Statement (Instr.ssrl p d a b) := by
  intro h
  refine readBack_slot (decSlot28_none _ (packS_op ..)) ?_ h
  rw [decSlot28_of _ _ (packS_op ..)]
  simp only [decSlot28, packS_op, packS_d, packS_a, packS_b, packS_fn, packS_pred, packS_ab, packS_dx, packS_dy, packS_fnlow, packS_fwd, ofBool_bit, join_10, join_12, join_13, join_18, join_7, lent_high, lent_low]
  rfl
theorem smul (p : Pred) (d : BitVec 5) (a : BitVec 5) (b : BitVec 5) : Statement (Instr.smul p d a b) := by
  intro h
  refine readBack_slot (decSlot28_none _ (packS_op ..)) ?_ h
  rw [decSlot28_of _ _ (packS_op ..)]
  simp only [decSlot28, packS_op, packS_d, packS_a, packS_b, packS_fn, packS_pred, packS_ab, packS_dx, packS_dy, packS_fnlow, packS_fwd, ofBool_bit, join_10, join_12, join_13, join_18, join_7, lent_high, lent_low]
  rfl
theorem scmp (p : Pred) (n : BitVec 2) (cc : BitVec 3) (a : BitVec 5) (b : BitVec 5) : Statement (Instr.scmp p n cc a b) := by
  intro h
  refine readBack_slot (decSlot28_none _ (packS_op ..)) ?_ h
  rw [decSlot28_of _ _ (packS_op ..)]
  simp only [decSlot28, packS_op, packS_d, packS_a, packS_b, packS_fn, packS_pred, packS_ab, packS_dx, packS_dy, packS_fnlow, packS_fwd, ofBool_bit, join_10, join_12, join_13, join_18, join_7, lent_high, lent_low]
  rfl
theorem saddi (p : Pred) (d : BitVec 5) (a : BitVec 5) (imm : BitVec 13) : Statement (Instr.saddi p d a imm) := by
  intro h
  refine readBack_slot (decSlot29_none _ (packS_op ..)) ?_ h
  rw [decSlot29_of _ _ (packS_op ..)]
  simp only [decSlot29, packS_op, packS_d, packS_a, packS_b, packS_fn, packS_pred, packS_ab, packS_dx, packS_dy, packS_fnlow, packS_fwd, ofBool_bit, join_10, join_12, join_13, join_18, join_7, lent_high, lent_low]
  rfl
theorem smovi (p : Pred) (d : BitVec 5) (imm : BitVec 18) : Statement (Instr.smovi p d imm) := by
  intro h
  refine readBack_slot (decSlot29_none _ (packS_op ..)) ?_ h
  rw [decSlot29_of _ _ (packS_op ..)]
  simp only [decSlot29, packS_op, packS_d, packS_a, packS_b, packS_fn, packS_pred, packS_ab, packS_dx, packS_dy, packS_fnlow, packS_fwd, ofBool_bit, join_10, join_12, join_13, join_18, join_7, lent_high, lent_low]
  rfl
theorem sbr (p : Pred) (t : BitVec 12) : Statement (Instr.sbr p t) := by
  intro h
  refine readBack_slot (decSlot2A_none _ (packS_op ..)) ?_ h
  rw [decSlot2A_of _ _ (packS_op ..)]
  simp only [decSlot2A, packS_op, packS_d, packS_a, packS_b, packS_fn, packS_pred, packS_ab, packS_dx, packS_dy, packS_fnlow, packS_fwd, ofBool_bit, join_10, join_12, join_13, join_18, join_7, lent_high, lent_low]
  rfl
theorem sloop (p : Pred) (d : BitVec 5) (t : BitVec 12) : Statement (Instr.sloop p d t) := by
  intro h
  refine readBack_slot (decSlot2A_none _ (packS_op ..)) ?_ h
  rw [decSlot2A_of _ _ (packS_op ..)]
  simp only [decSlot2A, packS_op, packS_d, packS_a, packS_b, packS_fn, packS_pred, packS_ab, packS_dx, packS_dy, packS_fnlow, packS_fwd, ofBool_bit, join_10, join_12, join_13, join_18, join_7, lent_high, lent_low]
  rfl
theorem snop (p : Pred) : Statement (Instr.snop p) := by
  intro h
  refine readBack_slot (decSlot2B_none _ (packS_op ..)) ?_ h
  rw [decSlot2B_of _ _ (packS_op ..)]
  simp only [decSlot2B, packS_op, packS_d, packS_a, packS_b, packS_fn, packS_pred, packS_ab, packS_dx, packS_dy, packS_fnlow, packS_fwd, ofBool_bit, join_10, join_12, join_13, join_18, join_7, lent_high, lent_low]
  rfl
theorem snext (p : Pred) (d : BitVec 5) : Statement (Instr.snext p d) := by
  intro h
  refine readBack_slot (decSlot2B_none _ (packS_op ..)) ?_ h
  rw [decSlot2B_of _ _ (packS_op ..)]
  simp only [decSlot2B, packS_op, packS_d, packS_a, packS_b, packS_fn, packS_pred, packS_ab, packS_dx, packS_dy, packS_fnlow, packS_fwd, ofBool_bit, join_10, join_12, join_13, join_18, join_7, lent_high, lent_low]
  rfl
theorem srel (p : Pred) (a : BitVec 5) : Statement (Instr.srel p a) := by
  intro h
  refine readBack_slot (decSlot2B_none _ (packS_op ..)) ?_ h
  rw [decSlot2B_of _ _ (packS_op ..)]
  simp only [decSlot2B, packS_op, packS_d, packS_a, packS_b, packS_fn, packS_pred, packS_ab, packS_dx, packS_dy, packS_fnlow, packS_fwd, ofBool_bit, join_10, join_12, join_13, join_18, join_7, lent_high, lent_low]
  rfl
theorem sckpt (p : Pred) : Statement (Instr.sckpt p) := by
  intro h
  refine readBack_slot (decSlot2B_none _ (packS_op ..)) ?_ h
  rw [decSlot2B_of _ _ (packS_op ..)]
  simp only [decSlot2B, packS_op, packS_d, packS_a, packS_b, packS_fn, packS_pred, packS_ab, packS_dx, packS_dy, packS_fnlow, packS_fwd, ofBool_bit, join_10, join_12, join_13, join_18, join_7, lent_high, lent_low]
  rfl
theorem srsr (p : Pred) (d : BitVec 5) (b : BitVec 5) : Statement (Instr.srsr p d b) := by
  intro h
  refine readBack_slot (decSlot2B_none _ (packS_op ..)) ?_ h
  rw [decSlot2B_of _ _ (packS_op ..)]
  simp only [decSlot2B, packS_op, packS_d, packS_a, packS_b, packS_fn, packS_pred, packS_ab, packS_dx, packS_dy, packS_fnlow, packS_fwd, ofBool_bit, join_10, join_12, join_13, join_18, join_7, lent_high, lent_low]
  rfl
theorem shalt (p : Pred) : Statement (Instr.shalt p) := by
  intro h
  refine readBack_slot (decSlot2B_none _ (packS_op ..)) ?_ h
  rw [decSlot2B_of _ _ (packS_op ..)]
  simp only [decSlot2B, packS_op, packS_d, packS_a, packS_b, packS_fn, packS_pred, packS_ab, packS_dx, packS_dy, packS_fnlow, packS_fwd, ofBool_bit, join_10, join_12, join_13, join_18, join_7, lent_high, lent_low]
  rfl
theorem vadd (p : Pred) (d : BitVec 5) (a : BitVec 5) (b : BitVec 5) (fwd : Bool) : Statement (Instr.vadd p d a b fwd) := by
  intro h
  refine readBack_slot (decSlot2E_none _ (packS_op ..)) ?_ h
  rw [decSlot2E_of _ _ (packS_op ..)]
  simp only [decSlot2E, packS_op, packS_d, packS_a, packS_b, packS_fn, packS_pred, packS_ab, packS_dx, packS_dy, packS_fnlow, packS_fwd, ofBool_bit, join_10, join_12, join_13, join_18, join_7, lent_high, lent_low]
  rfl
theorem vsub (p : Pred) (d : BitVec 5) (a : BitVec 5) (b : BitVec 5) (fwd : Bool) : Statement (Instr.vsub p d a b fwd) := by
  intro h
  refine readBack_slot (decSlot2E_none _ (packS_op ..)) ?_ h
  rw [decSlot2E_of _ _ (packS_op ..)]
  simp only [decSlot2E, packS_op, packS_d, packS_a, packS_b, packS_fn, packS_pred, packS_ab, packS_dx, packS_dy, packS_fnlow, packS_fwd, ofBool_bit, join_10, join_12, join_13, join_18, join_7, lent_high, lent_low]
  rfl
theorem vand (p : Pred) (d : BitVec 5) (a : BitVec 5) (b : BitVec 5) (fwd : Bool) : Statement (Instr.vand p d a b fwd) := by
  intro h
  refine readBack_slot (decSlot2E_none _ (packS_op ..)) ?_ h
  rw [decSlot2E_of _ _ (packS_op ..)]
  simp only [decSlot2E, packS_op, packS_d, packS_a, packS_b, packS_fn, packS_pred, packS_ab, packS_dx, packS_dy, packS_fnlow, packS_fwd, ofBool_bit, join_10, join_12, join_13, join_18, join_7, lent_high, lent_low]
  rfl
theorem vor (p : Pred) (d : BitVec 5) (a : BitVec 5) (b : BitVec 5) (fwd : Bool) : Statement (Instr.vor p d a b fwd) := by
  intro h
  refine readBack_slot (decSlot2E_none _ (packS_op ..)) ?_ h
  rw [decSlot2E_of _ _ (packS_op ..)]
  simp only [decSlot2E, packS_op, packS_d, packS_a, packS_b, packS_fn, packS_pred, packS_ab, packS_dx, packS_dy, packS_fnlow, packS_fwd, ofBool_bit, join_10, join_12, join_13, join_18, join_7, lent_high, lent_low]
  rfl
theorem vxor (p : Pred) (d : BitVec 5) (a : BitVec 5) (b : BitVec 5) (fwd : Bool) : Statement (Instr.vxor p d a b fwd) := by
  intro h
  refine readBack_slot (decSlot2E_none _ (packS_op ..)) ?_ h
  rw [decSlot2E_of _ _ (packS_op ..)]
  simp only [decSlot2E, packS_op, packS_d, packS_a, packS_b, packS_fn, packS_pred, packS_ab, packS_dx, packS_dy, packS_fnlow, packS_fwd, ofBool_bit, join_10, join_12, join_13, join_18, join_7, lent_high, lent_low]
  rfl
theorem vsll (p : Pred) (d : BitVec 5) (a : BitVec 5) (b : BitVec 5) (fwd : Bool) : Statement (Instr.vsll p d a b fwd) := by
  intro h
  refine readBack_slot (decSlot2E_none _ (packS_op ..)) ?_ h
  rw [decSlot2E_of _ _ (packS_op ..)]
  simp only [decSlot2E, packS_op, packS_d, packS_a, packS_b, packS_fn, packS_pred, packS_ab, packS_dx, packS_dy, packS_fnlow, packS_fwd, ofBool_bit, join_10, join_12, join_13, join_18, join_7, lent_high, lent_low]
  rfl
theorem vsra (p : Pred) (d : BitVec 5) (a : BitVec 5) (b : BitVec 5) (fwd : Bool) : Statement (Instr.vsra p d a b fwd) := by
  intro h
  refine readBack_slot (decSlot2E_none _ (packS_op ..)) ?_ h
  rw [decSlot2E_of _ _ (packS_op ..)]
  simp only [decSlot2E, packS_op, packS_d, packS_a, packS_b, packS_fn, packS_pred, packS_ab, packS_dx, packS_dy, packS_fnlow, packS_fwd, ofBool_bit, join_10, join_12, join_13, join_18, join_7, lent_high, lent_low]
  rfl
theorem vfadd (p : Pred) (d : BitVec 5) (a : BitVec 5) (b : BitVec 5) (fwd : Bool) (lend : BitVec 8) : Statement (Instr.vfadd p d a b fwd lend) := by
  intro h
  refine readBack_slot (decSlot2F_none _ (packS_op ..)) ?_ h
  rw [decSlot2F_of _ _ (packS_op ..)]
  simp only [decSlot2F, packS_op, packS_d, packS_a, packS_b, packS_fn, packS_pred, packS_ab, packS_dx, packS_dy, packS_fnlow, packS_fwd, ofBool_bit, join_10, join_12, join_13, join_18, join_7, lent_high, lent_low]
  rfl
theorem vfmul (p : Pred) (d : BitVec 5) (a : BitVec 5) (b : BitVec 5) (fwd : Bool) (lend : BitVec 8) : Statement (Instr.vfmul p d a b fwd lend) := by
  intro h
  refine readBack_slot (decSlot2F_none _ (packS_op ..)) ?_ h
  rw [decSlot2F_of _ _ (packS_op ..)]
  simp only [decSlot2F, packS_op, packS_d, packS_a, packS_b, packS_fn, packS_pred, packS_ab, packS_dx, packS_dy, packS_fnlow, packS_fwd, ofBool_bit, join_10, join_12, join_13, join_18, join_7, lent_high, lent_low]
  rfl
theorem vfma (p : Pred) (d : BitVec 5) (a : BitVec 5) (b : BitVec 5) (fwd : Bool) (lend : BitVec 8) : Statement (Instr.vfma p d a b fwd lend) := by
  intro h
  refine readBack_slot (decSlot2F_none _ (packS_op ..)) ?_ h
  rw [decSlot2F_of _ _ (packS_op ..)]
  simp only [decSlot2F, packS_op, packS_d, packS_a, packS_b, packS_fn, packS_pred, packS_ab, packS_dx, packS_dy, packS_fnlow, packS_fwd, ofBool_bit, join_10, join_12, join_13, join_18, join_7, lent_high, lent_low]
  rfl
theorem vfmax (p : Pred) (d : BitVec 5) (a : BitVec 5) (b : BitVec 5) (fwd : Bool) (lend : BitVec 8) : Statement (Instr.vfmax p d a b fwd lend) := by
  intro h
  refine readBack_slot (decSlot2F_none _ (packS_op ..)) ?_ h
  rw [decSlot2F_of _ _ (packS_op ..)]
  simp only [decSlot2F, packS_op, packS_d, packS_a, packS_b, packS_fn, packS_pred, packS_ab, packS_dx, packS_dy, packS_fnlow, packS_fwd, ofBool_bit, join_10, join_12, join_13, join_18, join_7, lent_high, lent_low]
  rfl
theorem vfmin (p : Pred) (d : BitVec 5) (a : BitVec 5) (b : BitVec 5) (fwd : Bool) (lend : BitVec 8) : Statement (Instr.vfmin p d a b fwd lend) := by
  intro h
  refine readBack_slot (decSlot2F_none _ (packS_op ..)) ?_ h
  rw [decSlot2F_of _ _ (packS_op ..)]
  simp only [decSlot2F, packS_op, packS_d, packS_a, packS_b, packS_fn, packS_pred, packS_ab, packS_dx, packS_dy, packS_fnlow, packS_fwd, ofBool_bit, join_10, join_12, join_13, join_18, join_7, lent_high, lent_low]
  rfl
theorem vnrw (p : Pred) (d : BitVec 5) (a : BitVec 5) (b : BitVec 5) (lend : BitVec 8) : Statement (Instr.vnrw p d a b lend) := by
  intro h
  refine readBack_slot (decSlot30_none _ (packS_op ..)) ?_ h
  rw [decSlot30_of _ _ (packS_op ..)]
  simp only [decSlot30, packS_op, packS_d, packS_a, packS_b, packS_fn, packS_pred, packS_ab, packS_dx, packS_dy, packS_fnlow, packS_fwd, ofBool_bit, join_10, join_12, join_13, join_18, join_7, lent_high, lent_low]
  rfl
theorem vwid (p : Pred) (d : BitVec 5) (a : BitVec 5) (b : BitVec 5) (lend : BitVec 8) : Statement (Instr.vwid p d a b lend) := by
  intro h
  refine readBack_slot (decSlot30_none _ (packS_op ..)) ?_ h
  rw [decSlot30_of _ _ (packS_op ..)]
  simp only [decSlot30, packS_op, packS_d, packS_a, packS_b, packS_fn, packS_pred, packS_ab, packS_dx, packS_dy, packS_fnlow, packS_fwd, ofBool_bit, join_10, join_12, join_13, join_18, join_7, lent_high, lent_low]
  rfl
theorem vrsum (p : Pred) (d : BitVec 5) (a : BitVec 5) : Statement (Instr.vrsum p d a) := by
  intro h
  refine readBack_slot (decSlot31_none _ (packS_op ..)) ?_ h
  rw [decSlot31_of _ _ (packS_op ..)]
  simp only [decSlot31, packS_op, packS_d, packS_a, packS_b, packS_fn, packS_pred, packS_ab, packS_dx, packS_dy, packS_fnlow, packS_fwd, ofBool_bit, join_10, join_12, join_13, join_18, join_7, lent_high, lent_low]
  rfl
theorem vrmax (p : Pred) (d : BitVec 5) (a : BitVec 5) : Statement (Instr.vrmax p d a) := by
  intro h
  refine readBack_slot (decSlot31_none _ (packS_op ..)) ?_ h
  rw [decSlot31_of _ _ (packS_op ..)]
  simp only [decSlot31, packS_op, packS_d, packS_a, packS_b, packS_fn, packS_pred, packS_ab, packS_dx, packS_dy, packS_fnlow, packS_fwd, ofBool_bit, join_10, join_12, join_13, join_18, join_7, lent_high, lent_low]
  rfl
theorem vmov (p : Pred) (d : BitVec 5) (a : BitVec 5) (fwd : Bool) : Statement (Instr.vmov p d a fwd) := by
  intro h
  refine readBack_slot (decSlot32_none _ (packS_op ..)) ?_ h
  rw [decSlot32_of _ _ (packS_op ..)]
  simp only [decSlot32, packS_op, packS_d, packS_a, packS_b, packS_fn, packS_pred, packS_ab, packS_dx, packS_dy, packS_fnlow, packS_fwd, ofBool_bit, join_10, join_12, join_13, join_18, join_7, lent_high, lent_low]
  rfl
theorem vmrd (p : Pred) (d : BitVec 5) (row : BitVec 7) : Statement (Instr.vmrd p d row) := by
  intro h
  refine readBack_slot (decSlot32_none _ (packS_op ..)) ?_ h
  rw [decSlot32_of _ _ (packS_op ..)]
  simp only [decSlot32, packS_op, packS_d, packS_a, packS_b, packS_fn, packS_pred, packS_ab, packS_dx, packS_dy, packS_fnlow, packS_fwd, ofBool_bit, join_10, join_12, join_13, join_18, join_7, lent_high, lent_low, (packS_low6 _ _ _ _ _ 1#7 rfl).1, (packS_low6 _ _ _ _ _ 1#7 rfl).2]
  rfl
theorem vmask (p : Pred) (n : BitVec 2) (cc : BitVec 3) (a : BitVec 5) (b : BitVec 5) : Statement (Instr.vmask p n cc a b) := by
  intro h
  refine readBack_slot (decSlot32_none _ (packS_op ..)) ?_ h
  rw [decSlot32_of _ _ (packS_op ..)]
  simp only [decSlot32, packS_op, packS_d, packS_a, packS_b, packS_fn, packS_pred, packS_ab, packS_dx, packS_dy, packS_fnlow, packS_fwd, ofBool_bit, join_10, join_12, join_13, join_18, join_7, lent_high, lent_low, (packS_low6 _ _ _ _ _ 2#7 rfl).1, (packS_low6 _ _ _ _ _ 2#7 rfl).2]
  rfl
theorem vnop (p : Pred) : Statement (Instr.vnop p) := by
  intro h
  refine readBack_slot (decSlot35_none _ (packS_op ..)) ?_ h
  rw [decSlot35_of _ _ (packS_op ..)]
  simp only [decSlot35, packS_op, packS_d, packS_a, packS_b, packS_fn, packS_pred, packS_ab, packS_dx, packS_dy, packS_fnlow, packS_fwd, ofBool_bit, join_10, join_12, join_13, join_18, join_7, lent_high, lent_low]
  rfl
theorem mbub (p : Pred) : Statement (Instr.mbub p) := by
  intro h
  refine readBack_slot (decSlot36_none _ (packS_op ..)) ?_ h
  rw [decSlot36_of _ _ (packS_op ..)]
  simp only [decSlot36, packS_op, packS_d, packS_a, packS_b, packS_fn, packS_pred, packS_ab, packS_dx, packS_dy, packS_fnlow, packS_fwd, ofBool_bit, join_10, join_12, join_13, join_18, join_7, lent_high, lent_low]
  rfl
theorem mpush (p : Pred) (step : BitVec 5) (a : BitVec 5) (b : BitVec 5) : Statement (Instr.mpush p step a b) := by
  intro h
  refine readBack_slot (decSlot36_none _ (packS_op ..)) ?_ h
  rw [decSlot36_of _ _ (packS_op ..)]
  simp only [decSlot36, packS_op, packS_d, packS_a, packS_b, packS_fn, packS_pred, packS_ab, packS_dx, packS_dy, packS_fnlow, packS_fwd, ofBool_bit, join_10, join_12, join_13, join_18, join_7, lent_high, lent_low]
  rfl
theorem mzpush (p : Pred) (step : BitVec 5) (a : BitVec 5) (b : BitVec 5) : Statement (Instr.mzpush p step a b) := by
  intro h
  refine readBack_slot (decSlot36_none _ (packS_op ..)) ?_ h
  rw [decSlot36_of _ _ (packS_op ..)]
  simp only [decSlot36, packS_op, packS_d, packS_a, packS_b, packS_fn, packS_pred, packS_ab, packS_dx, packS_dy, packS_fnlow, packS_fwd, ofBool_bit, join_10, join_12, join_13, join_18, join_7, lent_high, lent_low]
  rfl
theorem mdrain (p : Pred) (a : BitVec 5) (b : BitVec 5) : Statement (Instr.mdrain p a b) := by
  intro h
  refine readBack_slot (decSlot36_none _ (packS_op ..)) ?_ h
  rw [decSlot36_of _ _ (packS_op ..)]
  simp only [decSlot36, packS_op, packS_d, packS_a, packS_b, packS_fn, packS_pred, packS_ab, packS_dx, packS_dy, packS_fnlow, packS_fwd, ofBool_bit, join_10, join_12, join_13, join_18, join_7, lent_high, lent_low]
  rfl
theorem mset (p : Pred) (d : BitVec 5) (imm : BitVec 18) : Statement (Instr.mset p d imm) := by
  intro h
  refine readBack_slot (decSlot37_none _ (packS_op ..)) ?_ h
  rw [decSlot37_of _ _ (packS_op ..)]
  simp only [decSlot37, packS_op, packS_d, packS_a, packS_b, packS_fn, packS_pred, packS_ab, packS_dx, packS_dy, packS_fnlow, packS_fwd, ofBool_bit, join_10, join_12, join_13, join_18, join_7, lent_high, lent_low]
  rfl
theorem madd (p : Pred) (d : BitVec 5) (a : BitVec 5) (imm : BitVec 13) : Statement (Instr.madd p d a imm) := by
  intro h
  refine readBack_slot (decSlot37_none _ (packS_op ..)) ?_ h
  rw [decSlot37_of _ _ (packS_op ..)]
  simp only [decSlot37, packS_op, packS_d, packS_a, packS_b, packS_fn, packS_pred, packS_ab, packS_dx, packS_dy, packS_fnlow, packS_fwd, ofBool_bit, join_10, join_12, join_13, join_18, join_7, lent_high, lent_low]
  rfl
theorem xrq (p : Pred) (flags : BitVec 5) (a : BitVec 5) (b : BitVec 5) : Statement (Instr.xrq p flags a b) := by
  intro h
  refine readBack_slot (decSlot38_none _ (packS_op ..)) ?_ h
  rw [decSlot38_of _ _ (packS_op ..)]
  simp only [decSlot38, packS_op, packS_d, packS_a, packS_b, packS_fn, packS_pred, packS_ab, packS_dx, packS_dy, packS_fnlow, packS_fwd, ofBool_bit, join_10, join_12, join_13, join_18, join_7, lent_high, lent_low]
  rfl
theorem xwr (p : Pred) (flags : BitVec 5) (a : BitVec 5) (b : BitVec 5) : Statement (Instr.xwr p flags a b) := by
  intro h
  refine readBack_slot (decSlot38_none _ (packS_op ..)) ?_ h
  rw [decSlot38_of _ _ (packS_op ..)]
  simp only [decSlot38, packS_op, packS_d, packS_a, packS_b, packS_fn, packS_pred, packS_ab, packS_dx, packS_dy, packS_fnlow, packS_fwd, ofBool_bit, join_10, join_12, join_13, join_18, join_7, lent_high, lent_low]
  rfl
theorem xbrd (p : Pred) (flags : BitVec 5) (b : BitVec 5) : Statement (Instr.xbrd p flags b) := by
  intro h
  refine readBack_slot (decSlot39_none _ (packS_op ..)) ?_ h
  rw [decSlot39_of _ _ (packS_op ..)]
  simp only [decSlot39, packS_op, packS_d, packS_a, packS_b, packS_fn, packS_pred, packS_ab, packS_dx, packS_dy, packS_fnlow, packS_fwd, ofBool_bit, join_10, join_12, join_13, join_18, join_7, lent_high, lent_low]
  rfl
theorem xbwr (p : Pred) (flags : BitVec 5) (b : BitVec 5) : Statement (Instr.xbwr p flags b) := by
  intro h
  refine readBack_slot (decSlot39_none _ (packS_op ..)) ?_ h
  rw [decSlot39_of _ _ (packS_op ..)]
  simp only [decSlot39, packS_op, packS_d, packS_a, packS_b, packS_fn, packS_pred, packS_ab, packS_dx, packS_dy, packS_fnlow, packS_fwd, ofBool_bit, join_10, join_12, join_13, join_18, join_7, lent_high, lent_low]
  rfl
theorem xbld (p : Pred) (a : BitVec 5) (b : BitVec 5) : Statement (Instr.xbld p a b) := by
  intro h
  refine readBack_slot (decSlot39_none _ (packS_op ..)) ?_ h
  rw [decSlot39_of _ _ (packS_op ..)]
  simp only [decSlot39, packS_op, packS_d, packS_a, packS_b, packS_fn, packS_pred, packS_ab, packS_dx, packS_dy, packS_fnlow, packS_fwd, ofBool_bit, join_10, join_12, join_13, join_18, join_7, lent_high, lent_low]
  rfl
theorem xcpy (p : Pred) (d : BitVec 5) (a : BitVec 5) (b : BitVec 5) (lend : BitVec 8) : Statement (Instr.xcpy p d a b lend) := by
  intro h
  refine readBack_slot (decSlot3A_none _ (packS_op ..)) ?_ h
  rw [decSlot3A_of _ _ (packS_op ..)]
  simp only [decSlot3A, packS_op, packS_d, packS_a, packS_b, packS_fn, packS_pred, packS_ab, packS_dx, packS_dy, packS_fnlow, packS_fwd, ofBool_bit, join_10, join_12, join_13, join_18, join_7, lent_high, lent_low]
  rfl
theorem xnop (p : Pred) : Statement (Instr.xnop p) := by
  intro h
  refine readBack_slot (decSlot3B_none _ (packS_op ..)) ?_ h
  rw [decSlot3B_of _ _ (packS_op ..)]
  simp only [decSlot3B, packS_op, packS_d, packS_a, packS_b, packS_fn, packS_pred, packS_ab, packS_dx, packS_dy, packS_fnlow, packS_fwd, ofBool_bit, join_10, join_12, join_13, join_18, join_7, lent_high, lent_low]
  rfl
theorem xset (p : Pred) (d : BitVec 5) (a : BitVec 5) (imm : BitVec 13) : Statement (Instr.xset p d a imm) := by
  intro h
  refine readBack_slot (decSlot3B_none _ (packS_op ..)) ?_ h
  rw [decSlot3B_of _ _ (packS_op ..)]
  simp only [decSlot3B, packS_op, packS_d, packS_a, packS_b, packS_fn, packS_pred, packS_ab, packS_dx, packS_dy, packS_fnlow, packS_fwd, ofBool_bit, join_10, join_12, join_13, join_18, join_7, lent_high, lent_low]
  rfl
theorem vfmt (payload : BitVec 12) : Statement (Instr.vfmt payload) := by
  intro h
  refine readBack_slot (decSlot35_none _ (packPfx_op ..)) ?_ h
  rw [decSlot35_of _ _ (packPfx_op ..)]
  simp only [decSlot35, packPfx_op, packPfx_z1, packPfx_payload, packPfx_z2, packPfx_fn, ofBool_bit, join_10, join_12, join_13, join_18, join_7, lent_high, lent_low]
  rfl
theorem mfmt (payload : BitVec 12) : Statement (Instr.mfmt payload) := by
  intro h
  refine readBack_slot (decSlot37_none _ (packPfx_op ..)) ?_ h
  rw [decSlot37_of _ _ (packPfx_op ..)]
  simp only [decSlot37, packPfx_op, packPfx_z1, packPfx_payload, packPfx_z2, packPfx_fn, ofBool_bit, join_10, join_12, join_13, join_18, join_7, lent_high, lent_low]
  rfl
theorem bundleDispatch : Statement (Instr.bundleDispatch) := fun _ => trivial
theorem loomResultLands : Statement (Instr.loomResultLands) := fun _ => trivial
theorem queueRowPlaced : Statement (Instr.queueRowPlaced) := fun _ => trivial
theorem arrayBeat : Statement (Instr.arrayBeat) := fun _ => trivial
theorem drainColumnWrite : Statement (Instr.drainColumnWrite) := fun _ => trivial
theorem bstoreWriteLands : Statement (Instr.bstoreWriteLands) := fun _ => trivial
theorem lateFaultFreeze : Statement (Instr.lateFaultFreeze) := fun _ => trivial
theorem shaltStop : Statement (Instr.shaltStop) := fun _ => trivial
theorem replyArrival : Statement (Instr.replyArrival) := fun _ => trivial
theorem storeAcknowledgement : Statement (Instr.storeAcknowledgement) := fun _ => trivial
theorem lateRefusal : Statement (Instr.lateRefusal) := fun _ => trivial
theorem trapEntry : Statement (Instr.trapEntry) := fun _ => trivial
theorem fetchMissFill : Statement (Instr.fetchMissFill) := fun _ => trivial
theorem spawnArrival : Statement (Instr.spawnArrival) := fun _ => trivial
theorem rforkResume : Statement (Instr.rforkResume) := fun _ => trivial
theorem migrationGrant : Statement (Instr.migrationGrant) := fun _ => trivial
theorem migrationAccept : Statement (Instr.migrationAccept) := fun _ => trivial
theorem migratedReply : Statement (Instr.migratedReply) := fun _ => trivial
theorem forwardEntryLapse : Statement (Instr.forwardEntryLapse) := fun _ => trivial
theorem reservationRegister : Statement (Instr.reservationRegister) := fun _ => trivial
theorem homeStore : Statement (Instr.homeStore) := fun _ => trivial
theorem servingSliceLoad : Statement (Instr.servingSliceLoad) := fun _ => trivial
theorem fullEmptyAtHome : Statement (Instr.fullEmptyAtHome) := fun _ => trivial
theorem fullEmptyResend : Statement (Instr.fullEmptyResend) := fun _ => trivial
theorem bankAccess : Statement (Instr.bankAccess) := fun _ => trivial
theorem jwaitWake : Statement (Instr.jwaitWake) := fun _ => trivial
theorem barrierArrival : Statement (Instr.barrierArrival) := fun _ => trivial
theorem barcDone : Statement (Instr.barcDone) := fun _ => trivial
theorem barwTapRise : Statement (Instr.barwTapRise) := fun _ => trivial
theorem barwDone : Statement (Instr.barwDone) := fun _ => trivial
theorem barrierTimeout : Statement (Instr.barrierTimeout) := fun _ => trivial
theorem gangAdmission : Statement (Instr.gangAdmission) := fun _ => trivial
theorem sheafRelease : Statement (Instr.sheafRelease) := fun _ => trivial
theorem stookRelease : Statement (Instr.stookRelease) := fun _ => trivial
theorem rickReady : Statement (Instr.rickReady) := fun _ => trivial
theorem rickGo : Statement (Instr.rickGo) := fun _ => trivial
theorem rickHold : Statement (Instr.rickHold) := fun _ => trivial
theorem rickGuardExpiry : Statement (Instr.rickGuardExpiry) := fun _ => trivial
theorem rickRelease : Statement (Instr.rickRelease) := fun _ => trivial
theorem gangRetire : Statement (Instr.gangRetire) := fun _ => trivial
theorem completionRecordWrite : Statement (Instr.completionRecordWrite) := fun _ => trivial
theorem wakeFloodArrival : Statement (Instr.wakeFloodArrival) := fun _ => trivial
theorem chipPartReport : Statement (Instr.chipPartReport) := fun _ => trivial
theorem preemptRequestArrival : Statement (Instr.preemptRequestArrival) := fun _ => trivial
theorem gangStop : Statement (Instr.gangStop) := fun _ => trivial
theorem clusterSave : Statement (Instr.clusterSave) := fun _ => trivial
theorem clusterRestore : Statement (Instr.clusterRestore) := fun _ => trivial
theorem watchdogWaitExpiry : Statement (Instr.watchdogWaitExpiry) := fun _ => trivial
theorem watchdogPreExpiry : Statement (Instr.watchdogPreExpiry) := fun _ => trivial
theorem gangEnd : Statement (Instr.gangEnd) := fun _ => trivial
theorem correctableErrorCore : Statement (Instr.correctableErrorCore) := fun _ => trivial
theorem coreFreezeEnd : Statement (Instr.coreFreezeEnd) := fun _ => trivial
theorem correctableErrorLoom : Statement (Instr.correctableErrorLoom) := fun _ => trivial
theorem loomFreezeEnd : Statement (Instr.loomFreezeEnd) := fun _ => trivial
theorem dataError : Statement (Instr.dataError) := fun _ => trivial
theorem rollbackOutcome : Statement (Instr.rollbackOutcome) := fun _ => trivial
theorem twillCompare : Statement (Instr.twillCompare) := fun _ => trivial
theorem twillTimeout : Statement (Instr.twillTimeout) := fun _ => trivial
theorem ctTick : Statement (Instr.ctTick) := fun _ => trivial
theorem boltTimerExpiry : Statement (Instr.boltTimerExpiry) := fun _ => trivial
theorem pressureSeal : Statement (Instr.pressureSeal) := fun _ => trivial
theorem bopenServe : Statement (Instr.bopenServe) := fun _ => trivial
theorem boltPost : Statement (Instr.boltPost) := fun _ => trivial
theorem accumJoin : Statement (Instr.accumJoin) := fun _ => trivial
theorem accumGrant : Statement (Instr.accumGrant) := fun _ => trivial
theorem partialEvict : Statement (Instr.partialEvict) := fun _ => trivial
theorem coreRecall : Statement (Instr.coreRecall) := fun _ => trivial
theorem sliceAtomicOp : Statement (Instr.sliceAtomicOp) := fun _ => trivial
theorem routerMerge : Statement (Instr.routerMerge) := fun _ => trivial
theorem rds : Statement (Instr.rds) := fun _ => trivial
theorem rdx : Statement (Instr.rdx) := fun _ => trivial
theorem upg : Statement (Instr.upg) := fun _ => trivial
theorem ajn : Statement (Instr.ajn) := fun _ => trivial
theorem aev : Statement (Instr.aev) := fun _ => trivial
theorem putMsg : Statement (Instr.putMsg) := fun _ => trivial
theorem wb : Statement (Instr.wb) := fun _ => trivial
theorem dataMsg : Statement (Instr.dataMsg) := fun _ => trivial
theorem gnt : Statement (Instr.gnt) := fun _ => trivial
theorem agnt : Statement (Instr.agnt) := fun _ => trivial
theorem fws : Statement (Instr.fws) := fun _ => trivial
theorem fwb : Statement (Instr.fwb) := fun _ => trivial
theorem fack : Statement (Instr.fack) := fun _ => trivial
theorem invMsg : Statement (Instr.invMsg) := fun _ => trivial
theorem iack : Statement (Instr.iack) := fun _ => trivial
theorem rcl : Statement (Instr.rcl) := fun _ => trivial
theorem plist : Statement (Instr.plist) := fun _ => trivial
theorem mrg : Statement (Instr.mrg) := fun _ => trivial
theorem wback : Statement (Instr.wback) := fun _ => trivial
theorem cmp : Statement (Instr.cmp) := fun _ => trivial
theorem hostPortRead : Statement (Instr.hostPortRead) := fun _ => trivial
theorem hostPortWrite : Statement (Instr.hostPortWrite) := fun _ => trivial
theorem hostScratchpadAccess : Statement (Instr.hostScratchpadAccess) := fun _ => trivial
theorem walkRequest : Statement (Instr.walkRequest) := fun _ => trivial
theorem walkComplete : Statement (Instr.walkComplete) := fun _ => trivial
theorem walkResend : Statement (Instr.walkResend) := fun _ => trivial
theorem jobAccept : Statement (Instr.jobAccept) := fun _ => trivial
theorem engineRequest : Statement (Instr.engineRequest) := fun _ => trivial
theorem jobRetire : Statement (Instr.jobRetire) := fun _ => trivial
theorem ecpyRetire : Statement (Instr.ecpyRetire) := fun _ => trivial
theorem walkBlock : Statement (Instr.walkBlock) := fun _ => trivial
theorem walkBTileWaitEnd : Statement (Instr.walkBTileWaitEnd) := fun _ => trivial
theorem walkOpenServed : Statement (Instr.walkOpenServed) := fun _ => trivial
theorem gleanPrefetchRow : Statement (Instr.gleanPrefetchRow) := fun _ => trivial
theorem messageTake : Statement (Instr.messageTake) := fun _ => trivial
theorem remoteMessageArrival : Statement (Instr.remoteMessageArrival) := fun _ => trivial
theorem rwrPerform : Statement (Instr.rwrPerform) := fun _ => trivial
theorem rwrBoltWrite : Statement (Instr.rwrBoltWrite) := fun _ => trivial
theorem ramoPerform : Statement (Instr.ramoPerform) := fun _ => trivial
theorem rmsgRun : Statement (Instr.rmsgRun) := fun _ => trivial
theorem remoteStatusArrival : Statement (Instr.remoteStatusArrival) := fun _ => trivial
theorem wakeArrival : Statement (Instr.wakeArrival) := fun _ => trivial
theorem flitCrcFail : Statement (Instr.flitCrcFail) := fun _ => trivial
theorem laneTrainingFail : Statement (Instr.laneTrainingFail) := fun _ => trivial
theorem linkDown : Statement (Instr.linkDown) := fun _ => trivial
theorem syncFlit : Statement (Instr.syncFlit) := fun _ => trivial
theorem recallAck : Statement (Instr.recallAck) := fun _ => trivial
theorem recallLost : Statement (Instr.recallLost) := fun _ => trivial
theorem monitorSample : Statement (Instr.monitorSample) := fun _ => trivial
theorem powerOn : Statement (Instr.powerOn) := fun _ => trivial
theorem deviceReset : Statement (Instr.deviceReset) := fun _ => trivial
theorem bootTreeSend : Statement (Instr.bootTreeSend) := fun _ => trivial
theorem chipForward : Statement (Instr.chipForward) := fun _ => trivial
theorem securityAlarm : Statement (Instr.securityAlarm) := fun _ => trivial
theorem thermalWarn : Statement (Instr.thermalWarn) := fun _ => trivial
theorem thermalTrip : Statement (Instr.thermalTrip) := fun _ => trivial
theorem tfltRelease : Statement (Instr.tfltRelease) := fun _ => trivial
theorem tfltNomapTrap : Statement (Instr.tfltNomapTrap) := fun _ => trivial
theorem bpoolWrite : Statement (Instr.bpoolWrite) := fun _ => trivial
theorem asrootWrite : Statement (Instr.asrootWrite) := fun _ => trivial
theorem stslotWrite : Statement (Instr.stslotWrite) := fun _ => trivial
theorem lsrWrite : Statement (Instr.lsrWrite) := fun _ => trivial
theorem moncfgClr : Statement (Instr.moncfgClr) := fun _ => trivial
theorem slctlPre : Statement (Instr.slctlPre) := fun _ => trivial
theorem slctlEnd : Statement (Instr.slctlEnd) := fun _ => trivial
theorem slctlRestore : Statement (Instr.slctlRestore) := fun _ => trivial
theorem ckctlFlush : Statement (Instr.ckctlFlush) := fun _ => trivial
theorem ckctlFlushDone : Statement (Instr.ckctlFlushDone) := fun _ => trivial
theorem tcmdLoad : Statement (Instr.tcmdLoad) := fun _ => trivial
theorem tcmdAttest : Statement (Instr.tcmdAttest) := fun _ => trivial
theorem tcmdEnroll : Statement (Instr.tcmdEnroll) := fun _ => trivial
theorem tcmdFwupd : Statement (Instr.tcmdFwupd) := fun _ => trivial
theorem launchDoorbell : Statement (Instr.launchDoorbell) := fun _ => trivial
theorem hostWakeWrite : Statement (Instr.hostWakeWrite) := fun _ => trivial
theorem routeTableWrite : Statement (Instr.routeTableWrite) := fun _ => trivial
theorem registerWrite : Statement (Instr.registerWrite) := fun _ => trivial
theorem illegalInstruction : Statement (Instr.illegalInstruction) := fun _ => trivial
theorem lineStep : Statement (Instr.lineStep) := fun _ => trivial

end Sys2Proof.Laws.RoundTrip
end

