-- ==== Sys2Proof/Safety.lean ====
section
/-!
DEFINITION. What counts as a safe step and a well-kept state: a step that goes on, and memory in its canonical form.
-/

namespace Sys2Proof.Machine

/-- The machine goes on: a step from this state answers a next state, neither a fault nor a refusal. -/
def State.GoesOn (s : State) : Prop := ∃ t, step s = .next t

/-- Memory keeps its canonical form: addresses strictly rise, and no byte that reads as an unlisted one is listed. -/
def State.MemoryCanonical (s : State) : Prop := Memory.wf s.mem = true

end Sys2Proof.Machine
end

