-- ==== Sys2Proof/Certificates/Slice0/Obligations.lean ====
section
/-!
DEFINITION. The statements of this row, made from the spec's numbered rules, and the terms that they are made in.
-/

open Sys2Proof Sys2Proof.Machine

/-! Integer instructions (chapter 5). -/

namespace Sys2Proof.Stated

/-- Destination and value of R99 and R100, with a and b the values of gA and gB. -/
def registerResult (s : State) : Instr → Option (BitVec 4 × W64)
  | .add d a b => some (d, s.rd a + s.rd b)
  | .sub d a b => some (d, s.rd a - s.rd b)
  | .addw d a b => some (d, ((s.rd a + s.rd b).extractLsb' 0 32).signExtend 64)
  | .subw d a b => some (d, ((s.rd a - s.rd b).extractLsb' 0 32).signExtend 64)
  | .and_ d a b => some (d, s.rd a &&& s.rd b)
  | .or_ d a b => some (d, s.rd a ||| s.rd b)
  | .xor_ d a b => some (d, s.rd a ^^^ s.rd b)
  | .andn d a b => some (d, s.rd a &&& ~~~s.rd b)
  | .orn d a b => some (d, s.rd a ||| ~~~s.rd b)
  | .xnor d a b => some (d, ~~~(s.rd a ^^^ s.rd b))
  | .sll d a b => some (d, s.rd a <<< ((s.rd b).extractLsb' 0 6).toNat)
  | .srl d a b => some (d, s.rd a >>> ((s.rd b).extractLsb' 0 6).toNat)
  | .sra d a b => some (d, (s.rd a).sshiftRight ((s.rd b).extractLsb' 0 6).toNat)
  | .rol d a b => some (d, (s.rd a).rotateLeft ((s.rd b).extractLsb' 0 6).toNat)
  | .ror d a b => some (d, (s.rd a).rotateRight ((s.rd b).extractLsb' 0 6).toNat)
  | .sllw d a b => some (d, (((s.rd a).extractLsb' 0 32) <<< ((s.rd b).extractLsb' 0 5).toNat).signExtend 64)
  | .srlw d a b => some (d, (((s.rd a).extractLsb' 0 32) >>> ((s.rd b).extractLsb' 0 5).toNat).signExtend 64)
  | .sraw d a b => some (d, (((s.rd a).extractLsb' 0 32).sshiftRight ((s.rd b).extractLsb' 0 5).toNat).signExtend 64)
  | _ => none

/-- Destination and value of R101 and R102: the 128-bit products, and the quotients and remainders with their boundary
cases. -/
def productResult (s : State) : Instr → Option (BitVec 4 × W64)
  | .mul d a b => some (d, s.rd a * s.rd b)
  | .mulh d a b => some (d, ((s.rd a).signExtend 128 * (s.rd b).signExtend 128).extractLsb' 64 64)
  | .mulhu d a b => some (d, ((s.rd a).setWidth 128 * (s.rd b).setWidth 128).extractLsb' 64 64)
  | .mulw d a b => some (d, ((s.rd a).extractLsb' 0 32 * (s.rd b).extractLsb' 0 32).signExtend 64)
  | .div d a b => some (d, if s.rd b = 0 then 0xFFFFFFFFFFFFFFFF else (s.rd a).sdiv (s.rd b))
  | .divu d a b => some (d, if s.rd b = 0 then 0xFFFFFFFFFFFFFFFF else s.rd a / s.rd b)
  | .rem d a b => some (d, if s.rd b = 0 then s.rd a else (s.rd a).srem (s.rd b))
  | .remu d a b => some (d, if s.rd b = 0 then s.rd a else s.rd a % s.rd b)
  | _ => none

/-- Destination and value of R103, R107, R109 and R110. -/
def constantResult (s : State) : Instr → Option (BitVec 4 × W64)
  | .addi d a i => some (d, s.rd a + i.signExtend 64)
  | .andi d a i => some (d, s.rd a &&& i.signExtend 64)
  | .ori d a i => some (d, s.rd a ||| i.signExtend 64)
  | .xori d a i => some (d, s.rd a ^^^ i.signExtend 64)
  | .slli d a n => some (d, s.rd a <<< n.toNat)
  | .srli d a n => some (d, s.rd a >>> n.toNat)
  | .srai d a n => some (d, (s.rd a).sshiftRight n.toNat)
  | .hash d a b =>
    let x0 := s.rd a ^^^ s.rd b
    let x1 := (x0 ^^^ (x0 >>> 31)) * 0x9E6B5A13C4F27D31
    let x2 := (x1 ^^^ (x1 >>> 29)) * 0xD3A264C17B95E80F
    some (d, x2 ^^^ (x2 >>> 32))
  | .slt d a b => some (d, if (s.rd a).toInt < (s.rd b).toInt then 1 else 0)
  | .sltu d a b => some (d, if (s.rd a).toNat < (s.rd b).toNat then 1 else 0)
  | .seq d a b => some (d, if s.rd a = s.rd b then 1 else 0)
  | .sel d c a b => some (d, if s.rd c = 0 then s.rd b else s.rd a)
  | .hset d h imm => some (d, imm.setWidth 64 <<< (16 * h.toNat))
  | .hins d h imm => some (d, (s.rd d &&& ~~~(0xFFFF#64 <<< (16 * h.toNat))) ||| (imm.setWidth 64 <<< (16 * h.toNat)))
  | _ => none

/-- The bit at place n of the result of R105 and R106, for the instructions whose results those rules give bit by bit. -/
def bitResult (s : State) : Instr → Option (BitVec 4 × (Nat → Bool))
  | .brev d a => some (d, fun n => (s.rd a).getLsbD (63 - n))
  | .bswap d a => some (d, fun n => (s.rd a).getLsbD (8 * (7 - n / 8) + n % 8))
  | .bext d a c =>
    let pos := ((s.rd c).extractLsb' 0 6).toNat
    let w := ((s.rd c).extractLsb' 8 6).toNat + 1
    some (d, fun n => if n < w then (s.rd a).getLsbD (pos + n) else (s.rd c).getLsbD 15 && (s.rd a).getLsbD (pos + w - 1))
  | .bins d b c v =>
    let pos := ((s.rd c).extractLsb' 0 6).toNat
    let w := ((s.rd c).extractLsb' 8 6).toNat + 1
    some (d, fun n => if pos ≤ n ∧ n < pos + w then (s.rd v).getLsbD (n - pos) else (s.rd b).getLsbD n)
  | _ => none

/-- The count of R105, as a property of the value counted. -/
def countResult (s : State) : Instr → Option (BitVec 4 × (Nat → Prop))
  | .clz d a => some (d, fun n => n ≤ 64 ∧ (∀ i, 64 - n ≤ i → (s.rd a).getLsbD i = false) ∧ (n < 64 → (s.rd a).getLsbD (63 - n) = true))
  | .ctz d a => some (d, fun n => n ≤ 64 ∧ (∀ i, i < n → (s.rd a).getLsbD i = false) ∧ (n < 64 → (s.rd a).getLsbD n = true))
  | .popc d a => some (d, fun n => n = ((List.range 64).filter (fun i => (s.rd a).getLsbD i)).length)
  | _ => none

/-- Where a compare and branch of R111 goes. -/
def branchResult (s : State) : Instr → Option (BitVec 15 × Prop)
  | .beq a b off => some (off, s.rd a = s.rd b)
  | .bne a b off => some (off, s.rd a ≠ s.rd b)
  | .blt a b off => some (off, (s.rd a).toInt < (s.rd b).toInt)
  | .bge a b off => some (off, (s.rd b).toInt ≤ (s.rd a).toInt)
  | .bltu a b off => some (off, (s.rd a).toNat < (s.rd b).toNat)
  | .bgeu a b off => some (off, (s.rd b).toNat ≤ (s.rd a).toNat)
  | _ => none

/-- The two low bits of an instruction address are zero (R21). -/
def wordAddress (a : W64) : Prop := a.toNat % 4 = 0

/-- State t differs from s in the running context alone, whose register d holds v (g0 discards it) and whose PC has moved
past the instruction; every other register, dead mark, status field, counter and trap register of it, every other context
and unit, and every byte of memory at device scope is as before. -/
def onlyRegister (s t : State) (d : BitVec 4) (v : W64) : Prop :=
  t.rd d = (if d = 0 then 0 else v) ∧ (∀ r, r ≠ d → t.rd r = s.rd r) ∧ t.me.pc = s.me.pc + 4
    ∧ (∀ r : BitVec 4, r ≠ d → t.me.dead.getLsbD r.toNat = s.me.dead.getLsbD r.toNat)
    ∧ t.gsr s.cur = s.gsr s.cur ∧ t.me.tmask = s.me.tmask ∧ t.me.evc = s.me.evc ∧ t.me.tepc = s.me.tepc ∧ t.me.st = s.me.st
    ∧ (∀ c, c ≠ s.cur → t.ctx c = s.ctx c)
    ∧ { t with ctxs := [] } = { s with ctxs := [] }
    ∧ (∀ a, t.cohRead a 1 = s.cohRead a 1)

end Sys2Proof.Stated

open Sys2Proof.Stated

/-- R20, R27, R97: g0 reads as zero; what writing one register and moving past the instruction leaves, where a write to g0 leaves nothing
written. -/
def Obligations.RegisterWriteFrame : Prop :=
  (∀ s : State, s.rd 0 = 0) ∧ ∀ (s : State) (d : BitVec 4) (v : W64), onlyRegister s (s.put d v) d v

/-- R99, R100: with no prefix pending, each register operation writes its value to gD alone. -/
def Sys2Proof.Stated.RegisterOperations : Prop :=
  ∀ (i : Instr) (s : State) (d : BitVec 4) (v : W64), s.me.pp = false → registerResult s i = some (d, v) →
    exec i s = .next (s.put d v)

/-- R101, R102: multiplication and division. -/
def Sys2Proof.Stated.MultiplyDivide : Prop :=
  ∀ (i : Instr) (s : State) (d : BitVec 4) (v : W64), s.me.pp = false → productResult s i = some (d, v) →
    exec i s = .next (s.put d v)

/-- R103, R107, R109, R110: immediates, HASH, compares, selects and constants. -/
def Sys2Proof.Stated.ImmediatesAndSelects : Prop :=
  ∀ (i : Instr) (s : State) (d : BitVec 4) (v : W64), s.me.pp = false → constantResult s i = some (d, v) →
    exec i s = .next (s.put d v)

/-- R105, R106: BREV, BSWAP, BEXT and BINS, bit by bit. -/
def Sys2Proof.Stated.BitFields : Prop :=
  ∀ (i : Instr) (s : State) (d : BitVec 4) (f : Nat → Bool), s.me.pp = false → bitResult s i = some (d, f) →
    ∃ v : W64, exec i s = .next (s.put d v) ∧ ∀ n, n < 64 → v.getLsbD n = f n

/-- R105: CLZ, CTZ and POPC count bits. -/
def Sys2Proof.Stated.BitCounts : Prop :=
  ∀ (i : Instr) (s : State) (d : BitVec 4) (p : Nat → Prop), s.me.pp = false → countResult s i = some (d, p) →
    ∃ n : Nat, exec i s = .next (s.put d (BitVec.ofNat 64 n)) ∧ p n

/-- R108: CRC folds the bytes of gV into gC[31:0], lowest byte first; the upper half of gC is ignored, and n bytes at once
give what n folds of one byte give. -/
def Sys2Proof.Stated.CrcByBytes : Prop :=
  ∀ (s : State) (d c v z : BitVec 4), s.me.pp = false →
    exec (.crc d c v z) s = .next (s.put d (((List.range (2 ^ z.toNat)).foldl
      (fun (x : W32) k => (List.range 8).foldl (fun (y : W32) _ => if y.getLsbD 0 then (y >>> 1) ^^^ 0x82F63B78 else y >>> 1)
        (x ^^^ (((s.rd v).extractLsb' (8 * k) 8).setWidth 32))) ((s.rd c).extractLsb' 0 32)).setWidth 64))

/-- R105, R106, R108: bit fields, counts and the CRC fold. -/
def Sys2Proof.Stated.BitOperations : Prop := BitFields ∧ BitCounts ∧ CrcByBytes

/-- R111: a branch writes no register; it goes to its target or past itself. -/
def Sys2Proof.Stated.Branches : Prop :=
  ∀ (i : Instr) (s : State) (off : BitVec 15) (taken : Prop), s.me.pp = false → branchResult s i = some (off, taken) →
    (taken → exec i s = .next (s.setMe { s.me with pc := s.me.pc + 4 * off.signExtend 64 })) ∧
    (¬ taken → exec i s = .next (s.setMe { s.me with pc := s.me.pc + 4 }))

/-- R28, R112: JAL kills the registers of TMASK, links and jumps. -/
def Sys2Proof.Stated.JumpAndLink : Prop :=
  ∀ (s : State) (d : BitVec 4) (off : BitVec 22), s.me.pp = false →
    ∃ t, exec (.jal d off) s = .next t ∧ (∃ g de, t.me = { s.me with pc := s.me.pc + 4 * off.signExtend 64, g := g, dead := de })
      ∧ t.me.rd d = (if d = 0 then 0 else s.me.pc + 4)
      ∧ (∀ r : BitVec 4, r ≠ 0 → t.me.dead.getLsbD r.toNat = (r ≠ d && (s.me.dead.getLsbD r.toNat || s.me.tmask.getLsbD r.toNat)))
      ∧ (∀ r : BitVec 4, r ≠ d → t.me.dead.getLsbD r.toNat = false → t.me.rd r = s.me.rd r)
      ∧ t.me.evc = s.me.evc ∧ t.gsr s.cur = s.gsr s.cur ∧ (∀ c, c ≠ s.cur → t.ctx c = s.ctx c)
      ∧ { t with ctxs := [] } = { s with ctxs := [] } ∧ (∀ a, t.cohRead a 1 = s.cohRead a 1)

/-- R113, R114: JALR and RET go to a word address, JALR linking and RET killing the registers of TMASK. -/
def Sys2Proof.Stated.JumpsThroughRegisters : Prop :=
  ∀ (s : State) (d a : BitVec 4), s.me.pp = false → wordAddress (s.rd a) →
    exec (.jalr d a) s = .next (s.setMe { s.me.wr d (s.me.pc + 4) with pc := s.rd a }) ∧
    exec (.ret a) s = .next (s.setMe { s.me with dead := s.me.dead ||| s.me.tmask, pc := s.rd a })

/-- R21, R98: JALR and RET to any other address take the misaligned-fetch trap, exact. -/
def Sys2Proof.Stated.MisalignedFetch : Prop :=
  ∀ (s : State) (d a : BitVec 4), s.me.pp = false → ¬ wordAddress (s.rd a) →
    let t := s.takeTrap s.cur { cause := 0x04, cls := 0, tia := s.me.pc, tepc := s.me.pc, tval := s.rd a }
    exec (.jalr d a) s = .next t ∧ exec (.ret a) s = .next t

/-- R21, R28, R112 to R114: JAL, JALR and RET, and their misaligned-fetch traps. -/
def Sys2Proof.Stated.Jumps : Prop := JumpAndLink ∧ JumpsThroughRegisters ∧ MisalignedFetch

/-- R99 to R102: the results of the register, shift, multiply and divide instructions. -/
def Obligations.ArithmeticAndLogic : Prop := RegisterOperations ∧ MultiplyDivide

/-- R103, R105 to R110: constants, selects, bit fields, counts and the CRC. -/
def Obligations.ConstantsAndBits : Prop := ImmediatesAndSelects ∧ BitOperations

/-- R21, R28, R111 to R114: branches, jumps, and the misaligned-fetch trap. -/
def Obligations.ControlTransfers : Prop := Branches ∧ Jumps

/-! Floating point, conversion, the prefix and the system instructions (chapters 3, 4, 6 and 20). -/

namespace Sys2Proof.Stated

/-- The row of R117 that an instruction of majors 0x0E and 0x0F has, its default format, its destination, and its result
with the conditions that it raises, by payload and rounding. -/
def formatResult (s : State) : Instr → Option (Accept × Nat × BitVec 4 × (BitVec 12 → Rnd → W64 × Conds))
  | .fadd d a b => some ({ fmts := [0] }, 0, d, fun _ r => zcode (fadd r (f32 (s.rd a)) (f32 (s.rd b))))
  | .fsub d a b => some ({ fmts := [0] }, 0, d, fun _ r => zcode (fsub r (f32 (s.rd a)) (f32 (s.rd b))))
  | .fmul d a b => some ({ fmts := [0] }, 0, d, fun _ r => zcode (fmul r (f32 (s.rd a)) (f32 (s.rd b))))
  | .fdiv d a b => some ({ fmts := [0] }, 0, d, fun _ r => zcode (fdiv r (f32 (s.rd a)) (f32 (s.rd b))))
  | .fsqrt d a => some ({ fmts := [0] }, 0, d, fun _ r => zcode (fsqrt r (f32 (s.rd a))))
  | .fma d a b c => some ({ fmts := [0] }, 0, d, fun _ r => zcode (ffma r (f32 (s.rd a)) (f32 (s.rd b)) (f32 (s.rd c))))
  | .fmin d a b => some ({ fmts := [0] }, 0, d, fun _ _ => zcode (fmaxmin fp32 false (f32 (s.rd a)) (f32 (s.rd b))))
  | .fmax d a b => some ({ fmts := [0] }, 0, d, fun _ _ => zcode (fmaxmin fp32 true (f32 (s.rd a)) (f32 (s.rd b))))
  | .fsgnj d a b m => some ({ fmts := [0] }, 0, d, fun _ _ =>
      (0#32 ++ (if m = 0 then (s.rd b).extractLsb' 31 1 else if m = 1 then ~~~((s.rd b).extractLsb' 31 1)
        else (s.rd a).extractLsb' 31 1 ^^^ (s.rd b).extractLsb' 31 1) ++ (s.rd a).extractLsb' 0 31, 0))
  | .feq d a b => some ({ fmts := [0] }, 0, d, fun _ _ =>
      (if (feq (f32 (s.rd a)) (f32 (s.rd b))).1 then 1 else 0, (feq (f32 (s.rd a)) (f32 (s.rd b))).2))
  | .flt d a b => some ({ fmts := [0] }, 0, d, fun _ _ =>
      (if (flt (f32 (s.rd a)) (f32 (s.rd b))).1 then 1 else 0, (flt (f32 (s.rd a)) (f32 (s.rd b))).2))
  | .fle d a b => some ({ fmts := [0] }, 0, d, fun _ _ =>
      (if (fle (f32 (s.rd a)) (f32 (s.rd b))).1 then 1 else 0, (fle (f32 (s.rd a)) (f32 (s.rd b))).2))
  | .cvtf d a u => some ({ fmts := [0, 1, 2, 3, 4] }, 0, d, fun p r =>
      zcode (roundInt (fmtOf (plFmt p)) r (if u = 1 then ((s.rd a).toNat : Int) else (s.rd a).toInt)))
  | .cvti d a => some ({ fmts := [5, 6] }, 6, d, fun p r =>
      (BitVec.ofInt 64 (toInt (fmtWidth (plFmt p)) r (f32 (s.rd a))).1, (toInt (fmtWidth (plFmt p)) r (f32 (s.rd a))).2))
  | .narrow d a b => some ({ fmts := [1, 2, 3, 4], scale1 := true }, 1, d, fun p r =>
      zcode (narrow (plFmt p) r (if plScale p = 1 then some ((s.rd b).toNat % 256) else none) (f32 (s.rd a))))
  | .widen d a b => some ({ fmts := [1, 2, 3, 4, 5], scale1 := true }, 1, d, fun p _ =>
      zcode (widen (plFmt p) (if plScale p = 1 then some ((s.rd b).toNat % 256) else none) (s.rd a).toNat, 0))
  | .pack d a b c => some ({ fmts := [0, 1, 2, 3, 4, 5, 6], rounds := [0], sat := false }, 1, d, fun p _ =>
      (packElem (fmtWidth (plFmt p)) (s.rd a) (s.rd b) (s.rd c), 0))
  | .unpack d a b => some ({ fmts := [0, 1, 2, 3, 4, 5, 6], rounds := [0], sat := false }, 1, d, fun p _ =>
      (unpackElem (plFmt p) (s.rd a) (s.rd b), 0))
  | .mkscl d a => some ({ fmts := [4], scale1 := true, rounds := [0, 1, 2, 3], sat := false }, 4, d, fun p _ =>
      zcode (mkscl (plRound p) (f32 (s.rd a))))
  | _ => none

/-- The FP32 code is a NaN. -/
def isNan32 (a : W64) : Prop := a.toNat % 2 ^ 31 > 0x7F800000
/-- It is a signalling NaN. -/
def isSignalling32 (a : W64) : Prop := isNan32 a ∧ a.getLsbD 22 = false
/-- A number that orders the FP32 codes that are no NaN by value, with −0 and +0 equal. -/
def order32 (a : W64) : Int := if a.getLsbD 31 then -((a.toNat % 2 ^ 31 : Nat) : Int) else ((a.toNat % 2 ^ 31 : Nat) : Int)

/-- Every grain instruction but those of majors 0x0E and 0x0F. -/
def notFormatSensitive : Instr → Bool
  | .add .. | .sub .. | .addw .. | .subw .. | .and_ .. | .or_ .. | .xor_ .. | .andn .. | .orn .. | .xnor .. | .sll ..
  | .srl .. | .sra .. | .rol .. | .ror .. | .sllw .. | .srlw .. | .sraw .. | .mul .. | .mulh .. | .mulhu ..
  | .mulw .. | .div .. | .divu .. | .rem .. | .remu .. | .addi .. | .andi .. | .ori .. | .xori .. | .slli ..
  | .srli .. | .srai .. | .clz .. | .ctz .. | .popc .. | .brev .. | .bswap .. | .bext .. | .bins .. | .hash ..
  | .crc .. | .slt .. | .sltu .. | .seq .. | .sel .. | .hset .. | .hins .. | .beq .. | .bne .. | .blt .. | .bge ..
  | .bltu .. | .bgeu .. | .jal .. | .jalr .. | .ret .. | .lb .. | .lbu .. | .lh .. | .lhu .. | .lw .. | .lwu ..
  | .ld .. | .sb .. | .sh .. | .sw .. | .sd .. | .pref .. | .isect .. | .fmt .. | .nop | .scall .. | .sret | .trap ..
  | .idle | .csrr .. | .csrw .. | .cstart .. | .cstop .. | .creap .. | .spawn .. | .rfork .. | .join .. | .jwait ..
  | .launch .. | .lr .. | .sc .. | .fxswp .. | .fxadd .. | .fxand .. | .fxor .. | .fxxor .. | .fxmin .. | .fxmax ..
  | .fxminu .. | .fxmaxu .. | .fxcas .. | .amofadd .. | .wrs | .ldfe .. | .stfe .. | .ldff .. | .feset .. | .fence ..
  | .gadd .. | .barc .. | .barw .. | .migr .. | .bopen .. | .bvalid .. | .sealBolt .. | .bqueryStatus ..
  | .bqueryMaskLow .. | .bqueryMaskHigh .. | .babort .. | .bwait .. | .btime .. | .cflush .. | .cinv .. | .cdisc ..
  | .tlbinv .. | .atrans .. | .ejob .. | .ewaitWait .. | .ewaitPoll .. | .ecpy .. | .gleanOpen .. | .gleanClose ..
  | .gleanFlip .. | .gleanQuery .. | .tgsub .. | .tgnext .. | .tgdone .. | .tgdoneRequeue .. | .wbind ..
  | .wbindUnbind .. | .wpush .. | .wpull .. | .wdone .. | .amotopk .. | .amobinc .. | .msamp .. | .rwr .. | .ramo ..
  | .rmsg .. | .rwake .. | .rlendLend .. | .rlendRecall .. | .rlendQuery .. | .ckptArm .. | .ckptDisarm ..
  | .ckptQuery .. | .twilCouple .. | .twilUncouple .. | .frecResume .. | .frecSkip .. | .frecGoto .. | .frecSave ..
  | .frecLoad .. | .frecLresume .. | .frecLdrop .. | .frecLend .. | .frecLring .. | .frecGpre .. | .frecGrest .. => true
  | _ => false

/-- The exact trap of the running instruction: its cause and value, with the instruction's own address twice, and every register
as before (R78, R118, R404, R405). -/
def exactTrap (s : State) (cause cls : BitVec 8) (v : W64) : State :=
  s.takeTrap s.cur { cause := cause, cls := cls, tia := s.me.pc, tepc := s.me.pc, tval := v }

/-- The steward of a core neither waits in IDLE nor is parked in WRS, so that an event addressed to it ends no wait of it (R137, R181). -/
def stewardAwake (s : State) (k : CoreId) : Prop := (s.ctx (stewardOf k)).st ≠ .waiting ∧ (s.ctx (stewardOf k)).st ≠ .parked

end Sys2Proof.Stated

/-- R43, R80, R116, R117: a format-sensitive instruction whose payload, pending or default, is accepted writes its result to gD,
consumes the prefix and counts its conditions once. -/
def Sys2Proof.Stated.FormatSensitive : Prop :=
  ∀ (i : Instr) (s : State) (k : Accept) (dflt : Nat) (d : BitVec 4) (f : BitVec 12 → Rnd → W64 × Conds),
    formatResult s i = some (k, dflt, d, f) →
    let p : BitVec 12 := if s.me.pp then s.me.pfmt else BitVec.ofNat 12 (256 * dflt)
    (s.me.pp = true → k.ok p = true) →
    let vc := f p (plRnd p ((s.rd d).toNat % 65536))
    exec i s = .next ((s.setMe { s.me.wr d vc.1 with pc := s.me.pc + 4, pp := false }).count s.cur vc.2)

/-- R80, R117: a pending payload that the instruction does not accept takes the illegal-prefix trap. -/
def Sys2Proof.Stated.RefusedPayload : Prop :=
  ∀ (i : Instr) (s : State) (k : Accept) (dflt : Nat) (d : BitVec 4) (f : BitVec 12 → Rnd → W64 × Conds),
    formatResult s i = some (k, dflt, d, f) → s.me.pp = true → k.ok s.me.pfmt = false →
    exec i s = .next (exactTrap s 0x02 0 ((wordOfInstr i).setWidth 64))

/-- R43, R80, R116, R117: format-sensitive instructions, with accepted and with refused payloads. -/
def Obligations.FormatSensitiveInstructions : Prop := FormatSensitive ∧ RefusedPayload

/-- R80, R98: with a prefix pending, an instruction that is not format-sensitive takes the illegal-prefix trap at its issue. -/
def Sys2Proof.Stated.PrefixPending : Prop :=
  ∀ (i : Instr) (s : State), notFormatSensitive i = true → s.me.pp = true → s.stage = 0 →
    exec i s = .next (exactTrap s 0x02 0 ((wordOfInstr i).setWidth 64))

/-- R128: FEQ, FLT and FLE on FP32 codes: 0 with a NaN, else the order of the values; invalid counts in EVC0, for FEQ only with a
signalling NaN. -/
def Sys2Proof.Stated.FpCompares : Prop :=
  ∀ (s : State) (d a b : BitVec 4), s.me.pp = false →
    let nan := isNan32 (s.rd a) ∨ isNan32 (s.rd b)
    let sig := isSignalling32 (s.rd a) ∨ isSignalling32 (s.rd b)
    let done (v : W64) (c : Conds) : Host.Outcome State Fault Refusal := .next ((s.put d v).count s.cur c)
    (¬ nan → exec (.feq d a b) s = done (if order32 (s.rd a) = order32 (s.rd b) then 1 else 0) 0
      ∧ exec (.flt d a b) s = done (if order32 (s.rd a) < order32 (s.rd b) then 1 else 0) 0
      ∧ exec (.fle d a b) s = done (if order32 (s.rd a) ≤ order32 (s.rd b) then 1 else 0) 0) ∧
    (nan → exec (.flt d a b) s = done 0 1 ∧ exec (.fle d a b) s = done 0 1) ∧
    (sig → exec (.feq d a b) s = done 0 1) ∧ (nan ∧ ¬ sig → exec (.feq d a b) s = done 0 0)

/-- R131: PACK replaces element k of gB and UNPACK takes it, k being gK modulo the number of elements, under each accepted format. -/
def Sys2Proof.Stated.PackUnpack : Prop :=
  ∀ (s : State) (d a b c : BitVec 4),
    let p : BitVec 12 := if s.me.pp then s.me.pfmt else 0x100
    let w := fmtWidth (plFmt p)
    let at_ (k : W64) := w * ((k.toNat % 64) % (64 / w))
    let t (v : W64) := s.setMe { s.me.wr d v with pc := s.me.pc + 4, pp := false }
    plFmt p < 7 → plScale p = 0 → plRound p = 0 → plSat p = false → plSparse p = 0 →
      (∃ v : W64, exec (.pack d a b c) s = .next (t v) ∧ ∀ n, n < 64 →
        v.getLsbD n = if at_ (s.rd c) ≤ n ∧ n < at_ (s.rd c) + w then (s.rd b).getLsbD (n - at_ (s.rd c)) else (s.rd a).getLsbD n) ∧
      (∃ v : W64, exec (.unpack d a b) s = .next (t v) ∧ ∀ n, n < 64 →
        v.getLsbD n = if n < w then (s.rd a).getLsbD (at_ (s.rd b) + n)
          else (plFmt p = 5 ∨ plFmt p = 6) && (s.rd a).getLsbD (at_ (s.rd b) + w - 1))

/-- R133: ISECT's masks, count and advance bits, lane by lane; every other bit of gD is zero. -/
def Sys2Proof.Stated.IndexIntersection : Prop :=
  ∀ (s : State) (d a b w : BitVec 4), s.me.pp = false → w.toNat < 2 →
    let n := if w = 1 then 2 else 4
    let e := 64 / n
    let la (i : Nat) := (s.rd a).toNat / 2 ^ (e * i) % 2 ^ e
    let lb (i : Nat) := (s.rd b).toNat / 2 ^ (e * i) % 2 ^ e
    let am (i : Nat) : Prop := i < n ∧ la i ≠ 2 ^ e - 1 ∧ ∃ j, j < n ∧ lb j = la i
    let bm (i : Nat) : Prop := i < n ∧ lb i ≠ 2 ^ e - 1 ∧ ∃ j, j < n ∧ la j = lb i
    ∃ v : W64, exec (.isect d a b w) s = .next (s.put d v)
      ∧ (∀ i, i < 4 → (v.getLsbD i = true ↔ am i) ∧ (v.getLsbD (4 + i) = true ↔ bm i))
      ∧ v.toNat / 256 % 8 = ((List.range 4).filter (fun i => v.getLsbD i)).length
      ∧ (v.getLsbD 11 = true ↔ la (n - 1) ≤ lb (n - 1)) ∧ (v.getLsbD 12 = true ↔ lb (n - 1) ≤ la (n - 1)) ∧ v.toNat < 2 ^ 13

/-- R131, R133: PACK, UNPACK and ISECT. -/
def Sys2Proof.Stated.PackedElements : Prop := PackUnpack ∧ IndexIntersection

/-- R56: a code of E4M3, E5M2 or E2M1 widened to FP32 and narrowed back is the code again, in every rounding mode and with either
value of SAT; widening raises nothing (the clause of R56 on BF16 is not part of this statement). -/
def Obligations.NarrowFormatsRoundTrip : Prop :=
  ∀ (n mode rnd : Nat) (sat : Bool), 2 ≤ n → n ≤ 4 → mode < 5 → ∀ c, c < 2 ^ fmtWidth n →
    (narrow n { mode := mode, rnd := rnd % 65536, sat := sat } none (widen n none c)).1 = c

/-- R80, R134, R135: FMT sets the prefix; NOP only advances; SCALL and TRAP trap past themselves, TRAP only when gC is not zero. -/
def Sys2Proof.Stated.PrefixAndCalls : Prop :=
  ∀ (s : State), s.me.pp = false →
    let past (cause : BitVec 8) (v : W64) := s.takeTrap s.cur { cause := cause, cls := 0, tia := s.me.pc, tepc := s.me.pc + 4, tval := v }
    (∀ p, exec (.fmt p) s = .next (s.setMe { s.me with pc := s.me.pc + 4, pfmt := p, pp := true })) ∧
    exec .nop s = .next (s.setMe { s.me with pc := s.me.pc + 4 }) ∧
    (∀ a, exec (.scall a) s = .next (past 0x09 (s.rd a))) ∧
    (∀ c v, s.rd c = 0 → exec (.trap c v) s = .next (s.setMe { s.me with pc := s.me.pc + 4 })) ∧
    (∀ c v, s.rd c ≠ 0 → exec (.trap c v) s = .next (past 0x0A (s.rd v)))

/-- The stores that a context has out as it resumes from a trap: everything after is ordered after them (R321). -/
def Sys2Proof.Stated.orderedStores (l : List Pend) : List Pend := l.map (fun p => { p with all := true })

/-- R136, R405, R407: SRET in context 0 goes to STEPC and clears INH; in another privileged context it goes to TEPC at EPRIV; at user
level it takes the privilege trap, and at a TEPC that is no word address the misaligned-fetch trap. -/
def Sys2Proof.Stated.ReturnFromTrap : Prop :=
  ∀ (s : State), s.me.pp = false →
    (s.cur % 16 = 0 → exec .sret s = .next ((s.setCore (coreOf s.cur) { s.core (coreOf s.cur) with inh := false, own := false }).setMe
        { s.me with pc := (s.core (coreOf s.cur)).stepc, pend := orderedStores s.me.pend })) ∧
    (s.cur % 16 ≠ 0 → s.me.priv = true → s.me.tepc.toNat % 4 = 0 →
      exec .sret s = .next (s.setMe { s.me with pc := s.me.tepc, priv := s.me.epriv, pend := orderedStores s.me.pend })) ∧
    (s.cur % 16 ≠ 0 → s.me.priv = true → s.me.tepc.toNat % 4 ≠ 0 → exec .sret s = .next (exactTrap s 0x04 0 s.me.tepc)) ∧
    (s.cur % 16 ≠ 0 → s.me.priv = false → exec .sret s = .next (exactTrap s 0x03 0 ((wordOfInstr .sret).setWidth 64)))

/-- R404, R405, R407: a context with no twin that takes a trap keeps its registers; any but a steward is Trapped with its record
queued at the steward, behind those of earlier cycles and among those of its own cycle in ascending context number; and a steward
outside its trap entry enters it at STVEC, with STEPC the resume address. What an interrupted access had begun is forgotten. -/
def Sys2Proof.Stated.TrapTaken : Prop :=
  ∀ (s : State) (c : CtxId) (r : TrapRec), s.twin c = none → (s.ctx c).resv = none →
    let x : Ctx := { s.ctx c with tia := r.tia, tepc := r.tepc, tval := r.tval, tcause := r.cause, tclass := r.cls, epriv := (s.ctx c).priv
                                  srcBytes := [], load := none, walked := none, leaf := none, range := none, born := none
                                  acc := none, feTries := 0 }
    let k := s.core (coreOf c)
    let trapped (q new : List Nat) : State := (s.setCtx c { x with st := .trapped, why := .none, epoch := x.epoch + 1 }).setCore
      (coreOf c) { k with trapQ := q, trapIn := (s.cycle, new) }
    (c % 16 ≠ 0 → stewardAwake s (coreOf c) → k.trapIn.1 ≠ s.cycle → s.takeTrap c r = trapped (k.trapQ ++ [c % 16]) [c % 16]) ∧
    (∀ q n, c % 16 ≠ 0 → stewardAwake s (coreOf c) → k.trapIn = (s.cycle, [n]) → k.trapQ = q ++ [n] → n ∉ q → n ≠ c % 16 →
      s.takeTrap c r = if n < c % 16 then trapped (q ++ [n, c % 16]) [n, c % 16] else trapped (q ++ [c % 16, n]) [c % 16, n]) ∧
    (c % 16 = 0 → k.inh = false →
      s.takeTrap c r = (s.setCore (coreOf c) { k with own := true, stepc := r.tepc &&& ~~~3#64, inh := true }).setCtx c
        { x with pc := k.stvec, st := .issuing, why := .none, readyAt := s.cycle + 1 })

/-- R407: a trap of the steward while INH is 1 is a double trap: the core stops with every context Stopped, and each gang that has a
member there is about to end with STATUS 6. -/
def Sys2Proof.Stated.DoubleTrap : Prop :=
  ∀ (s : State) (c : CtxId) (r : TrapRec), s.twin c = none → c % 16 = 0 → (s.core (coreOf c)).inh = true →
    let t := s.takeTrap c r
    (t.core (coreOf c)).failed = true ∧ (∀ n, n < 16 → (t.ctx (c + n)).st = .stopped) ∧
    (∀ n g, n < 16 → (s.ctx (c + n)).gang = some g → ∃ info, { act := .ev (.gangEnd none g 6 info) } ∈ t.todo)

/-- R404, R405, R407: the taking of a trap, and the double trap. -/
def Obligations.TrapsTaken : Prop := TrapTaken ∧ DoubleTrap

/-- R78: a word that no rule assigns takes the illegal-instruction trap, with the word as its value. -/
def Sys2Proof.Stated.IllegalWord : Prop :=
  ∀ (s : State) (w : W32), exec .illegalInstruction { s with ev := .illegalInstruction w } =
    .next (exactTrap { s with ev := .illegalInstruction w } 0x01 0 (w.setWidth 64))

/-- R78, R80, R134, R135: FMT, NOP, SCALL, TRAP, and words that no rule assigns. -/
def Sys2Proof.Stated.PrefixCallsAndIllegalWords : Prop := PrefixAndCalls ∧ IllegalWord

/-- R137: IDLE in contexts 1 to 14 with no store outstanding ends the grain, PC past it; with a store outstanding it leaves the
rotation until there is none. -/
def Sys2Proof.Stated.IdleEndsGrain : Prop :=
  ∀ (s : State), s.me.pp = false →
    (s.me.pend ≠ [] → exec .idle s = .next (s.wait s.cur (.drain .idle))) ∧
    (s.me.pend = [] → s.me.why = .none → s.me.resv = none → 1 ≤ s.cur % 16 → s.cur % 16 ≤ 14 → (s.core (coreOf s.cur)).areap = false →
      stewardAwake s (coreOf s.cur) →
      exec .idle s = .next (match s.me.gang with
        | some g => (s.setMe { s.me with pc := s.me.pc + 4, st := .ended, why := .none, epoch := s.me.epoch + 1 }).soon (.gangRetire g)
        | none => s.setMe { s.me with pc := s.me.pc + 4, st := .ended, why := .none, epoch := s.me.epoch + 1 }))

/-- R66, R67: a counter never wraps: an increment that would pass 0xFFFF_FFFF leaves 0xFFFF_FFFF and sets SAT; a write sets COUNT
and clears SAT when bit 32 is 1. -/
def Obligations.EventCounters : Prop :=
  (∀ (e : Evc) (n : Nat), (e.add n).count.toNat = min (e.count.toNat + n) 0xFFFFFFFF ∧
    (e.add n).sat = (e.sat || decide (0xFFFFFFFF < e.count.toNat + n))) ∧
  (∀ (e : Evc) (v : W64), (e.write v).count = v.extractLsb' 0 32 ∧ (e.write v).sat = (e.sat && !v.getLsbD 32)) ∧
  (∀ a b : Evc, (a.join b).count.toNat = min (a.count.toNat + b.count.toNat) 0xFFFFFFFF ∧
    (a.join b).sat = (a.sat || b.sat || decide (0xFFFFFFFF < a.count.toNat + b.count.toNat)) ∧
    (a.gain b).count = (a.join b).count ∧ (a.gain b).sat = (a.sat || decide (0xFFFFFFFF < a.count.toNat + b.count.toNat)))

/-- R128, R131, R133: the float compares, packing and unpacking, and the intersection of index lists. -/
def Obligations.ComparesAndPackedElements : Prop := FpCompares ∧ PackedElements

/-- R80, R81, R78, R135: a prefix and what it precedes; calls; words that are no instruction. -/
def Obligations.PrefixesCallsAndIllegalWords : Prop := PrefixPending ∧ PrefixCallsAndIllegalWords

/-- R136, R137, R405, R407: the return from a trap, and IDLE. -/
def Obligations.ReturnsAndEnds : Prop := ReturnFromTrap ∧ IdleEndsGrain

/-! Control and status registers (chapters 2, 3, 6, 7, 12 and 20). -/

namespace Sys2Proof.Stated

/-- The registers whose number and value these statements give, as a context of a state reads them. -/
def csrValue (s : State) (c : CtxId) : List (Nat × W64) :=
  [(0x001, (s.ctx c).dead.setWidth 64 <<< 16 &&& 0xFFFE0000 ||| (s.ctx c).tmask.setWidth 64),
   (0x002, (s.ctx c).ocls.setWidth 64),
   (0x004, (s.ctx c).btmo.setWidth 64),
   (0x803, (s.core (coreOf c)).stslot.setWidth 64),
   (0x814, (s.core (coreOf c)).stvec), (0x815, (s.core (coreOf c)).stepc),
   (0x818, (s.core (coreOf c)).cecnt.setWidth 64), (0x819, (s.core (coreOf c)).wkval), (0x81A, (s.core (coreOf c)).wkcnt.setWidth 64),
   (0x842, (s.loom (clusterOf c)).cecnt.setWidth 64), (0x861, ((s.core (coreOf c)).tfQ.headD {}).va),
   (0x871, (s.cluster (clusterOf c)).mon.min.setWidth 64), (0x872, (s.cluster (clusterOf c)).mon.max.setWidth 64),
   (0x873, (s.cluster (clusterOf c)).mon.sum.setWidth 64), (0x874, (s.cluster (clusterOf c)).mon.cnt.setWidth 64),
   (0xC22, s.dev.incdrop.setWidth 64), (0xC23, s.dev.dtime + BitVec.ofNat 64 s.cycle)]

/-- A CSR number that no chapter assigns (R139), by the maps of chapters 2, 3, 7, 8, 9, 11, 12, 18, 20 and 22. -/
def csrAssigned (n : Nat) : Prop :=
  n ≤ 0x005 ∨ (0x010 ≤ n ∧ n ≤ 0x01F) ∨ (0x800 ≤ n ∧ n ≤ 0x803) ∨ (0x810 ≤ n ∧ n ≤ 0x81A) ∨ (0x820 ≤ n ∧ n ≤ 0x82F)
    ∨ (0x840 ≤ n ∧ n ≤ 0x842) ∨ n = 0x846 ∨ (0x850 ≤ n ∧ n ≤ 0x851) ∨ (0x860 ≤ n ∧ n ≤ 0x861) ∨ (0x870 ≤ n ∧ n ≤ 0x875)
    ∨ (0x880 ≤ n ∧ n ≤ 0x88F) ∨ (0x8A0 ≤ n ∧ n ≤ 0x8BF) ∨ (0xC00 ≤ n ∧ n ≤ 0xC0F) ∨ (0xC20 ≤ n ∧ n ≤ 0xC23)

end Sys2Proof.Stated

/-- R27, R138: CSRR writes to gD the value that the register reads as, and nothing else; the values of seventeen registers. -/
def Sys2Proof.Stated.CsrRead : Prop :=
  ∀ (s : State) (d : BitVec 4) (n : BitVec 12) (v : W64), s.me.pp = false → (n.toNat, v) ∈ csrValue s s.cur →
    exec (.csrr d n) s = .next (s.put d v)

/-- R139: CSRR and CSRW of a number that no chapter assigns take the illegal-instruction trap, at either level, and a read of any
other number writes gD. -/
def Sys2Proof.Stated.CsrUnassigned : Prop :=
  ∀ (s : State) (d a : BitVec 4) (n : BitVec 12), s.me.pp = false → s.stage = 0 →
    (¬ csrAssigned n.toNat →
      exec (.csrr d n) s = .next (exactTrap s 0x01 0 ((wordOfInstr (.csrr d n)).setWidth 64)) ∧
      exec (.csrw d a n) s = .next (exactTrap s 0x01 0 ((wordOfInstr (.csrw d a n)).setWidth 64))) ∧
    (csrAssigned n.toNat → ∃ v, exec (.csrr d n) s = .next (s.put d v))

/-- R27, R138, R139: CSRR of assigned and of unassigned numbers. -/
def Obligations.CsrReads : Prop := CsrRead ∧ CsrUnassigned

/-- R22, R25, R138: a write at user level to a register whose number has bit 11 set takes the privilege trap and writes nothing. -/
def Sys2Proof.Stated.CsrWritePrivilege : Prop :=
  ∀ (s : State) (d a : BitVec 4) (n : BitVec 12), s.me.pp = false → s.stage = 0 → csrAssigned n.toNat → n.getLsbD 11 = true →
    s.cur % 16 ≠ 0 → s.me.priv = false →
    exec (.csrw d a n) s = .next (exactTrap s 0x03 0 ((wordOfInstr (.csrw d a n)).setWidth 64))

/-- R22, R67, R138, R139: what a CSRW at user level writes: OCLS and FERC of GSR, TMASK, OCLS, BTMO and the event counters; gD takes
the old value, and a write of CORENO writes nothing. A counter takes its value after every increment of the cycle: the write is
an entry at the cycle's end. -/
def Sys2Proof.Stated.CsrWriteUser : Prop :=
  ∀ (s : State) (d a : BitVec 4) (n : Nat), s.me.pp = false → s.stage = 0 → n < 16 →
    let v := s.rd a
    exec (.csrw d a 0x000) s = .next ((s.setMe { s.me with ocls := v.extractLsb' 28 4, ferc := v.extractLsb' 20 8 }).put d (s.gsr s.cur)) ∧
    exec (.csrw d a 0x001) s = .next ((s.setMe { s.me with tmask := v.extractLsb' 0 16 &&& 0xFFFE }).put d s.me.cmask) ∧
    exec (.csrw d a 0x002) s = .next ((s.setMe { s.me with ocls := v.extractLsb' 0 4 }).put d (s.me.ocls.setWidth 64)) ∧
    exec (.csrw d a 0x003) s = .next (s.put d (s.coreno s.cur)) ∧
    exec (.csrw d a 0x004) s = .next ((s.setMe { s.me with btmo := v.extractLsb' 0 32 }).put d (s.me.btmo.setWidth 64)) ∧
    (let i : Instr := .csrw d a (BitVec.ofNat 12 (0x010 + n))
     ∃ t, exec i s = .next t ∧ t.me = { (s.me.wr d (s.me.evc.nth n).read) with pc := s.me.pc + 4, csrTo := some (0x010 + n, v) }
      ∧ (∃ e ∈ t.agenda, e.due = s.cycle ∧ e.ord = 164000 ∧ e.who = s.cur ∧ e.stage = 1 ∧ e.act = .run i)
      ∧ (∀ c, c ≠ s.cur → t.ctx c = s.ctx c)
      ∧ { t with ctxs := [], agenda := [], fresh := 0 } = { s with ctxs := [], agenda := [], fresh := 0 }) ∧
    (∀ w, exec (.csrw d a (BitVec.ofNat 12 (0x010 + n))) { s.setMe { s.me with csrTo := some (0x010 + n, w) } with stage := 1 } =
      .next { s.setMe { s.me with csrTo := none, evc := s.me.evc.set n { sat := (s.me.evc.nth n).sat && !w.getLsbD 32
                                                                         count := w.extractLsb' 0 32 } } with stage := 1 })

/-- R406, R415, R442: a steward's writes of STVEC, STEPC, SSTAT, WDOG and WKCNT. -/
def Sys2Proof.Stated.CsrWriteSteward : Prop :=
  ∀ (s : State) (d a : BitVec 4), s.me.pp = false → s.stage = 0 → s.cur % 16 = 0 →
    let v := s.rd a
    let k := coreOf s.cur
    let x := s.core k
    exec (.csrw d a 0x814) s = .next ((s.setCore k { x with stvec := v &&& ~~~3#64 }).put d x.stvec) ∧
    exec (.csrw d a 0x815) s = .next ((s.setCore k { x with stepc := v &&& ~~~3#64 }).put d x.stepc) ∧
    exec (.csrw d a 0x816) s = .next ((s.setCore k { x with eie := v.getLsbD 0 }).put d (s.sstat s.cur)) ∧
    (∃ old, exec (.csrw d a 0x817) s = .next ((s.setCore k { x with wdPre := v.extractLsb' 16 16, wdWait := v.extractLsb' 0 16 }).put d old)) ∧
    exec (.csrw d a 0x81A) s = .next ((s.setCore k { x with wkcnt := v.extractLsb' 0 32 }).put d (x.wkcnt.setWidth 64))

/-- R22, R67, R138, R139, R406, R415, R442: CSRW at user level and in a steward. -/
def Sys2Proof.Stated.CsrWrites : Prop := CsrWriteUser ∧ CsrWriteSteward

/-- R227, R269, R300 to R302, R399: what the register writes do that are events of their own: BPOOL, ASROOTn, STSLOT, LSR and MONCFG
with CLR. -/
def Sys2Proof.Stated.RegisterWriteEvents : Prop :=
  ∀ (s : State) (k : Nat) (n : BitVec 4) (v : W64),
    let root := (v.getLsbD 63, v.extractLsb' 12 40)
    let source := if (v.extractLsb' 0 4).toNat < 6 then v.extractLsb' 0 4 else (s.cluster k).mon.src
    (exec .stslotWrite { s with ev := .stslotWrite k v } =
      .next (({ s with ev := .stslotWrite k v } : State).setCore k { s.core k with stslot := v.extractLsb' 0 4 })) ∧
    (exec .asrootWrite { s with ev := .asrootWrite n v } = .next { s with ev := .asrootWrite n v, dev := { s.dev with asroot := s.dev.asroot.set n.toNat root } }) ∧
    (∃ t, exec .lsrWrite { s with ev := .lsrWrite k v } = .next t ∧ (t.loom k).k.dbgp = v.getLsbD 8
      ∧ (t.loom k).k.coll = ((s.loom k).k.coll && !v.getLsbD 4) ∧ (t.loom k).k.sp = (s.loom k).k.sp ∧ (t.loom k).st = (s.loom k).st
      ∧ { t with looms := [] } = { s with ev := .lsrWrite k v, looms := [] }) ∧
    (∃ t, exec .moncfgClr { s with ev := .moncfgClr k v } = .next t ∧
      (t.cluster k).mon = { shift := v.extractLsb' 40 5, base := v.extractLsb' 8 32, frz := v.getLsbD 4, src := source }
      ∧ { t with clusters := [] } = { s with ev := .moncfgClr k v, clusters := [] }) ∧
    (∃ t, exec .bpoolWrite { s with ev := .bpoolWrite k v } = .next t ∧
      (let base := v.extractLsb' 0 10
       let num := v.extractLsb' 16 10
       let x := s.cluster k
       let bad := base.toNat + num.toNat > 768 ∨ (num = 0 ∧ v.getLsbD 31 = true)
       let used := (base ≠ x.bpBase ∨ num ≠ x.bpN) ∧ ∃ e ∈ x.bolts, e.2.st ≠ .free
       (bad → t.cluster k = x) ∧
       (¬ bad → used → t.cluster k = { x with bpEn := v.getLsbD 31 }) ∧
       (¬ bad → ¬ used → t.cluster k = { x with bpBase := base, bpN := num, bpEn := v.getLsbD 31 }))
      ∧ { t with clusters := [] } = { s with ev := .bpoolWrite k v, clusters := [] })

/-- R307: ACT 1 of TFLT lets the shown grain issue its instruction again, ACT 2 gives it the NOMAP trap at its own address; both
take the fault from the queue. -/
def Sys2Proof.Stated.TranslationFaultsResolved : Prop :=
  ∀ (s : State) (k : CoreId) (f : TFault) (rest : List TFault), (s.core k).tfQ = f :: rest →
    (s.ctx (k * 16 + f.ctx)).gang = none →
    let c := k * 16 + f.ctx
    (∃ t, exec .tfltRelease { s with ev := .tfltRelease k } = .next t ∧ (t.core k).tfQ = rest ∧ (t.ctx c).st = .issuing
      ∧ (t.ctx c).pc = (s.ctx c).pc ∧ (t.ctx c).g = (s.ctx c).g ∧ t.mem = s.mem) ∧
    exec .tfltNomapTrap { s with ev := .tfltNomapTrap k } =
      .next ((({ s with ev := .tfltNomapTrap k } : State).setCore k { s.core k with tfQ := rest }).takeTrap c
        { cause := 0x06, cls := 1, tia := (s.ctx c).pc, tepc := (s.ctx c).pc, tval := f.va })

/-- R22, R25, R67, R138, R139, R406, R415, R442: who may write each register, and what a write leaves. -/
def Obligations.CsrWriteEffects : Prop := CsrWritePrivilege ∧ CsrWrites

/-- R227, R269, R300 to R302, R307, R399: the register writes that are events of their own, and what they do. -/
def Obligations.RegisterEvents : Prop := RegisterWriteEvents ∧ TranslationFaultsResolved

/-! Accesses to memory (chapters 2, 6, 8, 12, 14 and 18). -/

namespace Sys2Proof.Stated

/-- The ordering class of an access: GSR.OCLS with DC, else CLS (R120). -/
def orderClass (s : State) (dc : Bool) (cls : BitVec 4) : BitVec 4 := if dc then s.me.ocls else cls
/-- Base plus offset times size (R73, R120). -/
def baseOffset (s : State) (b : BitVec 4) (off : BitVec 10) (size : Nat) : W64 := s.rd b + off.signExtend 64 * BitVec.ofNat 64 size

/-- A load of a function code, its size and its sign. -/
def loadAccess (s : State) (fn : BitVec 3) (size : Nat) (t b : BitVec 4) (dc : Bool) (cls : BitVec 4) (off : BitVec 10) : Option (Need × Acc) :=
  some (.r, { op := .load fn, rd := t, va := baseOffset s b off size, size := size, cls := orderClass s dc cls })
/-- A store of some bytes of a register. -/
def storeAccess (s : State) (size : Nat) (t b : BitVec 4) (dc : Bool) (cls : BitVec 4) (off : BitVec 10) : Option (Need × Acc) :=
  some (.w, { op := .store, va := baseOffset s b off size, size := size, val := s.rd t, cls := orderClass s dc cls, posted := true })
/-- A fetch-and-op of a function code. -/
def fetchAccess (s : State) (fn : BitVec 4) (size : Nat) (d a b : BitVec 4) (aq rl dc : Bool) (cls : BitVec 4) (posted : Bool) : Option (Need × Acc) :=
  some (.rw, { op := .fx fn, rd := d, va := s.rd a, size := size, val := s.rd b, cmp := s.rd d, cls := orderClass s dc cls, aq := aq, rl := rl
               posted := posted })

/-- The permissions that each memory instruction needs and the access that it makes (R73, R119, R120, R171, R175 to R188, R386
to R388): operation, destination, address, size, value, class, acquire, release, and whether the grain goes on at once. -/
def accessOf (s : State) : Instr → Option (Need × Acc)
  | .lb t b dc k off => loadAccess s 0 1 t b dc k off
  | .lbu t b dc k off => loadAccess s 1 1 t b dc k off
  | .lh t b dc k off => loadAccess s 2 2 t b dc k off
  | .lhu t b dc k off => loadAccess s 3 2 t b dc k off
  | .lw t b dc k off => loadAccess s 4 4 t b dc k off
  | .lwu t b dc k off => loadAccess s 5 4 t b dc k off
  | .ld t b dc k off => loadAccess s 6 8 t b dc k off
  | .sb t b dc k off => storeAccess s 1 t b dc k off
  | .sh t b dc k off => storeAccess s 2 t b dc k off
  | .sw t b dc k off => storeAccess s 4 t b dc k off
  | .sd t b dc k off => storeAccess s 8 t b dc k off
  | .lr d a aq rl dc k => some (.r, { op := .lr, rd := d, va := s.rd a, size := 8, cls := orderClass s dc k, aq := aq, rl := rl })
  | .sc d a b aq rl dc k =>
    some (.rw, { op := .sc, rd := d, va := s.rd a, size := 8, val := s.rd b, cls := orderClass s dc k, aq := aq, rl := rl })
  | .fxswp d a b aq rl dc k => fetchAccess s 2 8 d a b aq rl dc k (d = 0)
  | .fxadd d a b aq rl dc k => fetchAccess s 3 8 d a b aq rl dc k (d = 0)
  | .fxand d a b aq rl dc k => fetchAccess s 4 8 d a b aq rl dc k (d = 0)
  | .fxor d a b aq rl dc k => fetchAccess s 5 8 d a b aq rl dc k (d = 0)
  | .fxxor d a b aq rl dc k => fetchAccess s 6 8 d a b aq rl dc k (d = 0)
  | .fxmin d a b aq rl dc k => fetchAccess s 7 8 d a b aq rl dc k (d = 0)
  | .fxmax d a b aq rl dc k => fetchAccess s 8 8 d a b aq rl dc k (d = 0)
  | .fxminu d a b aq rl dc k => fetchAccess s 9 8 d a b aq rl dc k (d = 0)
  | .fxmaxu d a b aq rl dc k => fetchAccess s 10 8 d a b aq rl dc k (d = 0)
  | .fxcas d a b aq rl dc k => fetchAccess s 11 8 d a b aq rl dc k false
  | .amofadd d a b aq rl dc k => fetchAccess s 12 4 d a b aq rl dc k (d = 0)
  | .amotopk d a b aq rl dc k =>
    some (.rw, { op := .topk, rd := d, va := s.rd a, size := 32, val := s.rd b, cls := orderClass s dc k, aq := aq, rl := rl, posted := d = 0 })
  | .amobinc d a b aq rl dc k =>
    some (.rw, { op := .binc, rd := d, va := s.rd a, size := 8, val := s.rd b, cls := orderClass s dc k, aq := aq, rl := rl, posted := d = 0 })
  | .ldfe t b dc k off =>
    some (.fe, { op := .ldfe, rd := t, va := baseOffset s b off 8, cls := orderClass s dc k, last := s.me.ferc.toNat ≤ s.me.feTries })
  | .ldff t b dc k off =>
    some (.fe, { op := .ldff, rd := t, va := baseOffset s b off 8, cls := orderClass s dc k, last := s.me.ferc.toNat ≤ s.me.feTries })
  | .stfe t b dc k off =>
    some (.rw, { op := .stfe, va := baseOffset s b off 8, val := s.rd t, cls := orderClass s dc k, last := s.me.ferc.toNat ≤ s.me.feTries })
  | .feset l b dc k off =>
    some (.rw, { op := .feset (l = 1), va := baseOffset s b off 8, cls := orderClass s dc k, posted := true
                 last := s.me.ferc.toNat ≤ s.me.feTries })
  | .gadd a b t rl dc k =>
    some (.rw, { op := .gadd t, va := s.rd a, size := if t = 2 ∨ t = 11 ∨ t = 12 ∨ t = 13 then 8 else 4, val := s.rd b, cls := orderClass s dc k, rl := rl
                 posted := true })
  | .join a => some (.rw, { op := .join, va := s.rd a, aq := true, rl := true })
  | .jwait a => some (.r, { op := .jwait, va := s.rd a, aq := true })
  | _ => none

/-- Ordinary loads and stores, which need not be aligned (R31). -/
def ordinaryAccess : MemOp → Bool
  | .load _ => true
  | .store => true
  | _ => false

/-- The address of the access is one at which its instruction does not take the misaligned-access trap (R31, R118). -/
def addressAccepted (a : Acc) : Prop := a.va.toNat + a.size ≤ 2 ^ 64 ∧ (ordinaryAccess a.op = false → a.va.toNat % a.size = 0)

/-- The TLBs answer for every byte of an access: the pieces that it is performed in, lowest first, and the entry of its lowest
byte (R31, R305, R306). -/
def translates (s : State) (va : W64) (n : Nat) (need : Need) (ps : List Piece) (e : TlbEnt) : Prop :=
  let first := 2 ^ 16 - va.toNat % 2 ^ 16
  ∃ pa, s.look s.cur va need = .hit pa e ∧
    ((n ≤ first ∧ ps = splitLines pa n) ∨
     (first < n ∧ ∃ pb e', s.look s.cur (va + BitVec.ofNat 64 first) need = .hit pb e' ∧ ps = splitLines pa first ++ splitLines pb (n - first)))

/-- Nothing keeps the instruction from making its access in this cycle: a prefix, a twin, a drain of stores that JOIN and STFE
make, an earlier access, or a migration. -/
def mayAccess (s : State) (need : Need) (a : Acc) (ps : List Piece) (e : TlbEnt) : Prop :=
  s.me.pp = false ∧ s.twin s.cur = none ∧ addressAccepted a ∧ translates s a.va a.size need ps e
    ∧ (a.op = .stfe ∨ a.op = .join → s.me.pend = [] ∧ s.me.why = .none)
    ∧ (a.op = .join ∨ a.op = .jwait → ∃ cl o, s.region (ps.headD {}).pa = .scratch cl o)
    ∧ (ordinaryAccess a.op = true → s.migrates s.cur e (ps.headD {}).pa = false)
    ∧ s.mustHold s.cur a ps = false

/-- The request that an access sends: token, context, logical time, instruction address, number, slot and cycle with it. -/
def requestOf (s : State) (a : Acc) (ps : List Piece) : Req :=
  { id := s.fresh + 1, who := s.cur, op := a.op, pieces := ps, va := a.va, val := a.val, cmp := a.cmp, rd := a.rd, posted := a.posted
    cls := a.cls, aq := a.aq, rl := a.rl, ct := s.ct (coreOf s.cur), ia := s.me.pc, num := s.me.num, tries := s.me.feTries
    last := a.last, slot := s.slotOf s.cur, born := s.me.born.getD s.cycle }

/-- Whether a request carries a replay-safe number (R412). -/
def numberedAccess : MemOp → Bool
  | .load _ => false
  | .store => false
  | .join => false
  | .jwait => false
  | _ => true

/-- The twin of the running context, if it has one, finds each translation that the context itself finds, so that the two send their
requests together (R423). -/
def twinKeepsUp (s : State) (need : Need) : Prop := ∀ va, s.twinFinds s.cur va need = true

/-- Every context but the running one, every unit, the memory and its lines are as before; of the cores, only the running one's L1
may hold more: the fills that it now expects (R334). -/
def onlyExpectsFills (s t : State) : Prop :=
  { t with ctxs := [], agenda := [], fresh := 0, cores := [] } = { s with ctxs := [], agenda := [], fresh := 0, cores := [] }
    ∧ (∀ c, c ≠ s.cur → t.ctx c = s.ctx c) ∧ (∀ k, k ≠ coreOf s.cur → t.core k = s.core k)
    ∧ ∃ l, t.core (coreOf s.cur) = { s.core (coreOf s.cur) with l1 := l }
      ∧ ∀ line x, Tab.find l line = some x → x.st = .iv ∨ s.l1 (coreOf s.cur) line = some x

/-- Nothing but the running context, the agenda and the count of tokens differs. -/
def sameUnits (s t : State) : Prop :=
  { t with ctxs := [], agenda := [], fresh := 0 } = { s with ctxs := [], agenda := [], fresh := 0 } ∧ (∀ c, c ≠ s.cur → t.ctx c = s.ctx c)

end Sys2Proof.Stated

/-- R31, R119 to R123, R180, R183, R187: an access that leaves the core goes to its point in one request; a posted one lets the
grain go on with one more unacknowledged store, any other leaves it waiting for the reply; no register and no memory changes, and
a load's L1 now expects the fill. -/
def Obligations.MemoryRequests : Prop :=
  ∀ (i : Instr) (s : State) (need : Need) (a : Acc) (ps : List Piece) (e : TlbEnt),
    accessOf s i = some (need, a) → mayAccess s need a ps e →
    (∀ p ∈ ps, (s.region p.pa).outside = false) →
    ((∃ fn, a.op = .load fn) → s.l1Hits (coreOf s.cur) ps = false) → ((∃ t, a.op = .gadd t) → hbmBytes ≤ (ps.headD {}).pa) →
    let r := requestOf s a ps
    ∃ t, exec i s = .next t ∧ onlyExpectsFills s t ∧ ((∀ fn, a.op ≠ .load fn) → t.cores = s.cores)
      ∧ (∀ b, t.cohRead b 1 = s.cohRead b 1)
      ∧ t.agenda = insertEntry { due := s.cycle + (s.route r).1, ord := (s.route r).2.1, seq := s.fresh + 1, act := .ev (s.route r).2.2 } s.agenda
      ∧ t.me.g = s.me.g ∧ t.me.dead = s.me.dead ∧ t.me.evc = s.me.evc ∧ t.gsr s.cur = s.gsr s.cur ∧ t.me.resv = s.me.resv
      ∧ t.me.num = (if numberedAccess a.op then s.me.num + 1 else s.me.num)
      ∧ (a.posted = true → t.me.pc = s.me.pc + 4 ∧ t.me.st = s.me.st ∧ t.me.pend = s.me.pend ++
          [{ id := r.id, cls := a.cls, va := a.va, len := a.size, pieces := ps }])
      ∧ (a.posted = false → t.me.pc = s.me.pc ∧ t.me.st = .waiting ∧ t.me.why = .reply r.id ∧ t.me.pend = s.me.pend)

/-- R31, R118, R121, R123, R306, R307: an access at a bad address takes the misaligned-access trap, one that must wait for an
earlier access leaves the rotation with nothing done, and a translation fault traps, or parks the grain for the steward. -/
def Obligations.AccessesHeldOrTrapped : Prop :=
  ∀ (i : Instr) (s : State) (need : Need) (a : Acc), accessOf s i = some (need, a) → s.me.pp = false →
    (a.op = .stfe ∨ a.op = .join → s.me.pend = [] ∧ s.me.why = .none) →
    (¬ addressAccepted a → exec i s = .next (exactTrap s 0x05 0 a.va)) ∧
    (addressAccepted a → ∀ cls, s.look s.cur a.va need = .fault cls → cls ≠ 1 ∨ s.cur % 16 = 0 →
      exec i s = .next (exactTrap (s.setMe { s.me with walked := none }) 0x06 cls a.va)) ∧
    (addressAccepted a → s.look s.cur a.va need = .fault 1 → s.cur % 16 ≠ 0 → stewardAwake s (coreOf s.cur) →
      (s.core (coreOf s.cur)).wdWait = 0 →
      ∃ t, exec i s = .next t ∧ t.me.st = .parked ∧ t.me.pc = s.me.pc ∧ t.me.g = s.me.g ∧ t.mem = s.mem
        ∧ (t.core (coreOf s.cur)).tfQ = (s.core (coreOf s.cur)).tfQ ++ [{ ctx := s.cur % 16, slot := s.slotOf s.cur, kind := need.kind, va := a.va }]) ∧
    (addressAccepted a → twinKeepsUp s need → ∀ ps e, translates s a.va a.size need ps e → (∀ p ∈ ps, (s.region p.pa).outside = false) →
      (a.op = .join ∨ a.op = .jwait → ∃ cl o, s.region (ps.headD {}).pa = .scratch cl o) → s.mustHold s.cur a ps = true →
      ∃ t, exec i s = .next t ∧ sameUnits s t ∧ t.agenda = s.agenda ∧ t.me.pc = s.me.pc ∧ t.me.g = s.me.g ∧ t.me.st = .waiting ∧ t.me.why = .held)

namespace Sys2Proof.Stated

/-- The event happens in s and leaves a state with the property. -/
def happens (i : Instr) (e : Ev) (s : State) (p : State → Prop) : Prop := ∃ t, exec i { s with ev := e } = .next t ∧ p t
/-- The event is on the agenda for a number of cycles from now. -/
def dueIn (t : State) (n : Nat) (e : Ev) : Prop := ∃ x ∈ t.agenda, x.due = t.cycle + n ∧ x.act = .ev e
/-- The event comes later in this cycle. -/
def dueNow (t : State) (e : Ev) : Prop := ∃ x ∈ t.todo, x.act = .ev e
/-- A field of the state of everything but contexts, cores and the agenda is as before. -/
def sameMemory (s t : State) : Prop := t.mem = s.mem ∧ t.empties = s.empties ∧ t.lines = s.lines

/-- The load by which a walker reads a page-table entry for a walk (R305). -/
def walkerReads (w : SliceId) (no pa : Nat) : Req :=
  { op := .load 6, pieces := [{ pa := pa, len := 8 }], posted := true, via := .walk w no }

/-- FENCE's kind has W, so it waits for the store count to be zero (R185, R186). -/
def fenceWaits (kind : BitVec 4) : Prop := kind.toNat % 4 ≠ 0

end Sys2Proof.Stated

/-- R124, R332: a load that its core's L1 holds under a lease that lasts completes at once, CT taking the line's WTS; PREF always
moves past itself, waits for nothing and never traps, whatever its address. -/
def Sys2Proof.Stated.CachedLoads : Prop :=
  (∀ (i : Instr) (s : State) (need : Need) (a : Acc) (fn : BitVec 3) (p : Piece) (e : TlbEnt) (x : L1Line),
    accessOf s i = some (need, a) → a.op = .load fn → mayAccess s need a [p] e → p.pa < hbmBytes →
    s.l1 (coreOf s.cur) (lineOf p.pa) = some x → x.st = .v → ¬ x.rts.ult (s.ct (coreOf s.cur)) →
    ∃ t, exec i s = .next t ∧ t.me.rd a.rd = (if a.rd = 0 then 0 else loadExtend fn (BitVec.ofNat 64 (leNat (LineData.bytes x.data (p.pa % 128) p.len))))
      ∧ (∀ r, r ≠ a.rd → t.me.rd r = s.me.rd r) ∧ t.me.pc = s.me.pc + 4 ∧ t.me.st = .issuing ∧ t.me.evc = s.me.evc ∧ t.gsr s.cur = s.gsr s.cur
      ∧ t.ct (coreOf s.cur) = (if (s.ct (coreOf s.cur)).ult x.wts then x.wts else s.ct (coreOf s.cur))
      ∧ sameMemory s t ∧ t.agenda = s.agenda ∧ (∀ c, c ≠ s.cur → t.ctx c = s.ctx c)) ∧
  (∀ (s : State) (l b : BitVec 4) (dc : Bool) (k : BitVec 4) (off : BitVec 10), s.me.pp = false →
    ∃ t, exec (.pref l b dc k off) s = .next t ∧ t.me = { s.me with pc := s.me.pc + 4 } ∧ sameMemory s t
      ∧ (∀ c, c ≠ s.cur → t.ctx c = s.ctx c)
      ∧ (∀ pa e, (s.translateCtx s.cur (baseOffset s b off 128) .r).2 = .ok (pa, e) → pa < hbmBytes →
          ∃ r, r.who = s.cur ∧ r.posted = true ∧ r.op = .load 6 ∧ r.pieces = [{ pa := pa / 128 * 128, len := 8 }] ∧ r.last = (l == 1)
            ∧ dueIn t (s.toSlice (clusterOf s.cur) (servingOf (if l = 1 then homeDie (lineOf pa) else dieOf s.cur) (lineOf pa))) (.servingSliceLoad r)))

/-- R305, R306, R407, R474: a walk begins with the load of its root entry; an invalid entry, or a leaf of 64 KiB, ends it for the one context that
waits for it; a line that a fetch has waited for fills the instruction cache; and a pending event takes a steward into its trap entry. -/
def Sys2Proof.Stated.WalksAndFetchesComplete : Prop :=
  (∀ (s : State) (w : SliceId) (c : CtxId) (slot : BitVec 4) (va : W64) (dirty : Bool) (i : Instr) (e : Ev),
    (i, e) ∈ [(Instr.walkRequest, Ev.walkRequest w c slot va dirty), (Instr.walkResend, Ev.walkResend w c slot va dirty)] →
    let root := 4096 * (s.dev.asroot.getD slot.toNat (false, 0)).2.toNat
    let pa := root + 8 * (va.toNat % 2 ^ 48 / 2 ^ 16 / 2 ^ 23)
    (s.slice w).walks = [] → (s.dev.asroot.getD slot.toNat (false, 0)).1 = true → root < s.hbmLen → happens i e s (fun t =>
      dueIn t (walkerWay w (servingOf (w / 64) (lineOf pa))) (.servingSliceLoad (walkerReads w (s.fresh + 1) pa)) ∧ t.mem = s.mem)) ∧
  (∀ (s : State) (w : SliceId) (no : Nat) (e : W64) (q : WalkReq) (c : CtxId),
    (s.slice w).walks.find? (fun x => x.no == no) = some q → q.void = false → (s.slice w).walkQ = [] → q.who = [c] → q.ent = none →
    (e.getLsbD 0 = false → happens .walkComplete (.walkComplete w no e) s (fun t => (t.ctx c).walked = some (q.page, 1)
      ∧ dueIn t (s.toSlice (clusterOf c) w) (.replyArrival c { adv := false }) ∧ t.mem = s.mem)) ∧
    (q.level = 3 → q.dirty = false → e.getLsbD 0 = true → e.getLsbD 1 = true → e.toNat < 2 ^ 52 → e.toNat / 256 * 256 % 2 ^ 16 = 0 →
      happens .walkComplete (.walkComplete w no e) s (fun t => (t.ctx c).leaf = some {
          slot := q.slot, va := q.page * 2 ^ 16, pa := e.toNat / 256 * 256, size := 0
          r := e.getLsbD 2, w := e.getLsbD 3, x := e.getLsbD 4, u := e.getLsbD 5, mig := e.getLsbD 6, d := e.getLsbD 7 }
        ∧ dueIn t (s.toSlice (clusterOf c) w) (.replyArrival c { adv := false }) ∧ t.mem = s.mem))) ∧
  (∀ (s : State) (c : CtxId) (line : Nat) (d : LineData), (s.core (coreOf c)).frozen s.cycle = false → (s.core (coreOf c)).icache.length < 256 →
    happens .fetchMissFill (.fetchMissFill c line d) s (fun t => Tab.find (t.core (coreOf c)).icache line = some d
      ∧ ((s.ctx c).why = .fetch → (t.ctx c).st = .issuing ∧ (t.ctx c).pc = (s.ctx c).pc) ∧ t.mem = s.mem)) ∧
  (∀ (s : State) (k : CoreId), (s.core k).eie = true → (s.core k).inh = false → s.pendingEvent k = true →
    happens .trapEntry (.trapEntry k) s (fun t => (t.ctx (k * 16)).pc = (s.core k).stvec ∧ (t.ctx (k * 16)).st = .issuing ∧ (t.core k).inh = true
      ∧ (t.core k).stepc = (s.ctx (k * 16)).pc &&& ~~~3#64 ∧ (t.ctx (k * 16)).g = (s.ctx (k * 16)).g ∧ t.mem = s.mem))

/-- R124, R305, R306, R332, R407, R474: loads that the L1 holds, PREF, walks, fetches and a steward's trap entry. -/
def Obligations.CachedLoadsAndPrefetch : Prop := CachedLoads ∧ WalksAndFetchesComplete

/-- R164, R189 to R191: BARC and BARW of a gang's member arrive; the arrival waits, and when it is the cluster's only participant sets the end
of the episode; the end lets the participant go on with its status, and so does its time's end. -/
def Sys2Proof.Stated.BarriersComplete : Prop :=
  (∀ (s : State) (d a : BitVec 4), s.me.pp = false → (s.rd a).toNat % 128 = 0 →
    (s.me.gang = none → exec (.barc d a) s = .next (s.put d 2) ∧ exec (.barw d a) s = .next (s.put d 2)) ∧
    (s.me.gang ≠ none → s.me.pend = [] → s.me.why = .none →
      exec (.barc d a) s = .next (s.now (.barrierArrival s.cur false d (s.rd a))) ∧ exec (.barw d a) s = .next (s.now (.barrierArrival s.cur true d (s.rd a))))) ∧
  (∀ (s : State) (c : CtxId) (wire : Bool) (d : BitVec 4) (v : W64) (g : Nat), (s.ctx c).gang = some g → (s.core (coreOf c)).wdWait = 0 → (s.ctx c).btmo = 0 →
    s.episodes wire (clusterOf c) g = [] → (∀ m ∈ (s.gang g).members, clusterOf m = clusterOf c → m = c) →
    happens .barrierArrival (.barrierArrival c wire d v) s (fun t =>
      (t.ctx c).st = .dispatchWait ∧ (t.ctx c).why = .barrier ∧ (t.ctx c).pc = (s.ctx c).pc ∧ t.mem = s.mem
        ∧ (if wire then dueIn t 4 (.barwTapRise g (clusterOf c)) else dueIn t 6 (.barcDone g (clusterOf c))))) ∧
  (∀ (s : State) (g : Nat) (cl : ClusterId) (a : Arrival) (e : Episode), e.arrived = [a] → a.ended = false → a.rcd = 0 → (s.ctx a.who).why = .barrier → s.heldBack a.who = false →
    let goesOn (t : State) (v : W64) : Prop := (t.ctx a.who).rd a.rd = (if a.rd = 0 then 0 else v) ∧ (t.ctx a.who).pc = (s.ctx a.who).pc + 4 ∧ (t.ctx a.who).st = .issuing ∧ t.mem = s.mem
    (e.closed = true → s.episodes false cl g = [e] → happens .barcDone (.barcDone g cl) s (fun t => goesOn t 0)) ∧
    (e.closed = true → (s.gang g).cls = [cl] → cl / 256 < 2 → s.episodes true cl g = [e] → happens .barwDone (.barwDone (2 * g + cl / 256)) s (fun t => goesOn t 0)) ∧
    (e.closed = false → e.tapAt = s.cycle → (s.gang g).cls = [cl] → s.episodes true cl g = [e] → happens .barwTapRise (.barwTapRise g cl) s (fun t =>
      dueIn t ((s.gang g).span + 6) (.barwDone (2 * g + cl / 256)) ∧ t.ctxs = s.ctxs ∧ t.mem = s.mem)) ∧
    (e.closed = false → (s.ctx a.who).gang = some g → clusterOf a.who = cl → s.episodes false cl g = [e] → s.episodes true cl g = [] →
      happens .barrierTimeout (.barrierTimeout a.who a.token) s (fun t => goesOn t 1)))

/-- R181, R185, R186: FENCE by its scope and kind, at once or after the store count is zero, and at scope 5 sixteen cycles later with
every lease of the L1 dropped; WRS without a reservation moves on, and with one parks at the reservation's home, its PC past it. -/
def Sys2Proof.Stated.Fences : Prop :=
  ∀ (s : State) (kind : BitVec 4) (mask : BitVec 16), s.me.pp = false →
    (∀ scope, s.stage = 0 → (scope = 0 ∨ scope ≠ 5 ∧ (¬ fenceWaits kind ∨ s.me.pend = [] ∧ s.me.why = .none)) →
      exec (.fence scope kind mask) s = .next (s.setMe { s.me with pc := s.me.pc + 4 })) ∧
    (∀ scope, s.stage = 0 → scope ≠ 0 → fenceWaits kind → s.me.pend ≠ [] →
      exec (.fence scope kind mask) s = .next (s.wait s.cur (.drain (.fence scope kind mask)))) ∧
    (s.stage = 0 → (fenceWaits kind → s.me.pend = [] ∧ s.me.why = .none) → ∃ t, exec (.fence 5 kind mask) s = .next t ∧ t.me.st = .waiting ∧ t.me.why = .timed
      ∧ t.me.pc = s.me.pc ∧ t.me.g = s.me.g ∧ sameMemory s t
      ∧ ∃ x ∈ t.agenda, x.due = s.cycle + 16 ∧ x.who = s.cur ∧ x.stage = 1 ∧ x.act = .run (.fence 5 kind mask)) ∧
    (s.stage = 1 → s.me.why = .timed → ∃ t, exec (.fence 5 kind mask) s = .next t ∧ t.me.pc = s.me.pc + 4 ∧ t.me.st = .issuing ∧ t.me.g = s.me.g
      ∧ sameMemory s t ∧ (∀ line x, t.l1 (coreOf s.cur) line = some x → x.st ≠ .v)) ∧
    (s.stage = 0 → s.me.resv = none → exec .wrs s = .next (s.setMe { s.me with pc := s.me.pc + 4 })) ∧
    (s.stage = 0 → ∀ pa, s.me.resv = some pa → (s.core (coreOf s.cur)).wdWait = 0 → ∃ t, exec .wrs s = .next t ∧ t.me.st = .parked ∧ t.me.pc = s.me.pc + 4
      ∧ t.me.resv = some pa ∧ t.me.g = s.me.g ∧ sameMemory s t ∧ ∃ x ∈ t.agenda, x.who = s.cur ∧ x.stage = 1 ∧ x.act = .run .wrs)

/-- R164, R181, R185, R186, R189 to R191: FENCE, WRS and the barriers. -/
def Obligations.FencesAndWaits : Prop := Fences ∧ BarriersComplete

namespace Sys2Proof.Stated

/-- A request of one piece meets its bank free, in a cluster with nothing parked and at a home with no reservation (R171, R177,
R291). -/
def meetsBank (s : State) (r : Req) (p : Piece) (cl off : Nat) : Prop :=
  r.via = .grain ∧ r.pieces = [p] ∧ r.again = false ∧ r.early = false ∧ r.done = 0 ∧ r.got = 0 ∧ s.region p.pa = .scratch cl off ∧ hbmBytes ≤ p.pa ∧ p.pa % 128 + p.len ≤ 128
    ∧ ((s.cluster cl).bankUse.1 = s.cycle → bankOf off ∉ (s.cluster cl).bankUse.2)
    ∧ (s.cluster cl).parked = [] ∧ (s.slice (s.quadOf cl)).resv = []

/-- What an operation on the value at its bytes leaves there, if it writes, and gives back, with its conditions (R119, R171, R179,
R188, R387). -/
def bankEffect (old : W64) (r : Req) : Option (Option W64 × W64 × Conds) :=
  match r.op with
  | .load fn => some (none, loadExtend fn old, 0)
  | .store => some (some r.val, 0, 0)
  | .sc => some (none, 1, 0)
  | .binc => some (if old.toNat < r.val.toNat then some (old + 1) else none, old, 0)
  | .gadd tag => some (some (BitVec.ofNat 64 (combine tag old.toNat r.val.toNat).1), 0, (combine tag old.toNat r.val.toNat).2)
  | .join => some (if old.extractLsb' 0 32 = 0 then some (old ||| 0x8000000000000000) else some (old - 1), 0, 0)
  | .fx fn =>
    match fn.toNat with
    | 2 => some (some r.val, old, 0)
    | 3 => some (some (old + r.val), old, 0)
    | 4 => some (some (old &&& r.val), old, 0)
    | 5 => some (some (old ||| r.val), old, 0)
    | 6 => some (some (old ^^^ r.val), old, 0)
    | 7 => some (some (if old.toInt < r.val.toInt then old else r.val), old, 0)
    | 8 => some (some (if old.toInt < r.val.toInt then r.val else old), old, 0)
    | 9 => some (some (if old.toNat < r.val.toNat then old else r.val), old, 0)
    | 10 => some (some (if old.toNat < r.val.toNat then r.val else old), old, 0)
    | 11 => some (if old = r.cmp then some r.val else none, old, 0)
    | 12 => some (some (BitVec.ofNat 64 (fadd {} (f32 old) (f32 r.val)).1), old, (fadd {} (f32 old) (f32 r.val)).2)
    | _ => none
  | _ => none

/-- Whether the reply of an operation writes its destination register. -/
def givesValue : MemOp → Bool
  | .load _ => true
  | .sc => true
  | .binc => true
  | .fx _ => true
  | _ => false

/-- The acknowledgement of a bank, which keeps no timestamps, and that of a refused request, which ends the whole of it (R291, R475). -/
def bankAck (refused : Bool) : Ack := { bank := true, all := refused }

/-- The reply of an operation on its way back, or for a posted one its acknowledgement. -/
def answered (s t : State) (r : Req) (cl : Nat) (v : W64) (conds : Conds) (ends did : Bool) : Prop :=
  if r.posted then dueIn t (s.toBank (clusterOf r.who) cl) (.storeAcknowledgement r.who r.id (bankAck false))
  else dueIn t (s.toBank (clusterOf r.who) cl) (.replyArrival r.who
    { id := r.id, rd := r.rd, wr := givesValue r.op, val := v, conds := conds, ends := ends, did := did, bank := true, served := s.cycle })

/-- Every byte of memory outside the run reads as before, and the run reads as the value, lowest byte lowest. -/
def wrote (s t : State) (pa len : Nat) (v : W64) : Prop :=
  (∀ a, a < pa ∨ pa + len ≤ a → t.cohRead a 1 = s.cohRead a 1) ∧ t.cohRead pa len = leBytes len v.toNat

end Sys2Proof.Stated

/-- R119, R171, R175, R179, R282, R291, R387, R475: what a scratchpad bank does with a request: its bytes, the value sent back, and every
other byte of memory as before; a refused write writes nothing; a bank used in this cycle makes it wait for the next. -/
def Obligations.BankAccesses : Prop :=
  ∀ (s : State) (r : Req) (p : Piece) (cl off : Nat), meetsBank s r p cl off → 0 < p.len → p.len ≤ 8 →
    (s.refusedByte p.pa p.len = none → ∀ w v k, bankEffect (BitVec.ofNat 64 (leNat (s.cohRead p.pa p.len))) r = some (w, v, k) →
      (∀ tag, r.op = .gadd tag → r.posted = true) →
      (∀ fn, r.op = .fx fn → p.len = if fn = 12 then 4 else 8) → (r.op = .sc ∨ r.op = .binc ∨ r.op = .join → p.len = 8 ∧ (r.op ≠ .binc → r.posted = false)) →
      (∀ fn, r.op = .load fn → r.posted = false) → (r.op = .store → r.posted = true) → (∀ tag, r.op = .gadd tag → p.len = gaddSize tag) →
      happens .bankAccess (.bankAccess r) s (fun t =>
        (match w with
          | some x => wrote s t p.pa p.len x
          | none => ∀ a, t.cohRead a 1 = s.cohRead a 1) ∧
        (∀ tag, r.op ≠ .gadd tag → answered s t r cl v k
          (r.op = .join ∧ (BitVec.ofNat 64 (leNat (s.cohRead p.pa p.len)) : W64).extractLsb' 0 32 ≠ 1) (opWrites r.op)) ∧
        (∀ tag, r.op = .gadd tag → dueIn t (s.toBank (clusterOf r.who) cl) (.storeAcknowledgement r.who r.id (bankAck false))))) ∧
    (∀ bad, s.refusedByte p.pa p.len = some bad → (r.op = .store ∨ ∃ fn, r.op = .fx fn ∧ fn ≠ 11) →
      let va := r.va + BitVec.ofNat 64 (bad - p.pa)
      happens .bankAccess (.bankAccess r) s (fun t => (∀ a, t.cohRead a 1 = s.cohRead a 1) ∧
        (if r.posted then dueIn t (s.toBank (clusterOf r.who) cl) (.storeAcknowledgement r.who r.id (bankAck true))
            ∧ dueIn t (s.toBank (clusterOf r.who) cl) (.lateRefusal r.who r.id r.ia va)
          else dueIn t (s.toBank (clusterOf r.who) cl) (.replyArrival r.who
            { id := r.id, adv := false, conds := 0x40, trap := some (0x07, 0, va), bank := true })))) ∧
    (r.op = .jwait → p.len = 8 → r.posted = false → (BitVec.ofNat 64 (leNat (s.cohRead p.pa 8)) : W64).extractLsb' 0 32 = 0 →
      happens .bankAccess (.bankAccess r) s (fun t => answered s t r cl 0 0 false false ∧ ∀ a, t.cohRead a 1 = s.cohRead a 1)) ∧
    (r.op = .jwait → p.len = 8 → (BitVec.ofNat 64 (leNat (s.cohRead p.pa 8)) : W64).extractLsb' 0 32 ≠ 0 → (s.ctx r.who).why = .reply r.id →
      (s.core (coreOf r.who)).wdWait = 0 →
      happens .bankAccess (.bankAccess r) s (fun t => (t.ctx r.who).st = .parked ∧ (t.cluster cl).parked = [r] ∧ ∀ a, t.cohRead a 1 = s.cohRead a 1)) ∧
    (∀ q, s.region q = .scratch cl off → bankOf off ∈ (s.cluster cl).bankUse.2 → (s.cluster cl).bankUse.1 = s.cycle → ∀ r', (r'.pieces.headD {}).pa = q →
      happens .bankAccess (.bankAccess r') s (fun t => dueIn t 1 (.bankAccess r') ∧ t.mem = s.mem ∧ t.clusters = s.clusters))

/-- R182, R183, R298: the full-empty forms at a scratchpad word: LDFE empties a full word, LDFF leaves it, STFE fills an empty one,
FESET sets the bit; a form that cannot go on returns, or stays parked at its last attempt. -/
def Obligations.FullEmptyForms : Prop :=
  ∀ (s : State) (r : Req) (p : Piece) (cl off : Nat), meetsBank s r p cl off → s.refusedByte p.pa p.len = none → p.len = 8 →
    let full := s.cohFull p.pa
    let old : W64 := BitVec.ofNat 64 (leNat (s.cohRead p.pa 8))
    let run (q : State → Prop) := happens .fullEmptyAtHome (.fullEmptyAtHome r) s q
    let others (t : State) := ∀ w, w ≠ p.pa / 8 → t.isEmpty w = s.isEmpty w
    let reply (v : W64) (wr did : Bool) : Reply := { id := r.id, rd := r.rd, wr := wr, val := v, did := did, bank := true, served := s.cycle }
    let back := s.toBank (clusterOf r.who) cl
    (r.op = .ldfe → full = true → r.posted = false → run (fun t => t.isEmpty (p.pa / 8) = true ∧ others t ∧ t.mem = s.mem
      ∧ dueIn t back (.replyArrival r.who (reply old true true)))) ∧
    (r.op = .ldff → full = true → r.posted = false → run (fun t => t.empties = s.empties ∧ t.mem = s.mem
      ∧ dueIn t back (.replyArrival r.who (reply old true false)))) ∧
    (r.op = .stfe → full = false → r.posted = false → run (fun t => t.isEmpty (p.pa / 8) = false ∧ others t ∧ wrote s t p.pa 8 r.val
      ∧ dueIn t back (.replyArrival r.who (reply 0 false true)))) ∧
    (∀ b, r.op = .feset b → r.posted = true → run (fun t => t.isEmpty (p.pa / 8) = !b ∧ others t ∧ t.mem = s.mem
      ∧ dueIn t back (.storeAcknowledgement r.who r.id (bankAck false)))) ∧
    (((r.op = .ldfe ∨ r.op = .ldff) ∧ full = false ∨ r.op = .stfe ∧ full = true) →
      (r.last = false → run (fun t => t.empties = s.empties ∧ t.mem = s.mem
        ∧ dueIn t back (.replyArrival r.who { id := r.id, adv := false, again := true, bank := true }))) ∧
      (r.last = true → run (fun t => t.empties = s.empties ∧ t.mem = s.mem ∧ (t.cluster cl).parked = [r]))) ∧
    ((s.ctx r.who).awaits r.id = true → (opFullEmpty r.op = true) →
      happens .fullEmptyResend (.fullEmptyResend r) s (fun t => dueIn t back (.fullEmptyAtHome r) ∧ t.mem = s.mem))

/-! Replies, walks and coherence (chapters 2, 6, 8, 12, 14, 18 and 20). -/

namespace Sys2Proof.Stated

/-- A reply reaches a context that waits for it, alone, in a core that is not frozen, and no forwarding entry, unit's read or gang
under pre-emption takes it instead (R142, R161, R413, R421, R423). -/
def reachesWaiting (s : State) (c : CtxId) (r : Reply) : Prop :=
  s.keeper c r.id = none ∧ (∀ e ∈ s.dev.reads, e.1 ≠ r.id) ∧ (s.core (coreOf c)).frozen s.cycle = false ∧ s.twin c = none
    ∧ (∀ f ∈ (s.core (coreOf c)).fwds, f.id ≠ r.id) ∧ (s.ctx c).awaits r.id = true ∧ (s.ctx c).atomicMsg = none ∧ r.side = false

/-- The greater of two logical times. -/
def laterTime (a b : W64) : W64 := if a.ult b then b else a

/-- The TLBs of a context's cluster and core have taken the leaf that its walk has brought (R305). -/
def withLeaf (s : State) (c : CtxId) : State :=
  match (s.ctx c).leaf with
  | some l => (s.fillCluster (clusterOf c) l).fillCore (coreOf c) l
  | none => s

end Sys2Proof.Stated

/-- R123, R142, R171, R183, R305, R330, R332, R333, R474, R475: what replies, acknowledgements and late refusals do at the core, and what ends the
waits of WRS's, JWAIT's and LR's home. -/
def Obligations.RepliesAndRefusals : Prop :=
  (∀ (s : State) (c : CtxId) (r : Reply), reachesWaiting s c r →
    (r.trap = none → r.again = false → r.ends = false → r.go = none → (∀ f, (s.ctx c).why ≠ .walk f) → happens .replyArrival (.replyArrival c r) s (fun t =>
      (t.ctx c).rd r.rd = (if r.wr then (if r.rd = 0 then 0 else r.val) else (s.ctx c).rd r.rd) ∧ (∀ d, d ≠ r.rd → (t.ctx c).rd d = (s.ctx c).rd d)
        ∧ (t.ctx c).pc = (if r.adv then (s.ctx c).pc + 4 else (s.ctx c).pc) ∧ (t.ctx c).st = .issuing
        ∧ (t.ctx c).evc = (s.ctx c).evc.bump r.conds 1 ∧ t.ct (coreOf c) = laterTime (s.ct (coreOf c)) r.wts ∧ t.mem = s.mem)) ∧
    (r.trap = none → r.again = true → happens .replyArrival (.replyArrival c r) s (fun t =>
      (t.ctx c).st = .issuing ∧ (t.ctx c).pc = (s.ctx c).pc ∧ (t.ctx c).feTries = (s.ctx c).feTries + 1 ∧ (t.ctx c).g = (s.ctx c).g ∧ t.mem = s.mem)) ∧
    (∀ cause cls va, r.trap = some (cause, cls, va) → c % 16 ≠ 0 → happens .replyArrival (.replyArrival c r) s (fun t =>
      (t.ctx c).st = .trapped ∧ (t.ctx c).tcause = cause ∧ (t.ctx c).tclass = cls ∧ (t.ctx c).tval = va ∧ (t.ctx c).tepc = (s.ctx c).pc
        ∧ (t.ctx c).g = (s.ctx c).g ∧ (t.ctx c).evc = (s.ctx c).evc.bump r.conds 1 ∧ t.mem = s.mem))) ∧
  (∀ (s : State) (c : CtxId) (id : Nat) (a : Ack) (p : Pend), (s.core (coreOf c)).frozen s.cycle = false → s.twin c = none →
    (s.ctx c).pend.find? (fun q => q.id == id) = some p → (p.pieces.length ≤ 1 ∨ a.all = true) →
    happens .storeAcknowledgement (.storeAcknowledgement c id a) s (fun t =>
      (t.ctx c).pend = (s.ctx c).pend.filter (fun q => q.id != id) ∧ t.ct (coreOf c) = laterTime (s.ct (coreOf c)) a.wts ∧ t.mem = s.mem
        ∧ (t.ctx c).g = (s.ctx c).g ∧ (t.ctx c).pc = (s.ctx c).pc ∧ ((s.ctx c).why = .held → (t.ctx c).st = .issuing)
        ∧ (∀ i, (s.ctx c).why = .drain i → (t.ctx c).pend = [] → { who := c, act := .run i } ∈ t.todo))) ∧
  (∀ (s : State) (c : CtxId) (f : Bool), reachesWaiting s c { adv := false } → (s.ctx c).why = .walk f →
    let e : Ev := .replyArrival c { adv := false }
    let v := withLeaf s c
    (∀ l, (s.ctx c).leaf = some l → happens .replyArrival e s (fun t =>
      l ∈ (t.core (coreOf c)).tlb ∧ l ∈ (t.cluster (clusterOf c)).tlb ∧ t.mem = s.mem)) ∧
    ((∀ pa x, v.look c (s.ctx c).pc .x ≠ .hit pa x) → happens .replyArrival e s (fun t =>
      (t.ctx c).st = .issuing ∧ (t.ctx c).pc = (s.ctx c).pc ∧ (t.ctx c).g = (s.ctx c).g ∧ t.todo = s.todo ∧ t.mem = s.mem)) ∧
    (∀ pa x, v.look c (s.ctx c).pc .x = .hit pa x → Tab.find (s.core (coreOf c)).icache (lineOf pa) = none → f = true → s.region pa = .hbm → happens .replyArrival e s (fun t =>
      (t.ctx c).st = .waiting ∧ (t.ctx c).why = .fetch ∧ (t.ctx c).pc = (s.ctx c).pc ∧ (t.ctx c).g = (s.ctx c).g ∧ t.mem = s.mem
        ∧ ∃ r : Req, r.via = .fetch ∧ r.who = c ∧ r.pieces = [{ pa := 128 * lineOf pa, len := 8 }]
          ∧ dueIn t (s.toSlice (clusterOf c) (servingOf (dieOf c) (lineOf pa))) (.servingSliceLoad r))) ∧
    (∀ pa x d i, v.look c (s.ctx c).pc .x = .hit pa x → Tab.find (s.core (coreOf c)).icache (lineOf pa) = some d →
      decodeWord (d.extractLsb' (32 * (pa / 4 % 32)) 32) = some i → f = false → (s.ctx c).uerr = none → happens .replyArrival e s (fun t =>
        { who := c, act := .run (({ s with cur := c } : State).refine i) } ∈ t.todo ∧ (t.ctx c).pc = (s.ctx c).pc ∧ (t.ctx c).g = (s.ctx c).g ∧ t.mem = s.mem))) ∧
  (∀ (s : State) (c : CtxId) (id : Nat) (ia va : W64), (s.core (coreOf c)).frozen s.cycle = false → id ≠ 0 → happens .lateRefusal (.lateRefusal c id ia va) s (fun t =>
    (t.ctx c).evc = (s.ctx c).evc.bump 0x40 1 ∧ (t.ctx c).late = (s.ctx c).late ++ [{ id := id, ia := ia, va := va }]
      ∧ dueIn t 0 (.lateRefusal c 0 0 0) ∧ t.mem = s.mem)) ∧
  (∀ (s : State) (c : CtxId), (s.core (coreOf c)).frozen s.cycle = false → (s.ctx c).waits = true → s.performedFor c = false → (s.ctx c).late ≠ [] → s.twin c = none → c % 16 ≠ 0 →
    (s.ctx c).gang = none → happens .lateRefusal (.lateRefusal c 0 0 0) s (fun t => (t.ctx c).st = .trapped ∧ (t.ctx c).tcause = 0x07 ∧ (t.ctx c).late = []
      ∧ (t.ctx c).tepc = (match (s.ctx c).why with | .wrs _ => (s.ctx c).pc - 4 | _ => (s.ctx c).pc) ∧ (t.ctx c).g = (s.ctx c).g
      ∧ ∃ e ∈ (s.ctx c).late, (∀ x ∈ (s.ctx c).late, e.id ≤ x.id) ∧ (t.ctx c).tia = e.ia ∧ (t.ctx c).tval = e.va)) ∧
  (∀ (s : State) (pa cl off : Nat) (r : Req), r.via = .grain → s.region pa = .scratch cl off → pa % 8 = 0 → hbmBytes ≤ pa → (s.cluster cl).parked = [r] → r.op = .jwait →
    (r.pieces.headD {}).pa = pa → (BitVec.ofNat 64 (leNat (s.cohRead pa 8)) : W64).extractLsb' 0 32 = 0 →
    happens .jwaitWake (.jwaitWake pa) s (fun t => (t.cluster cl).parked = [] ∧ t.mem = s.mem
      ∧ dueIn t (s.toBank (clusterOf r.who) cl) (.replyArrival r.who { id := r.id, bank := true }))) ∧
  (∀ (s : State) (r : Req) (p : Piece) (cl off : Nat), meetsBank s r p cl off → r.op = .lr → p.len = 8 → r.posted = false → r ∈ (s.slice (s.quadOf cl)).lrWait →
    (s.ctx r.who).resv = none → happens .reservationRegister (.reservationRegister (s.quadOf cl) r) s (fun t =>
      (t.ctx r.who).resv = some p.pa ∧ { who := r.who, line := lineOf p.pa, addr := p.pa, at_ := s.cycle } ∈ (t.slice (s.quadOf cl)).resv
        ∧ (∀ a, t.cohRead a 1 = s.cohRead a 1) ∧ dueIn t (s.toBank (clusterOf r.who) cl) (.replyArrival r.who
          { id := r.id, rd := r.rd, wr := true, val := BitVec.ofNat 64 (leNat (s.cohRead p.pa 8)), bank := true, served := s.cycle })))

/-- R303 to R307, R407, R474: the walkers' queues, what a walk leaves in the TLBs, the line that a fetch waits for, and a pending
event taking a steward into its trap entry. -/
def Obligations.WalksFetchesAndEntries : Prop :=
  (∀ (s : State) (w : SliceId) (c : CtxId) (slot : BitVec 4) (va : W64) (dirty : Bool) (i : Instr) (e : Ev),
    (i, e) ∈ [(Instr.walkRequest, Ev.walkRequest w c slot va dirty), (Instr.walkResend, Ev.walkResend w c slot va dirty)] →
    let x := s.slice w
    let page := va.toNat % 2 ^ 48 / 2 ^ 16
    let root := 4096 * (s.dev.asroot.getD slot.toNat (false, 0)).2.toNat
    let pa := root + 8 * (page / 2 ^ 23)
    let q : WalkReq := { slot := slot, page := page, dirty := dirty, who := [c] }
    (∀ y, x.walks = [y] → y.slot = slot → y.page = page → y.void = false → y.who.length < 64 → happens i e s (fun t =>
      (t.slice w).walks = [{ y with who := y.who ++ [c] }] ∧ t.agenda = s.agenda ∧ t.mem = s.mem)) ∧
    ((∀ y ∈ x.walks, y.slot = slot → y.page = page → y.void = true ∨ 64 ≤ y.who.length) →
    (x.walks.length < 32 → (s.dev.asroot.getD slot.toNat (false, 0)).1 = true → root < s.hbmLen → happens i e s (fun t =>
      (t.slice w).walks = x.walks ++ [{ q with started := true, no := s.fresh + 1, entry := pa }]
        ∧ dueIn t (walkerWay w (servingOf (w / 64) (lineOf pa))) (.servingSliceLoad (walkerReads w (s.fresh + 1) pa)) ∧ t.mem = s.mem)) ∧
    (x.walks.length < 32 → x.walkQ = [] → ((s.dev.asroot.getD slot.toNat (false, 0)).1 = false ∨ s.hbmLen ≤ root) → happens i e s (fun t => t.mem = s.mem
      ∧ (t.ctx c).walked = some (page, if (s.dev.asroot.getD slot.toNat (false, 0)).1 then 5 else 1)
      ∧ dueIn t (s.toSlice (clusterOf c) w) (.replyArrival c { adv := false }))) ∧
    (32 ≤ x.walks.length → x.walkQ.length < 512 → happens i e s (fun t => (t.slice w).walkQ = x.walkQ ++ [q] ∧ t.mem = s.mem)) ∧
    (32 ≤ x.walks.length → 512 ≤ x.walkQ.length → happens i e s (fun t => dueIn t 256 (.walkResend w c slot va dirty) ∧ t.mem = s.mem)))) ∧
  (∀ (s : State) (w : SliceId) (no : Nat) (e : W64) (q : WalkReq),
    (s.slice w).walks.find? (fun x => x.no == no) = some q → q.void = false → (s.slice w).walkQ = [] →
    let ends (cls : BitVec 4) : Prop := happens .walkComplete (.walkComplete w no e) s (fun t => t.mem = s.mem ∧
      ∀ c ∈ q.who, (t.ctx c).walked = some (q.page, cls) ∧ dueIn t (s.toSlice (clusterOf c) w) (.replyArrival c { adv := false }))
    let maps (x : TlbEnt) : Prop := happens .walkComplete (.walkComplete w no e) s (fun t => t.mem = s.mem ∧
      ∀ c ∈ q.who, (t.ctx c).leaf = some x ∧ dueIn t (s.toSlice (clusterOf c) w) (.replyArrival c { adv := false }))
    let pa := e.toNat / 256 * 256
    let bytes := if q.level = 1 then 2 ^ 30 else if q.level = 2 then 2 ^ 21 else 2 ^ 16
    let x : TlbEnt := {
      slot := q.slot, va := q.page * 2 ^ 16 / bytes * bytes, pa := pa, size := if q.level = 1 then 2 else if q.level = 2 then 1 else 0
      r := e.getLsbD 2, w := e.getLsbD 3, x := e.getLsbD 4, u := e.getLsbD 5, mig := e.getLsbD 6, d := e.getLsbD 7 }
    (q.ent = none → e.getLsbD 0 = false → ends 1) ∧
    (q.ent = none → e.getLsbD 0 = true → 2 ^ 52 ≤ e.toNat → ends 4) ∧
    (q.ent = none → e.getLsbD 0 = true → e.getLsbD 1 = false → e.toNat < 2 ^ 52 → e.toNat % 256 = 1 → q.level < 3 → (q.level < 2 → pa % 4096 = 0) → s.hbmLen ≤ pa → ends 5) ∧
    (q.ent = none → e.toNat < 2 ^ 52 → e.toNat % 256 = 1 → q.level < 3 → (q.level < 2 → pa % 4096 = 0) → pa < s.hbmLen → happens .walkComplete (.walkComplete w no e) s (fun t =>
      let next := pa + 8 * (q.page * 2 ^ 16 / (if q.level = 0 then 2 ^ 30 else if q.level = 1 then 2 ^ 21 else 2 ^ 16) % (if q.level = 2 then 32 else 512))
      t.mem = s.mem ∧ dueIn t (walkerWay w (servingOf (w / 64) (lineOf next))) (.servingSliceLoad (walkerReads w no next)))) ∧
    (q.ent = none → e.getLsbD 0 = true → e.getLsbD 1 = true → e.toNat < 2 ^ 52 → q.level ≠ 0 → pa % bytes = 0 →
      (q.dirty = false → maps x) ∧
      (q.dirty = true → happens .walkComplete (.walkComplete w no e) s (fun t => t.mem = s.mem
        ∧ dueIn t (walkerWay w (homeOf (lineOf q.entry))) (.homeStore { walkerReads w no q.entry with op := .fx 5, val := 0x80 })))) ∧
    (∀ y, q.ent = some y → maps { y with d := true })) ∧
  (∀ (s : State) (r : Req) (p : Piece), r.via = .fetch → r.pieces = [p] → r.posted = false → s.lentAway (128 * lineOf p.pa) = false →
    let x := s.sl (lineOf p.pa) (dieOf r.who)
    x.readable = true → x.fillAt = 0 → happens .servingSliceLoad (.servingSliceLoad r) s (fun t => t.lines = s.lines ∧ t.mem = s.mem
      ∧ dueIn t (s.toSlice (clusterOf r.who) (servingOf (dieOf r.who) (lineOf p.pa))) (.fetchMissFill r.who (lineOf p.pa) x.data))) ∧
  (∀ (s : State) (r : Req) (p : Piece) (cl off : Nat), r.via = .fetch → r.op = .load 6 → r.pieces = [p] → r.posted = false → r.again = false → r.early = false →
    s.region p.pa = .scratch cl off → hbmBytes ≤ p.pa → ((s.cluster cl).bankUse.1 = s.cycle → bankOf off ∉ (s.cluster cl).bankUse.2) →
    happens .bankAccess (.bankAccess r) s (fun t => t.mem = s.mem ∧ dueIn t (s.toBank (clusterOf r.who) cl)
      (.fetchMissFill r.who (lineOf p.pa) (BitVec.ofNat 1024 (leNat (Memory.read s.mem (128 * lineOf p.pa) 128)))))) ∧
  (∀ (s : State) (c : CtxId) (line : Nat) (d : LineData), (s.core (coreOf c)).frozen s.cycle = false → (s.core (coreOf c)).icache.length < 256 →
    happens .fetchMissFill (.fetchMissFill c line d) s (fun t =>
      Tab.find (t.core (coreOf c)).icache line = some d
        ∧ ((s.ctx c).why = .fetch → (t.ctx c).st = .issuing ∧ (t.ctx c).pc = (s.ctx c).pc) ∧ t.mem = s.mem)) ∧
  (∀ (s : State) (k : CoreId), (s.core k).eie = true → (s.core k).inh = false → s.pendingEvent k = true →
    happens .trapEntry (.trapEntry k) s (fun t => (t.ctx (k * 16)).pc = (s.core k).stvec ∧ (t.ctx (k * 16)).st = .issuing ∧ (t.core k).inh = true
      ∧ (t.core k).stepc = (s.ctx (k * 16)).pc &&& ~~~3#64 ∧ (t.ctx (k * 16)).g = (s.ctx (k * 16)).g ∧ t.mem = s.mem))

/-- R175, R188, R330 to R338, R386, R389: requests at a home or serving slice whose copy allows them: a store, an atomic, a load, a join,
a partial sent down and a recall; one whose copy does not is held, and the slice asks the directory. -/
def Obligations.SliceRequests : Prop :=
  (∀ (s : State) (r : Req) (p : Piece), r.via = .grain → r.pieces = [p] → r.again = false → r.early = false → r.done = 0 → p.pa < hbmBytes → p.pa % 128 + p.len ≤ 128 → 0 < p.len → p.len ≤ 8 →
    let line := lineOf p.pa
    let h := s.home line
    let w := if r.ct.ult (h.rts + 1) then h.rts + 1 else r.ct
    let back := s.toSlice (clusterOf r.who) (homeOf line)
    let upd (v : W64) : Upd := { pa := p.pa, bytes := leBytes p.len v.toNat, base := h.wts, wts := w }
    s.region p.pa = .hbm → s.lentAway p.pa = false → (s.slice (homeOf line)).resv = [] → (s.slice (homeOf line)).parked = [] →
    (h.writable = true → h.stores = [] → h.fillAt = 0 → r.op = .store → r.posted = true → happens .homeStore (.homeStore r) s (fun t =>
      (t.home line).data = LineData.put h.data (p.pa % 128) (leBytes p.len r.val.toNat) ∧ (t.home line).st = .m ∧ (t.home line).wts = w ∧ (t.home line).rts = w
        ∧ t.mem = s.mem ∧ (∀ n, n ≠ line → t.line n = s.line n) ∧ dueIn t back (.storeAcknowledgement r.who r.id { wts := w, upd := some (upd r.val) }))) ∧
    (h.writable = true → h.stores = [] → h.fillAt = 0 → (∃ fn, r.op = .fx fn) → happens .homeStore (.homeStore r) s (fun t =>
      dueNow t (.sliceAtomicOp r) ∧ t.lines = s.lines ∧ t.mem = s.mem)) ∧
    (h.writable = false → h.st = .i → h.ask = 0 → h.fillAt = 0 → happens .homeStore (.homeStore r) s (fun t =>
      (t.home line).stores = h.stores ++ [r] ∧ (t.home line).st = .imD ∧ (t.home line).data = h.data ∧ dueIn t 20 (.rdx line) ∧ t.mem = s.mem)) ∧
    (h.writable = true → (s.slice (homeOf line)).atomAt ≤ s.cycle → r.op = .fx 3 → r.merged = [] → r.posted = false → p.len = 8 → happens .sliceAtomicOp (.sliceAtomicOp r) s (fun t =>
      let old : W64 := BitVec.ofNat 64 (leNat (LineData.bytes h.data (p.pa % 128) 8))
      (t.home line).data = LineData.put h.data (p.pa % 128) (leBytes 8 (old + r.val).toNat) ∧ (t.home line).wts = w ∧ (t.slice (homeOf line)).atomAt = s.cycle + 1
        ∧ t.mem = s.mem ∧ (∀ n, n ≠ line → t.line n = s.line n)
        ∧ dueIn t back (.replyArrival r.who { id := r.id, rd := r.rd, wr := true, val := old, wts := w, did := true, upd := some (upd (old + r.val)), served := s.cycle }))) ∧
    (s.cycle < (s.slice (homeOf line)).atomAt → happens .sliceAtomicOp (.sliceAtomicOp r) s (fun t =>
      (∃ x ∈ t.agenda, x.due = (s.slice (homeOf line)).atomAt ∧ x.act = .ev (.sliceAtomicOp r)) ∧ t.lines = s.lines ∧ t.mem = s.mem))) ∧
  (∀ (s : State) (r : Req) (p : Piece) (fn : BitVec 3), r.via = .grain → r.pieces = [p] → r.done = 0 → r.got = 0 → r.op = .load fn → r.posted = false → s.lentAway (128 * lineOf p.pa) = false →
    let line := lineOf p.pa
    let x := s.sl line (dieOf r.who)
    let e := laterTime x.wts r.ct + 63
    (x.readable = true → x.fillAt = 0 → happens .servingSliceLoad (.servingSliceLoad r) s (fun t =>
      (t.sl line (dieOf r.who)).rts = laterTime x.rts e ∧ (t.sl line (dieOf r.who)).data = x.data ∧ t.mem = s.mem
        ∧ dueIn t (s.toSlice (clusterOf r.who) (servingOf (dieOf r.who) line)) (.replyArrival r.who
          { id := r.id, rd := r.rd, wr := true, val := loadExtend fn (BitVec.ofNat 64 (leNat (LineData.bytes x.data (p.pa % 128) p.len))), wts := x.wts
            fill := some (line, x.data, e), served := s.cycle, born := some r.born }))) ∧
    (x.st = .i → x.ask = 0 → x.fillAt = 0 → x.stores = [] → happens .servingSliceLoad (.servingSliceLoad r) s (fun t =>
      (t.sl line (dieOf r.who)).loads = x.loads ++ [r] ∧ (t.sl line (dieOf r.who)).st = .isD ∧ dueIn t 20 (.rds line (dieOf r.who) ((x.loads ++ [r]).headD {}).ct) ∧ t.mem = s.mem))) ∧
  (∀ (s : State) (ra rb : Req) (d oa ob qa qb : Nat), s.cycle < d → ra.via = .grain → rb.via = .grain → ra.id ≠ rb.id → ra.op = .fx 3 → rb.op = .fx 3 → ra.pieces = rb.pieces → ra.slot = rb.slot →
    ra.posted = true → rb.posted = true → ra.aq = false → ra.rl = false → rb.aq = false → rb.rl = false → ra.merged = [] → rb.merged = [] →
    s.agenda = [{ due := d, ord := oa, seq := qa, act := .ev (.homeStore ra) }, { due := d, ord := ob, seq := qb, act := .ev (.homeStore rb) }] →
    happens .routerMerge (.routerMerge ra.id rb.id) s (fun t => t.mem = s.mem ∧ ∃ x, t.agenda = [x] ∧ x.due = d ∧ x.act = .ev (.homeStore
      { ra with val := ra.val + rb.val, merged := [(rb.id, rb.who, rb.val, rb.num)] }))) ∧
  (∀ (s : State) (core line : Nat) (tag : BitVec 4), s.lentAway (128 * line) = false →
    let die := core / 2048
    let x := s.sl line die
    (x.st = .a → x.tag = tag → x.joins = [] → happens .accumJoin (.accumJoin core line tag) s (fun t =>
      (t.sl line die).holders = x.holders ||| (1#256 <<< (core / 8 % 256)) ∧ dueIn t (s.toSlice (core / 8) (servingOf die line)) (.accumGrant core line tag))) ∧
    (x.st = .i → x.ask = 0 → x.fillAt = 0 → x.stores = [] → x.loads = [] → x.joins = [] → happens .accumJoin (.accumJoin core line tag) s (fun t =>
      (t.sl line die).joins = [(core, tag)] ∧ (t.sl line die).st = .iaG ∧ dueIn t 20 (.ajn line die tag)))) ∧
  (∀ (s : State) (core line : Nat) (tag : BitVec 4) (y : L1Line), s.l1 core line = some y →
    (y.st = .ia → y.tag = tag → y.wait = [] → (s.core core).gadds = [] → happens .accumGrant (.accumGrant core line tag) s (fun t => t.l1 core line = some { st := .a, tag := tag } ∧ t.mem = s.mem)) ∧
    (y.st = .a → happens .partialEvict (.partialEvict core line) s (fun t =>
      (t.sl line (core / 2048)).sp = (partMerge y.tag (s.sl line (core / 2048)).sp y.part).1 ∧ (t.core core).l1 = Tab.erase (s.core core).l1 line ∧ t.mem = s.mem)) ∧
    (∀ b, y.st = .a → happens .coreRecall (.coreRecall core line b none) s (fun t =>
      t.l1 core line = some { st := .ar, tag := y.tag } ∧ t.mem = s.mem
        ∧ dueIn t (s.toSlice (core / 8) (servingOf (core / 2048) line)) (.coreRecall core line b (some y.part)))) ∧
    (∀ b other part, y.st = .ar → y.wait = [] → (s.core core).gadds = [] → (s.sl line (core / 2048)).asked = [core, other] → core ≠ other → part.present ≠ 0 →
      happens .coreRecall (.coreRecall core line b (some part)) s (fun t => (t.sl line (core / 2048)).asked = [other] ∧ t.mem = s.mem
        ∧ (t.sl line (core / 2048)).answers = Tab.set (s.sl line (core / 2048)).answers core part ∧ (t.core core).l1 = Tab.erase (s.core core).l1 line))) ∧
  (∀ (s : State) (d : Nat), d < 2 → happens .ctTick (.ctTick d) s (fun t => t.mem = s.mem ∧ t.ctxs = s.ctxs ∧
    ∀ k, k < 4096 → t.ct k = s.ct k + (if k / 2048 = d then 1 else 0)))

/-- R335, R338, R348 to R350, R476, R477: the directory's messages at a slice: a fill is installed 20 cycles after it comes, grants raise
the copy, forwards and invalidations take it, a recall asks every core of the marked clusters, and a merge folds the partials in order. -/
def Obligations.SliceMessages : Prop :=
  ∀ (s : State) (line : Nat),
    let h := homeDie line
    let y := s.home line
    (∀ die g d fe w r, die < 2 → let x := s.sl line die
      (x.fillAt = 0 → happens .dataMsg (.dataMsg line die g d fe w r) s (fun t => (t.sl line die).fillAt = s.cycle + 20 ∧ dueIn t 20 (.cmp line)
        ∧ dueIn t 20 (.dataMsg line die g d fe w r) ∧ t.mem = s.mem)) ∧
      (x.fillAt = s.cycle → s.cycle ≠ 0 → x.stores = [] → x.loads = [] → x.joins = [] → x.st ≠ .m →
        ((s.held2 (servingOf die line) (sliceSet line)).filter (· != line)).length < sliceWays →
        happens .dataMsg (.dataMsg line die g d fe w r) s (fun t => let z := t.sl line die
          z.data = d ∧ z.fe = fe ∧ z.wts = w ∧ z.rts = r ∧ z.fillAt = 0 ∧ z.ask = 0 ∧ z.st = (match g with | .s => .s | .e => .e | .m => .m) ∧ t.mem = s.mem))) ∧
    (∀ m, y.stores = [] → y.loads = [] → y.joins = [] → happens .gnt (.gnt line m) s (fun t => (t.home line).st = .m ∧ (t.home line).rts = laterTime y.rts m
      ∧ (t.home line).data = y.data ∧ dueIn t 20 (.cmp line) ∧ t.mem = s.mem)) ∧
    (∀ die tag, die < 2 → (s.sl line die).joins = [] → (s.sl line die).stores = [] → (s.sl line die).loads = [] →
      ((s.held2 (servingOf die line) (sliceSet line)).filter (· != line)).length < sliceWays →
      happens .agnt (.agnt line die tag) s (fun t => (t.sl line die).st = .a ∧ (t.sl line die).tag = tag ∧ dueIn t 20 (.cmp line) ∧ t.mem = s.mem)) ∧
    (y.st = .m → happens .fws (.fws line (.slice (1 - h))) s (fun t => (t.home line).st = .o ∧ (t.home line).data = y.data
      ∧ dueIn t 20 (.dataMsg line (1 - h) .s y.data y.fe y.wts y.rts) ∧ dueIn t 20 (.fack line (some (y.data, y.fe)) false y.wts y.rts) ∧ t.mem = s.mem)) ∧
    (∀ n, y.st = .m → happens .fws (.fws line (.port n)) s (fun t => (t.home line).st = .s
      ∧ dueIn t 20 (.fack line (some (y.data, y.fe)) false y.wts y.rts) ∧ t.mem = s.mem)) ∧
    (y.st = .m → y.ask = 0 → y.fillAt = 0 → y.stores = [] → y.loads = [] → y.joins = [] → happens .fwb (.fwb line) s (fun t => (t.home line).st = .i
      ∧ dueIn t 20 (.fack line (some (y.data, y.fe)) false y.wts y.rts) ∧ t.mem = s.mem)) ∧
    (∀ die, die < 2 → (s.sl line die).st = .s → (s.sl line die).ask = 0 → (s.sl line die).fillAt = 0 → (s.sl line die).stores = [] → (s.sl line die).loads = [] →
      (s.sl line die).joins = [] → happens .invMsg (.invMsg line die) s (fun t => (t.sl line die).st = .i ∧ dueIn t 20 (.iack line die (s.sl line die).rts) ∧ t.mem = s.mem)) ∧
    (∀ die, die < 2 → (s.sl line die).st = .miW ∨ (s.sl line die).st = .siP → (s.sl line die).stores = [] → (s.sl line die).loads = [] → (s.sl line die).joins = [] →
      happens .wback (.wback line die) s (fun t => (t.sl line die).st = .i ∧ t.mem = s.mem)) ∧
    (∀ v fe lists m, s.cycle < (s.slice (homeOf line)).atomAt → happens .mrg (.mrg line v fe lists m) s (fun t =>
      (∃ x ∈ t.agenda, x.due = (s.slice (homeOf line)).atomAt ∧ x.act = .ev (.mrg line v fe lists m)) ∧ t.lines = s.lines ∧ t.mem = s.mem)) ∧
    (∀ v fe lists m, (s.slice (homeOf line)).atomAt ≤ s.cycle → y.stores = [] → y.loads = [] → y.joins = [] → (s.slice (homeOf line)).resv = [] → 128 * line < hbmBytes →
      ((s.held2 (servingOf h line) (sliceSet line)).filter (· != line)).length < sliceWays →
      let top := laterTime y.rts m
      happens .mrg (.mrg line v fe lists m) s (fun t =>
      (t.home line).st = .m ∧ (t.home line).data = (foldLists (s.line line).tag v (lists.map (·.2))).1 ∧ (t.home line).fe = fe
        ∧ (t.home line).wts = top + 1 ∧ (t.home line).rts = top + 1 ∧ (t.slice (homeOf line)).atomAt = s.cycle + 1 ∧ dueIn t 20 (.cmp line) ∧ t.mem = s.mem)) ∧
    (∀ die b, die < 2 → (s.sl line die).stores = [] → (s.sl line die).loads = [] → (s.sl line die).joins = [] → happens .rcl (.rcl line die b) s (fun t => t.mem = s.mem ∧
      ((s.sl line die).holders = 0 → dueIn t 20 (.plist line die (if b then [] else [(0, (s.sl line die).sp)])) ∧ (t.sl line die).sp = {}) ∧
      ((s.sl line die).holders ≠ 0 → (t.sl line die).st = .ar ∧ ∀ core, core / 2048 = die → (s.sl line die).holders.getLsbD (core / 8 % 256) = true →
        core ∈ (t.sl line die).asked ∧ dueIn t (s.toSlice (core / 8) (servingOf die line)) (.coreRecall core line b none))))

namespace Sys2Proof.Stated

/-- A port that takes an access at once: a Camsum port, or a host's while the device answers and nothing waits at it (R447, R460). -/
def portTakes (s : State) (port : Nat) : Prop :=
  port < 2 → s.answers = true ∧ Tab.get [] s.dev.portQ port = [] ∧ Tab.get 0 s.dev.portBusy port = 0

/-- The requests that open a transaction on a line at the directory: the row, and what the directory keeps of it (R345, R346, R477). -/
def directoryRequest (s : State) (line : Nat) : Ev → Option (Instr × DirReq)
  | .rds n d ct => if n = line then some (.rds, .rds (.slice d) ct) else none
  | .rdx n => if n = line then some (.rdx, .rdx) else none
  | .upg n => if n = line then some (.upg, .upg) else none
  | .ajn n d tag => if n = line then some (.ajn, .ajn d tag) else none
  | .aev n d => if n = line then some (.aev, .aev d) else none
  | .putMsg n d r => if n = line then some (.putMsg, .put d r) else none
  | .wb n d fe w r => if n = line then some (.wb, .wb d fe w r) else none
  | .lineStep n op c b => if n = line then some (.lineStep, .lineStep op c b) else none
  | .hostPortRead port addr len id true => if lineOf (s.portPa port addr) = line then some (.hostPortRead, .portRead port id (s.portPa port addr % 128) len) else none
  | .hostPortWrite port addr bs relaxed true =>
    if lineOf (s.portPa port addr) = line then some (.hostPortWrite, .portWrite port (s.portPa port addr % 128) bs relaxed) else none
  | _ => none

/-- A transaction whose lookup ends in this cycle is the line's, and no request waits behind it. -/
def looking (s : State) (line : Nat) (q : DirReq) : Prop :=
  (s.line line).txn = some { req := q, at_ := s.cycle } ∧ (s.line line).queue = []

end Sys2Proof.Stated

/-- R338, R345 to R347, R349, R350, R476, R477: the directory: a request opens a transaction 20 cycles ahead or waits behind one; what each
request does to a line that nobody holds, and the answers that end a transaction. -/
def Obligations.DirectoryMessages : Prop :=
  (∀ (s : State) (port addr : Nat) (e : Bool → Ev) (i : Instr),
    ((∃ len id, i = .hostPortRead ∧ e = .hostPortRead port addr len id) ∨ (∃ bs rel, i = .hostPortWrite ∧ e = .hostPortWrite port addr bs rel)) →
    (portTakes s port → s.region (s.portPa port addr) = .hbm → happens i (e false) s (fun t =>
      dueIn t (s.hostWay port (s.portPa port addr)) (e true) ∧ t.lines = s.lines ∧ t.mem = s.mem)) ∧
    ((port < 2 ∧ s.answers = false) ∨ s.region (s.portPa port addr) ≠ .hbm → happens i (e false) s (fun t =>
      t.out = s.out ++ [.abort port] ∧ t.lines = s.lines ∧ t.mem = s.mem))) ∧
  ∀ (s : State) (line : Nat), 128 * line < hbmBytes → s.dev.bridge = [] →
    let h := homeDie line
    let x := s.line line
    (∀ i e q, directoryRequest s line e = some (i, q) → x.txn = none → happens i e s (fun t =>
      (t.line line).txn = some { req := q, at_ := s.cycle + 20 } ∧ (∃ y ∈ t.agenda, y.due = s.cycle + 20 ∧ y.act = .ev e) ∧ t.mem = s.mem)) ∧
    (∀ i e q u, directoryRequest s line e = some (i, q) → x.txn = some u → u.clear = false → u.req ≠ q → u.fack = false → u.iacks = [] → u.plists = [] →
      s.waitingAt (memSideOf line) < 256 → happens i e s (fun t =>
      (t.line line).queue = x.queue ++ [q] ∧ (t.line line).txn = some u ∧ t.mem = s.mem)) ∧
    (∀ d fe, x.st = .i → x.msc = some (d, fe, false) →
      (looking s line (.rds (.slice h) 0) → happens .rds (.rds line h 0) s (fun t => (t.line line).st = .e ∧ (∃ u, (t.line line).txn = some u ∧ u.cmp = true)
        ∧ ∃ r, dueIn t 20 (.dataMsg line h .e d fe x.wts r))) ∧
      (looking s line .rdx → happens .rdx (.rdx line) s (fun t => (t.line line).st = .m ∧ ∃ r, dueIn t 20 (.dataMsg line h .m d fe x.wts r))) ∧
      (∀ tag, looking s line (.ajn h tag) → happens .ajn (.ajn line h tag) s (fun t => (t.line line).st = .a ∧ (t.line line).tag = tag
        ∧ dueIn t 20 (.agnt line h tag))) ∧
      (∀ port addr off len id, s.portPa port addr = 128 * line + off → off < 128 → looking s line (.portRead port id off len) →
        happens .hostPortRead (.hostPortRead port addr len id true) s (fun t =>
          (t.line line).txn = none ∧ t.out = s.out ++ [.portData port id (LineData.bytes d off len) (s.cycle + s.hostWay port (128 * line))])) ∧
      (∀ port addr off bs relaxed, s.portPa port addr = 128 * line + off → off < 128 → looking s line (.portWrite port off bs relaxed) → (s.slice (homeOf line)).resv = [] →
        (s.slice (homeOf line)).parked = [] → happens .hostPortWrite (.hostPortWrite port addr bs relaxed true) s (fun t =>
          (t.line line).txn = none ∧ (∃ f, (t.line line).msc = some (LineData.put d off bs, f, true))
            ∧ t.out = s.out ++ [.portDone port (s.cycle + s.hostWay port (128 * line))]))) ∧
    (x.st = .s → x.sh h = true → x.sh (1 - h) = false → looking s line .upg → happens .upg (.upg line) s (fun t => (t.line line).st = .m
      ∧ dueIn t 20 (.gnt line x.maxRts) ∧ t.mem = s.mem)) ∧
    (x.st = .a → x.sh 0 = true → x.sh 1 = true → looking s line (.aev 0) → happens .aev (.aev line 0) s (fun t => (∃ u, (t.line line).txn = some u ∧ u.plists = [0, 1])
      ∧ dueIn t 20 (.rcl line 0 false) ∧ dueIn t 20 (.rcl line 1 false) ∧ t.mem = s.mem)) ∧
    (∀ r, x.st = .s → x.sh 0 = true → x.sh 1 = true → looking s line (.put 0 r) → happens .putMsg (.putMsg line 0 r) s (fun t => (t.line line).st = .s
      ∧ (t.line line).sh 0 = false ∧ (t.line line).sh 1 = true ∧ (t.line line).maxRts = laterTime x.maxRts r ∧ dueIn t 20 (.wback line 0) ∧ t.mem = s.mem)) ∧
    (∀ d fe w r, x.st = .m → looking s line (.wb d fe w r) → happens .wb (.wb line d fe w r) s (fun t => (t.line line).st = .i
      ∧ (t.line line).msc = some (d, fe, true) ∧ (t.line line).wts = w ∧ (t.line line).rts = r ∧ dueIn t 20 (.wback line h))) ∧
    (∀ u w r data, x.txn = some u → u.req = .rds (.slice (1 - h)) 0 → u.fack = true → u.looked = true → u.iacks = [] → u.plists = [] → u.cmp = false → u.merge = false → x.queue = [] → x.st = .m →
      u.absorbed = false → u.absorbedPut = [] → happens .fack (.fack line data false w r) s (fun t =>
      (t.line line).st = (if data.isSome then .o else .s) ∧ (t.line line).sh (1 - h) = true ∧ (data.isNone → (t.line line).sh h = true)
        ∧ (∃ v, (t.line line).txn = some v ∧ v.fack = false ∧ v.cmp = true) ∧ (t.line line).maxRts = laterTime x.maxRts r ∧ t.mem = s.mem)) ∧
    (∀ u die other r, x.txn = some u → u.iacks = [die, other] → die ≠ other → happens .iack (.iack line die r) s (fun t =>
      (∃ v, (t.line line).txn = some v ∧ v.iacks = [other]) ∧ (t.line line).maxRts = laterTime x.maxRts r ∧ t.mem = s.mem)) ∧
    (∀ u l, x.txn = some u → u.plists = [1] → u.req = .rdx → happens .plist (.plist line 1 l) s (fun t =>
      (∃ v, (t.line line).txn = some v ∧ v.plists = [] ∧ v.merge = true)
        ∧ dueIn t 20 (.mrg line (s.memSide line).1 (s.memSide line).2 (u.lists ++ l) x.maxRts) ∧ t.mem = s.mem)) ∧
    (∀ u, x.txn = some u → u.merge = false → u.cmp = true → u.absorbed = false → u.absorbedPut = [] → x.queue = [] → happens .cmp (.cmp line) s (fun t =>
      (t.line line).txn = none ∧ (t.line line).st = x.st ∧ t.mem = s.mem)) ∧
    (∀ batch d fe c rd o, looking s line (.lineStep 0 false batch) → x.st = .i → x.msc = some (d, fe, true) → (s.sl line 0).st = .i → (s.sl line 1).st = .i →
      (s.sl line 0).fillAt = 0 → (s.sl line 1).fillAt = 0 → (∀ k, (s.sl line k).loads = [] ∧ (s.sl line k).stores = [] ∧ (s.sl line k).joins = []) →
      Tab.find s.ranges batch = some o → o.left = 1 → o.lend = none → o.who = some (c, rd) →
      happens .lineStep (.lineStep line 0 false batch) s (fun t => (t.line line).msc = some (d, fe, false)
        ∧ t.mem = Memory.write s.mem (128 * line) (LineData.bytes d 0 128) ∧ (t.line line).txn = none ∧ Tab.find t.ranges batch = Tab.find (Tab.erase s.ranges batch) batch
        ∧ dueIn t (s.toSlice (clusterOf c) (homeOf line)) (.replyArrival c { id := batch, rd := rd, wr := true, val := o.res, did := true })))

/-! Grains, barriers, bolts, cache instructions and units (chapters 7, 8, 11, 12, 17 and 18). -/

namespace Sys2Proof.Stated

/-- Instructions that only a core's steward may run (R144, R165 to R167, R408). -/
def stewardOnly : Instr → Bool
  | .cstart .. => true
  | .cstop .. => true
  | .creap .. => true
  | _ => false

/-- Instructions that only privileged contexts may run (R136, R311, R442, R448). -/
def privilegedOnly : Instr → Bool
  | .sret => true
  | .tlbinv .. => true
  | .rwake .. => true
  | .rlendLend .. => true
  | .rlendRecall .. => true
  | .rlendQuery .. => true
  | _ => false

/-- A context is free for a job slot (R146). -/
def freeFor (s : State) (slot : BitVec 4) (c : CtxId) : Prop :=
  (s.ctx c).st = .stopped ∧ 1 ≤ c % 16 ∧ c % 16 ≤ 14 ∧ (s.core (c / 16)).slots.getLsbD slot.toNat = true ∧ s.oddTwin c = false

/-- A started context: its PC, level and slot, the registers delivered live, every other register dead, TMASK and FERC as after
reset, no counts (R29, R35). -/
def startedAt (x : Ctx) (pc : W64) (priv : Bool) (slot : BitVec 4) (args : List (BitVec 4 × W64)) : Prop :=
  x.pc = pc ∧ x.priv = priv ∧ x.slot = slot ∧ x.tmask = 0x03E0 ∧ x.ferc = 0x10 ∧ x.ocls = 0 ∧ x.pp = false ∧ x.evc = EvcSet.zero ∧ x.btmo = 0
    ∧ (∀ a ∈ args, x.rd a.1 = a.2) ∧ (∀ r : BitVec 4, r ≠ 0 → (∀ a ∈ args, a.1 ≠ r) → x.dead.getLsbD r.toNat = true)

/-- The running context waits for a reply under the next token, with nothing of it changed that an instruction can see. -/
def waitsForReply (s t : State) : Prop :=
  t.me.st = .waiting ∧ t.me.why = .reply (s.fresh + 1) ∧ t.me.pc = s.me.pc ∧ t.me.g = s.me.g ∧ t.me.dead = s.me.dead ∧ t.me.evc = s.me.evc
    ∧ (∀ c, c ≠ s.cur → t.ctx c = s.ctx c)

/-- The unit's reply to the running context, which waits for it: some cycles from now it writes a register. -/
def replies (s t : State) (n : Nat) (d : BitVec 4) (v : W64) : Prop :=
  dueIn t n (.replyArrival s.cur { id := s.me.token, rd := d, wr := true, val := v, did := true })

/-- The running context's instruction has reached its unit, and it still waits for the reply. -/
def atItsUnit (s : State) : Prop := s.me.pp = false ∧ s.stage = 1 ∧ ∃ id, s.me.why = .reply (id + 1)

end Sys2Proof.Stated

/-- R25, R136, R144, R165 to R167, R311, R442, R448: at user level a privileged instruction takes the privilege trap, and outside a
steward one of a steward does, at either level. -/
def Obligations.PrivilegeChecked : Prop :=
  ∀ (i : Instr) (s : State), s.me.pp = false → s.stage = 0 → s.cur % 16 ≠ 0 →
    (stewardOnly i = true ∨ privilegedOnly i = true ∧ s.me.priv = false) → exec i s = .next (exactTrap s 0x03 0 ((wordOfInstr i).setWidth 64))

/-- R29, R35, R165 to R167: CSTART starts a Stopped context of its core, CSTOP discards one and answers its state, CREAP one that has
ended or trapped. -/
def Sys2Proof.Stated.ContextsControlled : Prop :=
  ∀ (s : State) (d a b v : BitVec 4), s.me.pp = false → s.stage = 0 → s.cur % 16 = 0 →
    let n := ((s.rd a).extractLsb' 0 4).toNat
    let c := s.cur + n
    let x := s.ctx c
    (n = 0 → exec (.cstart d a b v) s = .next (s.put d 2) ∧ exec (.cstop d a) s = .next (s.put d 15)) ∧
    (n ≠ 0 → x.st ≠ .stopped → exec (.cstart d a b v) s = .next (s.put d 1)) ∧
    (1 ≤ n → n ≤ 14 → x.st = .stopped → s.oddTwin c = false → (s.rd b).toNat % 4 ≠ 0 → exec (.cstart d a b v) s = .next (s.put d 3)) ∧
    (1 ≤ n → n ≤ 14 → x.st = .stopped → s.oddTwin c = false → (s.rd b).toNat % 4 = 0 → ∃ t, exec (.cstart d a b v) s = .next t
      ∧ startedAt (t.ctx c) (s.rd b) ((s.rd a).getLsbD 4) ((s.rd a).extractLsb' 8 4) [(1, s.rd v)] ∧ (t.ctx c).st = (if (s.rd a).getLsbD 5 then .held else .issuing)
      ∧ t.rd d = 0 ∧ t.me.pc = s.me.pc + 4 ∧ t.mem = s.mem) ∧
    (n = 15 → x.st = .stopped → s.oddTwin c = false → ∃ t, exec (.cstart d a b v) s = .next t ∧ (t.ctx c).st = .waiting ∧ (t.ctx c).why = .event
      ∧ (t.ctx c).dead = 0xFFFE ∧ dueNow t (.messageTake (coreOf c)) ∧ t.rd d = 0 ∧ t.me.pc = s.me.pc + 4 ∧ t.mem = s.mem) ∧
    (n ≠ 0 → x.gang = none → s.twin c = none → s.oddTwin c = false → x.st ≠ .migrating → x.pend = [] → x.csrTo = none → x.msg = none → x.why = .none → ∃ t, exec (.cstop d a) s = .next t ∧ (t.ctx c).st = .stopped
      ∧ t.rd d = (if d = 0 then 0 else BitVec.ofNat 64 x.st.code) ∧ t.me.pc = s.me.pc + 4 ∧ t.mem = s.mem) ∧
    (n ≠ 0 → s.oddTwin c = false → x.st ≠ .ended → x.st ≠ .trapped → exec (.creap d a) s = .next (s.put d (BitVec.ofNat 64 x.st.code))) ∧
    (1 ≤ n → n ≤ 14 → s.twin c = none → s.oddTwin c = false → x.st = .ended ∨ x.st = .trapped → ∃ t, exec (.creap d a) s = .next t ∧ (t.ctx c).st = .stopped
      ∧ t.rd d = (if d = 0 then 0 else BitVec.ofNat 64 (x.st.code + 16)) ∧ t.me.pc = s.me.pc + 4 ∧ t.mem = s.mem)

/-- R146, R150, R152: SPAWN to a core of its chip sends its request; a request at its core starts the lowest free context; RFORK at its turn
writes its forker's reply for 24 cycles later, and that reply then comes. -/
def Sys2Proof.Stated.SpawnsComplete : Prop :=
  (∀ (s : State) (d a b : BitVec 4), s.me.pp = false → s.twin s.cur = none → (s.rd b).toNat % 4 = 0 → (s.rd a).toNat / 2 ^ 24 = 0 →
    let core := ((s.rd a).extractLsb' 0 24).toNat
    core / 4096 = s.dev.chip.toNat → s.routeHold s.cur (core / 4096) = false →
      ∃ t r, exec (.spawn d a b) s = .next t ∧ waitsForReply s t ∧ t.mem = s.mem ∧ dueIn t (s.toCluster (clusterOf s.cur) (core % 4096 / 8)) (.spawnArrival r)
        ∧ r.core = core ∧ r.pc = s.rd b ∧ r.rd = d ∧ r.slot = s.slotOf s.cur) ∧
  (∀ (s : State) (r : SpawnReq) (n : Nat), r.core / 4096 = s.dev.chip.toNat → r.from_ / 65536 = s.dev.chip.toNat → r.again = false →
    let k := r.core % 4096
    s.clusterValid (k / 8) = true → n < 16 → freeFor s r.slot (16 * k + n) → (∀ m, m < n → ¬ freeFor s r.slot (16 * k + m)) → s.twin (16 * k + n) = none →
    happens .spawnArrival (.spawnArrival r) s (fun t => (t.ctx (16 * k + n)).st = .issuing
      ∧ startedAt (t.ctx (16 * k + n)) r.pc false r.slot [(1, r.a1), (2, r.a2), (3, r.a3), (4, r.a4)] ∧ t.mem = s.mem)) ∧
  (∀ (s : State) (d a b j : BitVec 4) (id : Nat) (q : Req), s.stage = 1 → s.twin s.cur = none → s.me.why = .reply id → s.me.load = some q →
    let n := ((s.rd a).extractLsb' 0 32).toNat
    let grain := max 1 ((s.rd a).extractLsb' 32 16).toNat
    let m := 1 + (s.recruits s.cur (s.slotOf s.cur) (max 1 ((n + grain - 1) / grain) - 1)).length
    ∃ t, exec (.rfork d a b j) s = .next t ∧ dueIn t 24 (.rforkResume s.cur id d (BitVec.ofNat 64 (n / m))) ∧ t.mem = s.mem) ∧
  (∀ (s : State) (c : CtxId) (id : Nat) (d : BitVec 4) (v : W64), (s.ctx c).awaits id = true →
    happens .rforkResume (.rforkResume c id d v) s (fun t => dueNow t (.replyArrival c { id := id, rd := d, wr := true, val := v, did := true }) ∧ t.ctxs = s.ctxs ∧ t.mem = s.mem))

/-- R29, R35, R146, R150, R152, R165 to R167: CSTART, CSTOP and CREAP, and contexts started by SPAWN and RFORK. -/
def Obligations.ContextControl : Prop := ContextsControlled ∧ SpawnsComplete

/-- R146, R150 to R152, R168, R169: SPAWN sends one request and waits for its status, and at its core the request starts the lowest free
context; RFORK sends its request, at its turn it starts the free contexts of the cluster with equal shares of the trip count, and 24 cycles
later the forker goes on with the end of its own share. -/
def Obligations.SpawnsAndForks : Prop :=
  (∀ (s : State) (d a b : BitVec 4), s.me.pp = false → s.twin s.cur = none → (s.rd b).toNat % 4 = 0 →
    let core := ((s.rd a).extractLsb' 0 24).toNat
    ((s.rd a).toNat / 2 ^ 24 ≠ 0 → ∃ t, exec (.spawn d a b) s = .next t ∧ waitsForReply s t ∧ t.mem = s.mem
      ∧ dueIn t 1 (.replyArrival s.cur { id := s.fresh + 1, rd := d, wr := true, val := 3, did := true })) ∧
    ((s.rd a).toNat / 2 ^ 24 = 0 → core / 4096 = s.dev.chip.toNat → s.routeHold s.cur (core / 4096) = false →
      ∃ t r, exec (.spawn d a b) s = .next t ∧ waitsForReply s t ∧ t.mem = s.mem ∧ dueIn t (s.toCluster (clusterOf s.cur) (core % 4096 / 8)) (.spawnArrival r)
        ∧ r.id = s.fresh + 1 ∧ r.from_ = s.ctxNumber s.cur ∧ r.rd = d ∧ r.core = core ∧ r.pc = s.rd b ∧ r.a1 = s.rd 1 ∧ r.a2 = s.rd 2 ∧ r.a3 = s.rd 3
        ∧ r.a4 = s.rd 4 ∧ r.slot = s.slotOf s.cur)) ∧
  (∀ (s : State) (d a b : BitVec 4), s.me.pp = false → s.twin s.cur = none → (s.rd b).toNat % 4 = 0 → (s.rd a).toNat / 2 ^ 24 = 0 →
    let core := ((s.rd a).extractLsb' 0 24).toNat
    core / 4096 ≠ s.dev.chip.toNat → s.routeHold s.cur (core / 4096) = false → ∃ t r o, exec (.spawn d a b) s = .next t ∧ waitsForReply s t ∧ t.mem = s.mem
      ∧ dueIn t 0 (.spawnArrival r) ∧ t.sent = s.sent ++ [o] ∧ o.id = r.id ∧ o.who = s.cur ∧ o.rd = d ∧ o.spawn = some r ∧ r.id = s.fresh + 1
      ∧ r.from_ = s.ctxNumber s.cur ∧ r.core = core ∧ r.pc = s.rd b ∧ r.num = s.me.num) ∧
  (∀ (s : State) (r : SpawnReq), r.core / 4096 = s.dev.chip.toNat → r.from_ / 65536 = s.dev.chip.toNat → r.again = false →
    let k := r.core % 4096
    let back (t : State) (v : W64) := dueIn t (s.toCluster (k / 8) (r.from_ % 65536 / 128)) (.replyArrival (r.from_ % 65536) { id := r.id, rd := r.rd, wr := true, val := v, did := true })
    (s.clusterValid (k / 8) = false → happens .spawnArrival (.spawnArrival r) s (fun t => back t 3 ∧ t.ctxs = s.ctxs)) ∧
    (s.clusterValid (k / 8) = true → (s.core k).slots.getLsbD r.slot.toNat = false → happens .spawnArrival (.spawnArrival r) s (fun t => back t 2 ∧ t.ctxs = s.ctxs)) ∧
    (s.clusterValid (k / 8) = true → (s.core k).slots.getLsbD r.slot.toNat = true → (∀ n, n < 16 → ¬ freeFor s r.slot (16 * k + n)) →
      happens .spawnArrival (.spawnArrival r) s (fun t => back t 1 ∧ t.ctxs = s.ctxs)) ∧
    (∀ n, s.clusterValid (k / 8) = true → n < 16 → freeFor s r.slot (16 * k + n) → (∀ m, m < n → ¬ freeFor s r.slot (16 * k + m)) → s.twin (16 * k + n) = none →
      happens .spawnArrival (.spawnArrival r) s (fun t => back t 0 ∧ startedAt (t.ctx (16 * k + n)) r.pc false r.slot [(1, r.a1), (2, r.a2), (3, r.a3), (4, r.a4)]
        ∧ (t.ctx (16 * k + n)).st = .issuing ∧ (t.ctx (16 * k + n)).auto = true ∧ (∀ c, c ≠ 16 * k + n → t.ctx c = s.ctx c) ∧ t.mem = s.mem))) ∧
  (∀ (s : State) (d a b j : BitVec 4) (pa cl off : Nat) (e : TlbEnt), s.me.pp = false → s.twin s.cur = none → (s.rd b).toNat % 4 = 0 → (s.rd j).toNat % 8 = 0 →
    (s.stage = 0 → s.look s.cur (s.rd j) .w = .hit pa e → s.region pa = .scratch cl off → s.refusedByte pa 8 = none →
      s.mustHold s.cur { op := .store, va := s.rd j, posted := true } (splitLines pa 8) = false → ∃ t, exec (.rfork d a b j) s = .next t ∧ waitsForReply s t ∧ t.mem = s.mem
        ∧ ∃ x ∈ t.agenda, x.due = s.cycle ∧ x.who = s.cur ∧ x.stage = 1 ∧ x.act = .run (.rfork d a b j)) ∧
    (∀ id q, s.stage = 1 → s.me.why = .reply id → s.me.st ≠ .stopped → s.me.load = some q → (q.pieces.headD {}).pa = pa → s.region pa = .scratch cl off → s.me.gang = none →
      let n := ((s.rd a).extractLsb' 0 32).toNat
      let grain := max 1 ((s.rd a).extractLsb' 32 16).toNat
      let l := s.recruits s.cur (s.slotOf s.cur) (max 1 ((n + grain - 1) / grain) - 1)
      let m := l.length + 1
      (∀ c ∈ l, s.twin c = none) → ∃ t, exec (.rfork d a b j) s = .next t ∧ t.mem = s.mem
        ∧ dueIn t 24 (.rforkResume s.cur id d (BitVec.ofNat 64 (n / m)))
        ∧ (∃ r, dueIn t (s.toBank (clusterOf s.cur) cl) (.bankAccess r) ∧ r.op = .store ∧ r.val = BitVec.ofNat 64 m ∧ r.pieces = q.pieces ∧ r.posted = true)
        ∧ (∀ i, i < l.length → (t.ctx (l.getD i 0)).st = .issuing ∧ startedAt (t.ctx (l.getD i 0)) (s.rd b) false (s.slotOf s.cur)
          [(1, BitVec.ofNat 64 ((i + 1) * n / m)), (2, BitVec.ofNat 64 ((i + 2) * n / m)), (3, BitVec.ofNat 64 (i + 1)), (4, s.rd j)]))) ∧
  (∀ (s : State) (c : CtxId) (id : Nat) (d : BitVec 4) (v : W64),
    ((s.ctx c).awaits id = true → happens .rforkResume (.rforkResume c id d v) s (fun t =>
      t = ({ s with ev := .rforkResume c id d v } : State).now (.replyArrival c { id := id, rd := d, wr := true, val := v, did := true }))) ∧
    ((s.ctx c).awaits id = false → happens .rforkResume (.rforkResume c id d v) s (fun t => t = { s with ev := .rforkResume c id d v })))

/-- R159 to R162, R193: MIGR stays, with a status, where it cannot go, and else asks the home's mesh stop; a grant makes the destination
Held and the old context Migrating, an acceptance moves the grain and its counts, and a reply after it is forwarded, held or dropped. -/
def Obligations.Migration : Prop :=
  (∀ (s : State) (d a : BitVec 4) (pa : Nat) (e : TlbEnt), s.me.pp = false → s.twin s.cur = none → s.look s.cur (s.rd a) .r = .hit pa e → s.region pa = .hbm →
    let h := homeOf (lineOf pa)
    (s.me.gang ≠ none → exec (.migr d a) s = .next (s.put d 3)) ∧
    (s.me.gang = none → h = s.quadOf (clusterOf s.cur) → exec (.migr d a) s = .next (s.put d 2)) ∧
    (s.me.gang = none → h ≠ s.quadOf (clusterOf s.cur) → s.me.pend = [] → ∃ t, exec (.migr d a) s = .next t ∧ waitsForReply s t ∧ t.mem = s.mem
      ∧ dueIn t (s.toSlice (clusterOf s.cur) h) (.migrationGrant s.cur h none d (s.me.pc + 4)))) ∧
  (∀ (s : State) (c : CtxId) (h : SliceId) (d : BitVec 4) (pc : W64) (id : Nat), (s.ctx c).why = .reply id →
    (∀ dst, c % 16 ≠ 0 → c % 16 ≠ 15 → s.twin c = none → s.grantOf h (s.slotOf c) = some dst → dst ≠ c → happens .migrationGrant (.migrationGrant c h none d pc) s (fun t =>
      (t.ctx dst).st = .held ∧ (t.ctx c).st = .migrating ∧ t.ct (coreOf dst) = laterTime (s.ct (coreOf dst)) (s.ct (coreOf c)) ∧ t.mem = s.mem
        ∧ ∃ m, dueIn t (s.toSlice (clusterOf c) h + s.toCluster (clusterOf c) (clusterOf dst)) (.migrationAccept c dst m d none)
          ∧ m.pc = pc ∧ m.lgn = (s.ctx c).lgn ∧ m.slot = s.slotOf c ∧ m.tmask = (s.ctx c).tmask)) ∧
    (s.grantOf h (s.slotOf c) = none → pc ≠ (s.ctx c).pc → happens .migrationGrant (.migrationGrant c h none d pc) s (fun t =>
      dueIn t (s.toSlice (clusterOf c) h) (.replyArrival c { id := id, rd := d, wr := true, val := 1 }) ∧ t.ctxs = s.ctxs ∧ t.mem = s.mem))) ∧
  (∀ (s : State) (src dst : CtxId) (m : MigMsg) (d : BitVec 4), src ≠ dst → (s.ctx src).resv = none →
    happens .migrationAccept (.migrationAccept src dst m d none) s (fun t => (t.ctx dst).pc = m.pc ∧ (t.ctx dst).lgn = m.lgn ∧ (t.ctx dst).slot = m.slot
      ∧ (t.ctx dst).tmask = m.tmask ∧ (t.ctx dst).st = .issuing ∧ (t.ctx dst).rd d = 0 ∧ (t.ctx src).st = .stopped ∧ (t.ctx src).evc = EvcSet.zero
      ∧ (t.core (coreOf src)).mres = (s.core (coreOf src)).mres.gain (s.ctx src).evc
      ∧ (t.core (coreOf src)).mout.toNat = min ((s.core (coreOf src)).mout.toNat + 1) 0xFFFFFFFF ∧ t.mem = s.mem)) ∧
  (∀ (s : State) (c : CtxId) (r : Reply) (f : Fwd), (s.core (coreOf c)).fwds = [f] → f.id = r.id →
    (f.accepted = false → happens .migratedReply (.migratedReply c r) s (fun t => (t.core (coreOf c)).fwds = [{ f with held := some r }] ∧ t.agenda = s.agenda)) ∧
    (f.accepted = true → f.req = none → happens .migratedReply (.migratedReply c r) s (fun t => (t.core (coreOf c)).fwds = []
      ∧ (t.core (coreOf c)).dropped.toNat = min ((s.core (coreOf c)).dropped.toNat + 1) 0xFFFFFFFF ∧ t.agenda = s.agenda)) ∧
    (f.accepted = true → f.req ≠ none → happens .migratedReply (.migratedReply c r) s (fun t => (t.core (coreOf c)).fwds = []
      ∧ dueIn t (s.toCluster (clusterOf c) (clusterOf f.dst)) (.replyArrival f.dst { r with fill := none }))) ∧
    (∀ q, f.req = some q → (s.ctx f.dst).awaits f.id = true → happens .forwardEntryLapse (.forwardEntryLapse (coreOf c) f.id) s (fun t =>
      (t.core (coreOf c)).fwds = [{ f with req := none }]
        ∧ ∃ x ∈ t.agenda, ∃ r', (x.act = .ev (.servingSliceLoad r') ∨ x.act = .ev (.bankAccess r') ∨ x.act = .ev (.homeStore r') ∨ x.act = .ev (.fullEmptyAtHome r')) ∧ r'.who = f.dst
          ∧ r'.id = q.id ∧ r'.pieces = q.pieces)))

namespace Sys2Proof.Stated

/-- The instructions whose request goes to a unit from the registers alone: cycles on the way, place in the cycle, and whether they
first wait for the store count to be zero (R286 to R289, R364, R380 to R383, R391 to R397). -/
def unitRequest (s : State) : Instr → Option (Nat × Nat × Bool)
  | .bvalid _ a _ => some (s.toController s.cur (s.handleCluster s.cur (s.rd a)), 1000 + s.cur, true)
  | .sealBolt _ a => some (s.toController s.cur (s.handleCluster s.cur (s.rd a)), 90000 + s.cur, true)
  | .bqueryStatus _ a => some (s.toController s.cur (s.handleCluster s.cur (s.rd a)), 90000 + s.cur, false)
  | .bqueryMaskLow _ a => some (s.toController s.cur (s.handleCluster s.cur (s.rd a)), 90000 + s.cur, false)
  | .bqueryMaskHigh _ a => some (s.toController s.cur (s.handleCluster s.cur (s.rd a)), 90000 + s.cur, false)
  | .babort _ a => some (s.toController s.cur (s.handleCluster s.cur (s.rd a)), 90000 + s.cur, false)
  | .bwait _ a => some (s.toController s.cur (s.handleCluster s.cur (s.rd a)), 90000 + s.cur, false)
  | .btime _ a _ => some (s.toController s.cur (s.handleCluster s.cur (s.rd a)), 90000 + s.cur, false)
  | .ewaitWait .. => some (schedWay (dieOf s.cur), 70000 + coreOf s.cur, false)
  | .ewaitPoll .. => some (schedWay (dieOf s.cur), 70000 + coreOf s.cur, false)
  | .tgsub .. => some (10, 1000 + s.cur, true)
  | .tgnext _ => some (10, 1000 + s.cur, false)
  | .tgdone .. => some (10, 1000 + s.cur, true)
  | .tgdoneRequeue .. => some (10, 1000 + s.cur, true)
  | .wbind _ a _ => some (s.toSlice (clusterOf s.cur) ((s.rd a).toNat % 128), 1000 + s.cur, false)
  | .wbindUnbind _ a _ => some (s.toSlice (clusterOf s.cur) ((s.rd a).toNat % 128), 1000 + s.cur, false)
  | .wdone _ a _ => some (s.toSlice (clusterOf s.cur) ((s.rd a).toNat % 128), 1000 + s.cur, true)
  | _ => none

/-- The instructions whose request goes to a unit with an address: the address, its alignment, the permission, and whether they first
wait for the store count to be zero; the second address of GLEAN's open and close (R363, R375, R385). -/
def addressRequest (s : State) : Instr → Option (W64 × Nat × Need × Bool × Option W64)
  | .ejob _ a => some (s.rd a, 128, .r, true, none)
  | .gleanClose _ a b => some (s.rd a, 64, .rw, false, some (s.rd b))
  | .gleanFlip _ a _ => some (s.rd a, 64, .rw, true, none)
  | .gleanQuery _ a _ => some (s.rd a, 64, .r, false, none)
  | .wpush _ a .. => some (s.rd a, 32, .r, true, none)
  | .wpull _ a .. => some (s.rd a, 8, .w, false, none)
  | _ => none

/-- The request of the running instruction is on its way to its unit. -/
def requestOnWay (s t : State) (i : Instr) : Prop :=
  waitsForReply s t ∧ t.mem = s.mem ∧ ∃ x ∈ t.agenda, x.who = s.cur ∧ x.stage = 1 ∧ x.act = .run i

end Sys2Proof.Stated

/-- R286 to R289, R328, R363, R364, R375, R380 to R385, R391 to R397: an instruction served at a unit sends one request and waits for its
reply; one that is a release first waits for its stores, and one that names a record must name an aligned and mapped one. -/
def Obligations.UnitRequests : Prop :=
  ∀ (i : Instr) (s : State), s.me.pp = false → s.stage = 0 → s.twin s.cur = none →
    (∀ n o w, unitRequest s i = some (n, o, w) →
      (w = true → s.me.pend ≠ [] → exec i s = .next (s.wait s.cur (.drain i))) ∧
      (w = false ∨ s.me.pend = [] ∧ s.me.why = .none → ∃ t, exec i s = .next t ∧ requestOnWay s t i
        ∧ t.agenda = insertEntry { due := s.cycle + n, ord := o, seq := s.fresh + 1, who := s.cur, stage := 1, act := .run i } s.agenda)) ∧
    (∀ a n need w b, addressRequest s i = some (a, n, need, w, b) →
      (a.toNat % n ≠ 0 → exec i s = .next (exactTrap s 0x05 0 a)) ∧
      (a.toNat % n = 0 → w = true → s.me.pend ≠ [] → (∀ pa e, s.look s.cur a need = .hit pa e →
        ∃ t, exec i s = .next t ∧ t.me.st = .waiting ∧ t.me.why = .drain i ∧ t.me.pc = s.me.pc)) ∧
      (∀ pa e, a.toNat % n = 0 → (∀ y, b = some y → y.toNat % 64 = 0) → s.look s.cur a need = .hit pa e → (s.region pa).outside = false →
        s.me.pend = [] → s.me.why = .none → s.me.jobs.length < 8 → a.toNat % 65536 + 520 ≤ 65536 →
        (∀ op size cls ps, s.mustHold s.cur { op := op, va := a, size := size, cls := cls } ps = false) → (∀ q k, s.refusedByte q k = none) →
        ∃ t, exec i s = .next t ∧ requestOnWay s t i))

/-- R164, R189 to R191: BARC and BARW outside a gang answer NOGANG, trap on an unaligned record, wait for stores and then arrive; the last
arrival completes the episode, whose participants go on with the status in gD. -/
def Obligations.Barriers : Prop :=
  (∀ (s : State) (d a : BitVec 4), s.me.pp = false →
    ((s.rd a).toNat % 128 ≠ 0 → exec (.barc d a) s = .next (exactTrap s 0x05 0 (s.rd a)) ∧ exec (.barw d a) s = .next (exactTrap s 0x05 0 (s.rd a))) ∧
    ((s.rd a).toNat % 128 = 0 → s.me.gang = none → exec (.barc d a) s = .next (s.put d 2) ∧ exec (.barw d a) s = .next (s.put d 2)) ∧
    ((s.rd a).toNat % 128 = 0 → s.me.gang ≠ none → s.me.pend ≠ [] →
      exec (.barc d a) s = .next (s.wait s.cur (.drain (.barc d a))) ∧ exec (.barw d a) s = .next (s.wait s.cur (.drain (.barw d a)))) ∧
    ((s.rd a).toNat % 128 = 0 → s.me.gang ≠ none → s.me.pend = [] → s.me.why = .none →
      exec (.barc d a) s = .next (s.now (.barrierArrival s.cur false d (s.rd a))) ∧ exec (.barw d a) s = .next (s.now (.barrierArrival s.cur true d (s.rd a))))) ∧
  (∀ (s : State) (c : CtxId) (wire : Bool) (d : BitVec 4) (v : W64) (g : Nat), (s.ctx c).gang = some g → (s.core (coreOf c)).wdWait = 0 → (s.ctx c).btmo = 0 →
    s.episodes wire (clusterOf c) g = [] →
    (∀ m ∈ (s.gang g).members, clusterOf m = clusterOf c → m = c) → happens .barrierArrival (.barrierArrival c wire d v) s (fun t =>
      (t.ctx c).st = .dispatchWait ∧ (t.ctx c).why = .barrier ∧ (t.ctx c).pc = (s.ctx c).pc ∧ t.mem = s.mem
        ∧ (if wire then dueIn t 4 (.barwTapRise g (clusterOf c)) else dueIn t 6 (.barcDone g (clusterOf c))))) ∧
  (∀ (s : State) (g : Nat) (cl : ClusterId) (a : Arrival) (e : Episode), e.arrived = [a] → a.ended = false → a.rcd = 0 → (s.ctx a.who).why = .barrier → s.heldBack a.who = false →
    (e.closed = true → s.episodes false cl g = [e] → happens .barcDone (.barcDone g cl) s (fun t => (t.ctx a.who).rd a.rd = 0 ∧ (t.ctx a.who).pc = (s.ctx a.who).pc + 4
      ∧ (t.ctx a.who).st = .issuing ∧ t.episodes false cl g = Tab.get [] (Tab.erase (s.cluster cl).barc g) g ∧ t.mem = s.mem)) ∧
    (e.closed = true → (s.gang g).cls = [cl] → cl / 256 < 2 → s.episodes true cl g = [e] → happens .barwDone (.barwDone (2 * g + cl / 256)) s (fun t => (t.ctx a.who).rd a.rd = 0
      ∧ (t.ctx a.who).pc = (s.ctx a.who).pc + 4 ∧ (t.ctx a.who).st = .issuing ∧ t.mem = s.mem)) ∧
    (e.closed = false → e.tapAt = s.cycle → (s.gang g).cls = [cl] → s.episodes true cl g = [e] → happens .barwTapRise (.barwTapRise g cl) s (fun t =>
      dueIn t ((s.gang g).span + 6) (.barwDone (2 * g + cl / 256)) ∧ t.ctxs = s.ctxs ∧ t.mem = s.mem)) ∧
    (e.closed = false → (s.ctx a.who).gang = some g → clusterOf a.who = cl → s.episodes false cl g = [e] → s.episodes true cl g = [] → happens .barrierTimeout (.barrierTimeout a.who a.token) s (fun t =>
      (t.ctx a.who).rd a.rd = (if a.rd = 0 then 0 else 1) ∧ (t.ctx a.who).pc = (s.ctx a.who).pc + 4 ∧ (t.ctx a.who).st = .issuing ∧ t.episodes false cl g = Tab.get [] (Tab.erase (s.cluster cl).barc g) g ∧ t.mem = s.mem)))

namespace Sys2Proof.Stated

/-- A handle names an entry of a cluster's controller that is current (R272). -/
def namesBolt (s : State) (h : W64) (cl e : Nat) (b : Bolt) : Prop :=
  let w := h.toNat % 2 ^ 32
  cl = 256 * dieOf s.cur + w / 2 ^ 24 ∧ e = w % 64 ∧ w / 64 % 4 = 0 ∧ s.clusterValid cl = true ∧ b = (s.cluster cl).bolt e ∧ b.st ≠ .free
    ∧ b.gen.toNat = w / 256 % 65536
/-- A handle names an entry that is free, or has been since (R272). -/
def namesStale (s : State) (h : W64) (cl e : Nat) : Prop :=
  let w := h.toNat % 2 ^ 32
  cl = 256 * dieOf s.cur + w / 2 ^ 24 ∧ e = w % 64 ∧ w / 64 % 4 = 0 ∧ s.clusterValid cl = true
    ∧ (((s.cluster cl).bolt e).st = .free ∨ ((s.cluster cl).bolt e).gen.toNat ≠ w / 256 % 65536)

/-- The rows first to first + n − 1 of a bolt, as its valid mask has them (R288). -/
def rowsMarked (b : Bolt) (g : W64) (m : BitVec 128) : Prop :=
  ∀ r, r < 128 → m.getLsbD r = (b.valid.getLsbD r || decide ((g.extractLsb' 0 7).toNat ≤ r ∧ r ≤ (g.extractLsb' 0 7).toNat + (g.extractLsb' 8 7).toNat ∧ r < b.rows))

/-- The failure bit with a code (R287, R288). -/
def failed (n : Nat) : W64 := BitVec.ofNat 64 (2 ^ 63 + n)

end Sys2Proof.Stated

/-- R272 to R278, R287 to R289: what the bolt instructions do at the controller: BOPEN's codes and the bolt that it opens, BVALID's rows,
SEAL's and BABORT's ends, BQUERY's word, BWAIT's wait and BTIME's timer; stale and bad handles answer STALE. -/
def Obligations.BoltInstructions : Prop :=
  (∀ (s : State) (d a x : BitVec 4) (cl e : Nat) (b : Bolt), atItsUnit s → namesBolt s (s.rd a) cl e b →
    let way := s.toController s.cur cl
    (b.out = false → b.isOpen = true → ∃ t m, exec (.bvalid d a x) s = .next t ∧ rowsMarked b (s.rd x) m ∧ (t.cluster cl).bolt e = { b with valid := m }
      ∧ (∀ n, n ≠ e → (t.cluster cl).bolt n = (s.cluster cl).bolt n) ∧ replies s t way d 0 ∧ t.mem = s.mem) ∧
    (b.out = true → ∃ t, exec (.bvalid d a x) s = .next t ∧ t.clusters = s.clusters ∧ replies s t way d 3) ∧
    (b.out = false → b.isOpen = false → ∃ t, exec (.bvalid d a x) s = .next t ∧ t.clusters = s.clusters ∧ replies s t way d 1) ∧
    (b.out = false → b.isOpen = true → ∃ t, exec (.sealBolt d a) s = .next t ∧ ((t.cluster cl).bolt e).st = .sealed_ ∧ ((t.cluster cl).bolt e).cause = 0
      ∧ ((t.cluster cl).bolt e).valid = b.valid ∧ replies s t way d 0 ∧ t.mem = s.mem) ∧
    (b.isOpen = false → ∃ t, exec (.sealBolt d a) s = .next t ∧ t.clusters = s.clusters ∧ replies s t way d 1) ∧
    (∃ t, exec (.bqueryStatus d a) s = .next t ∧ t.clusters = s.clusters ∧ t.mem = s.mem ∧ replies s t way d (BitVec.ofNat 64 (
      b.gen.toNat * 2 ^ 32 + (if b.isOpen then min 65535 (b.expiry - s.cycle) else 0) * 2 ^ 16 + b.nValid * 2 ^ 8
        + (if b.isOpen then 0 else b.cause.toNat) * 2 ^ 6 + b.posted.toNat * 2 ^ 5 + b.popped.toNat * 2 ^ 4 + b.st.code))) ∧
    (∃ t, exec (.bqueryMaskLow d a) s = .next t ∧ t.clusters = s.clusters ∧ t.mem = s.mem ∧ replies s t way d (b.valid.extractLsb' 0 64)) ∧
    (∃ t, exec (.bqueryMaskHigh d a) s = .next t ∧ t.clusters = s.clusters ∧ t.mem = s.mem ∧ replies s t way d (b.valid.extractLsb' 64 64)) ∧
    ((b.out = false ∧ b.isOpen = true ∨ b.out = true ∧ b.st = .done) → ∃ t, exec (.babort d a) s = .next t ∧ ((t.cluster cl).bolt e).st = .free
      ∧ ((t.cluster cl).bolt e).gen = (if b.gen.ult b.top then b.top else b.gen) + 1 ∧ replies s t way d 0 ∧ t.mem = s.mem) ∧
    (¬ (b.out = false ∧ b.isOpen = true ∨ b.out = true ∧ b.st = .done) → ∃ t, exec (.babort d a) s = .next t ∧ t.clusters = s.clusters ∧ replies s t way d 1) ∧
    ((s.core (coreOf s.cur)).wdWait = 0 → ∃ t, exec (.bwait d a) s = .next t ∧ t.me.st = .parked ∧ t.me.pc = s.me.pc
      ∧ (t.cluster cl).bwaits = (s.cluster cl).bwaits ++ [(s.cur, d, (s.rd a).setWidth 32, s.me.token)] ∧ t.mem = s.mem) ∧
    (b.isOpen = true → ((s.rd x).extractLsb' 0 16).toNat ≠ 0 → ∃ t, exec (.btime d a x) s = .next t
      ∧ ((t.cluster cl).bolt e).expiry = s.cycle + ((s.rd x).extractLsb' 0 16).toNat ∧ ((t.cluster cl).bolt e).st = b.st
      ∧ replies s t way d (BitVec.ofNat 64 (min 65535 (b.expiry - s.cycle))) ∧ t.mem = s.mem) ∧
    (b.isOpen = false → ∃ t, exec (.btime d a x) s = .next t ∧ t.clusters = s.clusters ∧ replies s t way d (failed 1))) ∧
  (∀ (s : State) (d a x : BitVec 4) (cl e : Nat), atItsUnit s → namesStale s (s.rd a) cl e →
    let way := s.toController s.cur cl
    (∃ t, exec (.bvalid d a x) s = .next t ∧ t.clusters = s.clusters ∧ replies s t way d 2) ∧ (∃ t, exec (.sealBolt d a) s = .next t ∧ t.clusters = s.clusters ∧ replies s t way d 2) ∧
    (∃ t, exec (.babort d a) s = .next t ∧ t.clusters = s.clusters ∧ replies s t way d 2) ∧ (∃ t, exec (.bwait d a) s = .next t ∧ t.clusters = s.clusters ∧ replies s t way d 0) ∧
    (∃ t, exec (.btime d a x) s = .next t ∧ t.clusters = s.clusters ∧ replies s t way d (failed 2)) ∧
    (∃ t, exec (.bqueryStatus d a) s = .next t ∧ t.clusters = s.clusters ∧ replies s t way d (BitVec.ofNat 64 (((s.cluster cl).bolt e).gen.toNat * 2 ^ 32)))) ∧
  (∀ (s : State) (d a b n : BitVec 4) (id : Nat), s.stage = 1 → s.me.why = .reply (id + 1) →
    let cl := clusterOf s.cur
    let x := s.cluster cl
    let shape := s.rd a
    let ctl := s.rd b
    let pages := pagesOf (shape.extractLsb' 16 4).toNat ((shape.extractLsb' 8 7).toNat + 1) ((shape.extractLsb' 0 7).toNat + 1)
    (∀ k, k ≠ 0 → s.openCode cl shape ctl (aligned (s.rd n) 8) = k → ∃ t, exec (.bopen d a b n) s = .next t ∧ t.clusters = s.clusters ∧ replies s t 4 d (failed k)) ∧
    (∀ e page, s.openCode cl shape ctl (aligned (s.rd n) 8) = 0 → x.openQ = [] → ctl.getLsbD 20 = false → x.freeEntry = some e → x.firstFit pages = some page →
      ∃ t, exec (.bopen d a b n) s = .next t ∧ (let y := (t.cluster cl).bolt e
        y.st = .open_ ∧ y.gen = (x.bolt e).gen ∧ y.page = page ∧ y.npages = pages ∧ y.valid = 0 ∧ y.out = false ∧ y.fmt = shape.extractLsb' 16 4
          ∧ y.rows = (shape.extractLsb' 0 7).toNat + 1 ∧ y.elems = (shape.extractLsb' 8 7).toNat + 1 ∧ y.expiry = s.cycle + (ctl.extractLsb' 0 16).toNat)
        ∧ replies s t (s.toController s.cur cl) d (BitVec.ofNat 64 (page * 4096 * 2 ^ 32 + cl % 256 * 2 ^ 24 + (x.bolt e).gen.toNat * 2 ^ 8 + e)) ∧ t.mem = s.mem) ∧
    (s.openCode cl shape ctl (aligned (s.rd n) 8) = 0 → x.openQ ≠ [] → ∃ t, exec (.bopen d a b n) s = .next t ∧ (∃ q, (t.cluster cl).openQ = x.openQ ++ [q] ∧ q.id = id + 1
      ∧ q.who = some s.cur ∧ q.rd = d ∧ q.shape = shape ∧ q.ctl = ctl) ∧ (t.cluster cl).bolts = x.bolts ∧ t.mem = s.mem))

/-- R278 to R280, R475, R282: the pool's own events: a timer seals its bolt with CAUSE 1, a waiting BOPEN makes pressure seal the oldest
open bolt with CAUSE 2 and look again after 64 cycles, freed room serves waiting BOPENs in order, and a freed place in a queue takes the
handles that wait for it. -/
def Obligations.BoltEvents : Prop :=
  (∀ (s : State) (cl e tok : Nat), let b := (s.cluster cl).bolt e
    (b.token = tok → b.isOpen = true → b.expiry ≤ s.cycle → b.out = false → happens .boltTimerExpiry (.boltTimerExpiry cl e tok) s (fun t =>
      ((t.cluster cl).bolt e).st = .sealed_ ∧ ((t.cluster cl).bolt e).cause = 1 ∧ ((t.cluster cl).bolt e).valid = b.valid ∧ t.mem = s.mem)) ∧
    (b.token ≠ tok ∨ b.isOpen = false ∨ s.cycle < b.expiry → happens .boltTimerExpiry (.boltTimerExpiry cl e tok) s (fun t => t = { s with ev := .boltTimerExpiry cl e tok }))) ∧
  (∀ (s : State) (cl e : Nat) (q : OpenReq) (rest : List OpenReq), (s.cluster cl).openQ = q :: rest → s.tryOpen cl q = none → s.oldestOpen cl = some e →
    ((s.cluster cl).bolt e).out = false → happens .pressureSeal (.pressureSeal cl) s (fun t => ((t.cluster cl).bolt e).st = .sealed_ ∧ ((t.cluster cl).bolt e).cause = 2
      ∧ (t.cluster cl).openQ = q :: rest ∧ dueIn t 64 (.pressureSeal cl) ∧ t.mem = s.mem)) ∧
  (∀ (s : State) (cl e page : Nat) (q : OpenReq) (c : CtxId), (s.cluster cl).openQ = [q] → q.who = some c → q.ctl.getLsbD 20 = false → (s.cluster cl).freeEntry = some e →
    (s.cluster cl).firstFit (pagesOf (q.shape.extractLsb' 16 4).toNat ((q.shape.extractLsb' 8 7).toNat + 1) ((q.shape.extractLsb' 0 7).toNat + 1)) = some page →
    happens .bopenServe (.bopenServe cl) s (fun t => (t.cluster cl).openQ = [] ∧ ((t.cluster cl).bolt e).st = .open_ ∧ ((t.cluster cl).bolt e).page = page ∧ t.mem = s.mem
      ∧ dueIn t (s.toController c cl) (.replyArrival c
          { id := q.id, rd := q.rd, wr := true, did := true, val := BitVec.ofNat 64 (page * 4096 * 2 ^ 32 + cl % 256 * 2 ^ 24 + ((s.cluster cl).bolt e).gen.toNat * 2 ^ 8 + e) }))) ∧
  (∀ (s : State) (l cl e no : Nat), s.unposted (s.quadOf l) = [(no, cl, e)] → s.postTarget cl ((s.cluster cl).bolt e) = some l → (s.lk l).halting = false →
    (s.loom l).ck.ask = 0 → happens .boltPost (.boltPost l) s (fun t =>
    (t.loom l).k.boltQ = (s.loom l).k.boltQ ++ [(handleOf cl e ((s.cluster cl).bolt e), s.cycle)] ∧ ((t.cluster cl).bolt e).posted = true ∧ ((t.cluster cl).bolt e).loom = l
      ∧ t.mem = s.mem))

/-- R308 to R312: CFLUSH, CINV and CDISC answer their codes, and one step for every line of a mapped piece; TLBINV empties the TLBs of its
scope and answers when nothing still uses them; ATRANS answers the translation. -/
def Obligations.CacheInstructions : Prop :=
  (∀ (s : State) (d a b : BitVec 4) (i : Instr) (op : BitVec 2), s.me.pp = false → s.me.range = none → (i, op) ∈ [(Instr.cflush d a b, (0 : BitVec 2)), (.cinv d a b, 1), (.cdisc d a b, 2)] →
    let va := (s.rd a).toNat
    let l := (s.rd b).toNat
    let base : W64 := BitVec.ofNat 64 (va / 65536 * 65536)
    (l = 0 → exec i s = .next (s.put d 0)) ∧ (2 ^ 30 < l → exec i s = .next (s.put d (failed 1))) ∧
    (l ≠ 0 → l ≤ 2 ^ 30 → 2 ^ 64 < va + l → exec i s = .next (s.put d (failed 2))) ∧
    (l ≠ 0 → l ≤ 2 ^ 30 → va + l ≤ 2 ^ 64 → s.me.pend ≠ [] → exec i s = .next (s.wait s.cur (.drain i))) ∧
    (l ≠ 0 → va % 65536 + l ≤ 65536 → s.me.pend = [] → s.me.why = .none →
      let n := (va + l - 1) / 128 - va / 128 + 1
      let need := if op = 2 then Need.w else .r
      (∀ e pa, s.found s.cur base = .core e → pa = e.pa + base.toNat % e.bytes → s.checkLeaf e (s.privOf s.cur) need pa = 0 → s.lentAway pa = false → pa < hbmBytes →
        ∃ t, exec i s = .next t ∧ waitsForReply s t ∧ t.mem = s.mem
          ∧ Tab.find t.ranges (s.fresh + 1) = some { who := some (s.cur, d), left := n, res := BitVec.ofNat 64 n }
          ∧ ∀ k, k < n → dueIn t (s.toSlice (clusterOf s.cur) (homeOf ((pa + (128 * (va / 128 + k) - va / 65536 * 65536)) / 128)))
              (.lineStep ((pa + (128 * (va / 128 + k) - va / 65536 * 65536)) / 128) op (va ≤ 128 * (va / 128 + k) ∧ 128 * (va / 128 + k) + 128 ≤ va + l) (s.fresh + 1))) ∧
      ((∃ k, s.found s.cur base = .failed k) ∨ (∃ e, s.found s.cur base = .core e ∧ (s.checkLeaf e (s.privOf s.cur) need (e.pa + base.toNat % e.bytes) ≠ 0
          ∨ s.lentAway (e.pa + base.toNat % e.bytes) = true)) →
        ∃ t, exec i s = .next t ∧ waitsForReply s t ∧ t.mem = s.mem
          ∧ dueIn t 1 (.replyArrival s.cur { id := s.fresh + 1, rd := d, wr := true, val := BitVec.ofNat 64 (2 ^ 32), did := true })) ∧
      (∀ e, s.found s.cur base = .near e → ∃ t, exec i s = .next t ∧ t.me.st = .waiting ∧ t.me.pc = s.me.pc ∧ t.me.g = s.me.g ∧ t.me.leaf = some e
        ∧ t.me.range = some (s.fresh + 1, 0) ∧ t.mem = s.mem ∧ dueIn t 4 (.replyArrival s.cur { id := s.fresh + 2, adv := false, go := some false })) ∧
      (s.found s.cur base = .miss → ∃ t, exec i s = .next t ∧ t.me.st = .waiting ∧ t.me.pc = s.me.pc ∧ t.me.g = s.me.g
        ∧ t.me.range = some (s.fresh + 1, 0) ∧ t.mem = s.mem ∧ dueIn t (s.toSlice (clusterOf s.cur) (walkerOf (s.slotOf s.cur) base))
          (.walkRequest (walkerOf (s.slotOf s.cur) base) s.cur (s.slotOf s.cur) base false)))) ∧
  (∀ (s : State) (d a b : BitVec 4), s.me.pp = false →
    let slot : BitVec 4 := (s.rd b).extractLsb' 0 4
    let gone (e : TlbEnt) : Prop := e.slot = slot ∧ ((s.rd b).getLsbD 6 = true ∨ canonical (s.rd a) = true ∧ e.maps slot (s.rd a).toNat = true)
    (s.stage = 0 → (s.cur % 16 = 0 ∨ s.me.priv = true) → s.me.pend = [] → s.me.why = .none → ∃ t, exec (.tlbinv d a b) s = .next t ∧ t.mem = s.mem
      ∧ t.me.st = .waiting ∧ t.me.why = .reply (s.fresh + 1) ∧ t.me.pc = s.me.pc ∧ t.me.g = s.me.g ∧ t.me.dead = s.me.dead ∧ t.me.evc = s.me.evc
      ∧ (∀ c, c ≠ s.cur → t.ctx c = { s.ctx c with leaf := (t.ctx c).leaf })
      ∧ (∀ c e, (t.ctx c).leaf = some e → e.slot ≠ slot ∧ (s.ctx c).leaf = some e)
      ∧ (∀ k x, (k, x) ∈ t.cores → (k = coreOf s.cur ∨ (s.rd b).extractLsb' 4 2 = 3) → ∀ e ∈ x.tlb, ¬ gone e)
      ∧ (∀ k x, (k, x) ∈ t.clusters → (k = clusterOf s.cur ∨ (s.rd b).extractLsb' 4 2 = 3) → ∀ e ∈ x.tlb, ¬ gone e)
      ∧ ∃ y ∈ t.agenda, y.due = s.cycle + (match ((s.rd b).extractLsb' 4 2).toNat with | 0 => 16 | 1 => 20 | 2 => 200 | _ => 400)
          ∧ y.who = s.cur ∧ y.stage = 1 ∧ y.act = .run (.tlbinv d a b)) ∧
    (∀ id, s.stage = 1 → s.me.why = .reply id → (∀ w ∈ (Tab.get {} s.ranges id).waits, s.accessOut w = false) →
      (∀ e ∈ s.slices, ∀ w ∈ e.2.walks, ¬ (w.slot = slot ∧ w.void = true)) → ∃ t, exec (.tlbinv d a b) s = .next t
      ∧ dueNow t (.replyArrival s.cur { id := id, rd := d, wr := true, did := true }) ∧ t.mem = s.mem)) ∧
  (∀ (s : State) (d a b : BitVec 4), s.me.pp = false →
    ((s.rd b).extractLsb' 0 2 = 3 → exec (.atrans d a b) s = .next (s.put d (BitVec.ofNat 64 (2 ^ 63 + 15)))) ∧
    (∀ need, ((s.rd b).extractLsb' 0 2, need) ∈ [((0 : BitVec 2), Need.r), (1, .w), (2, .x)] →
      (∀ k, s.found s.cur (s.rd a) = .failed k → ∃ t, exec (.atrans d a b) s = .next t ∧ t.me.pc = s.me.pc + 4 ∧ t.mem = s.mem
        ∧ t.rd d = (if d = 0 then 0 else BitVec.ofNat 64 (2 ^ 63 + k.toNat))) ∧
      (∀ e, s.found s.cur (s.rd a) = .core e →
        let pa := e.pa + (s.rd a).toNat % e.bytes
        (∀ k, s.checkLeaf e (s.privOf s.cur) need pa = k → k ≠ 0 → exec (.atrans d a b) s = .next (s.put d (BitVec.ofNat 64 (2 ^ 63 + k.toNat)))) ∧
        (s.checkLeaf e (s.privOf s.cur) need pa = 0 → exec (.atrans d a b) s = .next (s.put d
          (BitVec.ofNat 64 (e.mig.toNat * 2 ^ 55 + e.d.toNat * 2 ^ 54 + e.size.toNat * 2 ^ 52 + pa))))) ∧
      (∀ e, s.found s.cur (s.rd a) = .near e → ∃ t, exec (.atrans d a b) s = .next t ∧ waitsForReply s t ∧ t.me.leaf = some e ∧ t.mem = s.mem
        ∧ dueIn t 4 (.replyArrival s.cur { id := s.fresh + 1, adv := false, go := some false })) ∧
      (s.found s.cur (s.rd a) = .miss → ∃ t, exec (.atrans d a b) s = .next t ∧ t.me.st = .waiting ∧ t.me.pc = s.me.pc ∧ t.me.g = s.me.g ∧ t.mem = s.mem
        ∧ dueIn t (s.toSlice (clusterOf s.cur) (walkerOf (s.slotOf s.cur) (s.rd a)))
          (.walkRequest (walkerOf (s.slotOf s.cur) (s.rd a)) s.cur (s.slotOf s.cur) (s.rd a) false))))

/-! Units that act on their own (chapters 17 and 18). -/

namespace Sys2Proof.Stated

/-- The unit's reply to the running context that is an acquire: some cycles from now it writes a register. -/
def repliesAcquire (s t : State) (n : Nat) (d : BitVec 4) (v : W64) : Prop :=
  dueIn t n (.replyArrival s.cur { id := s.me.token, rd := d, wr := true, val := v, bank := true, did := true })

/-- The running context, at its unit, has brought the physical address of a block that is not lent and not of an external window. -/
def atUnitWith (s : State) (pa : Nat) (n : Nat) : Prop :=
  s.stage = 1 ∧ (∃ id, s.me.why = .reply (id + 1)) ∧ (∃ q, s.me.load = some q ∧ ∃ rest, q.pieces = { pa := pa, len := n } :: rest) ∧ s.me.srcBytes = []
    ∧ s.lentAway pa = false

/-- A word of a block of bytes, of eight bytes and of four. -/
def word8 (bs : List Byte) (n : Nat) : W64 := BitVec.ofNat 64 (leNat ((bs.drop (8 * n)).take 8))
/-- A word of four bytes. -/
def word4 (bs : List Byte) (n : Nat) : BitVec 32 := BitVec.ofNat 32 (leNat ((bs.drop (4 * n)).take 4))

/-- The handle names its Winnow unit as bound to the running context's slot (R392). -/
def bindsUnit (s : State) (h : W64) : Prop :=
  (s.winnow (h.toNat % 128)).slot = some (s.slotOf s.cur) ∧ h.toNat / 128 % 512 = 0 ∧ (s.winnow (h.toNat % 128)).gen.toNat = h.toNat / 65536 % 65536

end Sys2Proof.Stated

/-- R363, R364, R367, R379 to R383: EJOB's card goes on to the scheduler, EWAIT's codes and its wait, ECPY's codes and its entry, and the
task nodes that TGSUB adds, TGNEXT takes and TGDONE ends. -/
def Obligations.JobsAndTasks : Prop :=
  (∀ (s : State) (d a : BitVec 4) (pa : Nat), atUnitWith s pa 128 → s.cohReady pa 128 = true → ∃ t, exec (.ejob d a) s = .next t
    ∧ dueIn t (if s.cur / 32768 = 0 then 40 else 70) (.jobAccept s.cur ((List.range 16).map (word8 (s.cohRead pa 128))) d)
    ∧ t.me.pc = s.me.pc ∧ t.me.why = s.me.why ∧ t.mem = s.mem) ∧
  (∀ (s : State) (d a : BitVec 4), atItsUnit s →
    let id := (s.rd a).toNat % 2 ^ 32
    let e := id % 65536
    let j := s.job e
    let way := if s.cur / 32768 = 0 then 40 else 70
    let named := e < 2048 ∧ j.used = true ∧ j.gen.toNat = id / 65536
    (named → j.slot ≠ s.slotOf s.cur → (∃ t, exec (.ewaitWait d a) s = .next t ∧ replies s t way d 0xFD ∧ t.mem = s.mem)
      ∧ ∃ t, exec (.ewaitPoll d a) s = .next t ∧ replies s t way d 0xFD ∧ t.mem = s.mem) ∧
    (named → j.slot = s.slotOf s.cur → ∃ t, exec (.ewaitPoll d a) s = .next t ∧ replies s t way d 0xFF ∧ t.mem = s.mem) ∧
    (named → j.slot = s.slotOf s.cur → (s.core (coreOf s.cur)).wdWait = 0 → ∃ t, exec (.ewaitWait d a) s = .next t ∧ t.me.st = .dispatchWait ∧ t.me.pc = s.me.pc
      ∧ t.dev.ewaits = s.dev.ewaits ++ [(e, s.cur, d, s.me.token)] ∧ t.mem = s.mem) ∧
    (¬ named → j.oldAt = 0 ∨ 2048 ≤ e → (∃ t, exec (.ewaitWait d a) s = .next t ∧ repliesAcquire s t way d 0xFE ∧ t.mem = s.mem)
      ∧ ∃ t, exec (.ewaitPoll d a) s = .next t ∧ repliesAcquire s t way d 0xFE ∧ t.mem = s.mem)) ∧
  (∀ (s : State) (d g h l : BitVec 4), s.me.pp = false → s.stage = 0 →
    let n := (s.rd l).toNat
    let dst := s.rd g
    let src := s.rd h
    let x := s.cluster (clusterOf s.cur)
    (n = 0 ∨ 4096 < n → exec (.ecpy d g h l) s = .next (s.put d 1)) ∧
    (n ≠ 0 → n ≤ 4096 → 2 ^ 64 < dst.toNat + n ∨ 2 ^ 64 < src.toNat + n → exec (.ecpy d g h l) s = .next (s.put d 3)) ∧
    (∀ pa pb e f cl off, n ≠ 0 → n ≤ 4096 → src.toNat % 65536 + n ≤ 65536 → dst.toNat % 65536 + n ≤ 65536 → s.look s.cur src .r = .hit pa e → s.look s.cur dst .w = .hit pb f →
      (∀ q ∈ splitLines pb n, ∃ k, s.region q.pa = .scratch cl k) → s.region pb = .scratch cl off →
      (cl ≠ clusterOf s.cur → s.twin s.cur = none → ∃ t, exec (.ecpy d g h l) s = .next t ∧ t.me = (s.put d 2).me ∧ t.mem = s.mem) ∧
      (cl = clusterOf s.cur → s.me.pend = [] → x.sb.length < 32 → x.sbWait = [] → s.twin s.cur = none → ∃ t, exec (.ecpy d g h l) s = .next t
        ∧ t.rd d = 0 ∧ t.me.pc = s.me.pc + 4 ∧ t.me.pend = [{ id := s.fresh + 1, copy := true }] ∧ t.mem = s.mem
        ∧ (t.cluster cl).sb = x.sb ++ [{ id := s.fresh + 1, who := s.cur, slot := s.slotOf s.cur, srcs := splitLines pa n, dsts := splitLines pb n }]
        ∧ ∃ y ∈ t.agenda, y.act = .ev (.engineRequest cl)))) ∧
  (∀ (s : State) (d a b c : BitVec 4) (id : Nat), s.stage = 1 → s.me.why = .reply (id + 1) →
    let die := dieOf s.cur
    let w := s.thresher die
    ((s.rd a).toNat / 2 ^ 48 ≠ 0 → ∃ t, exec (.tgsub d a b c) s = .next t ∧ replies s t 10 d (failed 3) ∧ t.dev = s.dev ∧ t.mem = s.mem) ∧
    (∀ n, (s.rd a).toNat / 2 ^ 48 = 0 → n < 4095 → (w.node n).live = false → (∀ m, m < n → (w.node m).live = true) → w.waits = [] →
      ((∀ i, i < 4 → w.named ((s.rd b).extractLsb' (16 * i) 16) = none) → ∃ t, exec (.tgsub d a b c) s = .next t
        ∧ replies s t 10 d (BitVec.ofNat 64 ((w.node n).gen.toNat * 4096 + n)) ∧ t.mem = s.mem
        ∧ (t.thresher die).node n = { live := true, gen := (w.node n).gen, slot := s.slotOf s.cur, arg := (s.rd a).setWidth 48, cost := (s.rd c).toNat % 65536
                                      rp := (s.rd c).toNat % 65536, preds := [], st := .ready, no := w.next }
        ∧ ∀ m, m ≠ n → (t.thresher die).node m = w.node m) ∧
      (∀ q, w.named ((s.rd b).extractLsb' 0 16) = some q → (∀ i, 1 ≤ i → i < 4 → w.named ((s.rd b).extractLsb' (16 * i) 16) = none) → (w.node q).slot = s.slotOf s.cur →
        (w.node q).preds = [] → ∃ t, exec (.tgsub d a b c) s = .next t ∧ replies s t 11 d (BitVec.ofNat 64 ((w.node n).gen.toNat * 4096 + n)) ∧ t.mem = s.mem
        ∧ ((t.thresher die).node n).st = .waiting ∧ ((t.thresher die).node n).preds = [q]
        ∧ ((t.thresher die).node q).rp = max (w.node q).rp (min ((w.node q).cost + (s.rd c).toNat % 65536) 0xFFFFFFFF))) ∧
    (∀ q, (s.rd a).toNat / 2 ^ 48 = 0 → w.named ((s.rd b).extractLsb' 0 16) = some q → (w.node q).slot ≠ s.slotOf s.cur → ∃ t, exec (.tgsub d a b c) s = .next t
      ∧ replies s t 10 d (failed 2) ∧ t.dev = s.dev ∧ t.mem = s.mem) ∧
    (s.me.pp = false →
      (∀ n, w.best (s.slotOf s.cur) = some n → ∃ t, exec (.tgnext d) s = .next t ∧ ((t.thresher die).node n) = { w.node n with st := .running } ∧ t.mem = s.mem
        ∧ repliesAcquire s t 10 d (BitVec.ofNat 64 (((w.node n).gen.toNat * 4096 + n) * 2 ^ 48 + (w.node n).arg.toNat))) ∧
      (w.best (s.slotOf s.cur) = none → w.hasLive (s.slotOf s.cur) = false → ∃ t, exec (.tgnext d) s = .next t ∧ replies s t 10 d 0xFFFFFFFFFFFFFFFF ∧ t.mem = s.mem) ∧
      (w.best (s.slotOf s.cur) = none → w.hasLive (s.slotOf s.cur) = true → (s.core (coreOf s.cur)).wdWait = 0 → ∃ t, exec (.tgnext d) s = .next t
        ∧ t.me.st = .dispatchWait ∧ t.me.pc = s.me.pc ∧ (t.thresher die).waits = w.waits ++ [(s.cur, d, s.me.token)] ∧ t.mem = s.mem)) ∧
    (∀ i ∈ [Instr.tgdone d a b, .tgdoneRequeue d a b],
      (w.named ((s.rd a).extractLsb' 0 16) = none → ∃ t, exec i s = .next t ∧ replies s t 10 d 1 ∧ t.dev = s.dev ∧ t.mem = s.mem) ∧
      (∀ n, w.named ((s.rd a).extractLsb' 0 16) = some n → (w.node n).st ≠ .running → ∃ t, exec i s = .next t ∧ replies s t 10 d 1 ∧ t.dev = s.dev ∧ t.mem = s.mem) ∧
      (∀ n, w.named ((s.rd a).extractLsb' 0 16) = some n → (w.node n).st = .running → (w.node n).slot ≠ s.slotOf s.cur → ∃ t, exec i s = .next t
        ∧ replies s t 10 d 2 ∧ t.dev = s.dev ∧ t.mem = s.mem)) ∧
    (∀ n, w.named ((s.rd a).extractLsb' 0 16) = some n → (w.node n).st = .running → (w.node n).slot = s.slotOf s.cur → w.waits = [] →
      (∃ t, exec (.tgdone d a b) s = .next t ∧ replies s t 10 d 0 ∧ (t.thresher die).node n = { gen := (w.node n).gen + 1 } ∧ t.mem = s.mem
        ∧ ∀ m, m ≠ n → (w.node m).live = true → (w.node m).st = .waiting → (w.node m).preds = [n] → ((t.thresher die).node m).st = .ready) ∧
      (∃ t, exec (.tgdoneRequeue d a b) s = .next t ∧ replies s t 10 d 0 ∧ (t.thresher die).node n = { w.node n with st := .ready } ∧ t.mem = s.mem)))

/-- R375, R391 to R397, R400: what GLEAN's four forms do at the Gleaner, WBIND, unbinding, WPUSH, WPULL and WDONE at their Winnow unit,
and MSAMP's codes. -/
def Obligations.GleanerAndWinnow : Prop :=
  (∀ (s : State) (d a b : BitVec 4) (pa : Nat), atUnitWith s pa 64 → s.cohReady pa 64 = true →
    let k := s.pointSlice pa
    let way := s.toSlice (clusterOf s.cur) k
    let w := s.cohRead8 (pa + 40)
    (∃ t, exec (.gleanQuery d a b) s = .next t ∧ replies s t way d w ∧ t.mem = s.mem ∧ t.slices = s.slices) ∧
    (s.dirtyReady (s.slotOf s.cur) (s.rd a) = true →
      let other := w.toNat / 2 ^ (if w.toNat % 2 = 0 then 32 else 16) % 65536
      (other ≠ 0 → ∃ t, exec (.gleanFlip d a b) s = .next t ∧ replies s t way d (failed 2) ∧ t.mem = s.mem ∧ t.slices = s.slices) ∧
      (other = 0 → ∃ t, exec (.gleanFlip d a b) s = .next t
        ∧ replies s t way d (BitVec.ofNat 64 (w.toNat / 65536 * 65536 + (w.toNat % 65536 + 1) % 65536)))) ∧
    ((∀ x ∈ (s.slice k).batches, ¬ (x.blk = s.rd b ∧ x.slot = s.slotOf s.cur ∧ x.desc = pa)) → ∃ t, exec (.gleanClose d a b) s = .next t
      ∧ replies s t way d (failed 4) ∧ t.mem = s.mem ∧ t.slices = s.slices) ∧
    (∀ x, (s.slice k).batches = [x] → x.blk = s.rd b → x.slot = s.slotOf s.cur → x.desc = pa → x.finished = true → ∃ t, exec (.gleanClose d a b) s = .next t
      ∧ (t.slice k).batches = [] ∧ replies s t way d 0) ∧
    (∀ x, (s.slice k).batches = [x] → x.blk = s.rd b → x.slot = s.slotOf s.cur → x.desc = pa → x.finished = false → ∃ t, exec (.gleanClose d a b) s = .next t
      ∧ (t.slice k).batches = [{ x with closers := x.closers ++ [(s.cur, d, s.me.token)] }] ∧ t.me.why = s.me.why ∧ t.mem = s.mem) ∧
    (∀ pb e, s.dirtyReady (s.slotOf s.cur) (s.rd a) = true → s.translateNow (s.slotOf s.cur) (s.privOf s.cur) (s.rd b) .r = .ok (pb, e) → s.cohReady pb 64 = true →
      let card := (List.range 8).map (word8 (s.cohRead pa 64))
      let blk := (List.range 8).map (word8 (s.cohRead pb 64))
      (badDesc card blk = true → ∃ t, exec (.gleanOpen d a b) s = .next t ∧ replies s t way d (failed 3) ∧ t.mem = s.mem ∧ t.slices = s.slices) ∧
      (badDesc card blk = false → s.badBatch (s.slotOf s.cur) (s.privOf s.cur) blk = true → ∃ t, exec (.gleanOpen d a b) s = .next t
        ∧ replies s t way d (failed 5) ∧ t.mem = s.mem ∧ t.slices = s.slices) ∧
      (badDesc card blk = false → s.badBatch (s.slotOf s.cur) (s.privOf s.cur) blk = false → 16 ≤ (s.slice k).batches.length → ∃ t, exec (.gleanOpen d a b) s = .next t
        ∧ replies s t way d (failed 1) ∧ t.mem = s.mem ∧ t.slices = s.slices) ∧
      (badDesc card blk = false → s.badBatch (s.slotOf s.cur) (s.privOf s.cur) blk = false → (s.slice k).batches.length < 16 → ∃ t, exec (.gleanOpen d a b) s = .next t
        ∧ replies s t way d (BitVec.ofNat 64 ((card.getD 5 0).toNat % 65536)) ∧ ∃ x ∈ (t.slice k).batches, dueIn t 1 (.gleanPrefetchRow k x.no) ∧ x.desc = pa ∧ x.card = card
          ∧ x.blk = s.rd b ∧ x.slot = s.slotOf s.cur ∧ x.g.toNat = (card.getD 5 0).toNat % 65536 ∧ x.idx = blk.getD 0 0 ∧ x.n = (blk.getD 1 0).toNat % 65536
          ∧ x.dst = blk.getD 2 0 ∧ x.ready = blk.getD 3 0 ∧ x.i = 0 ∧ x.finished = false))) ∧
  (∀ (s : State) (d a b : BitVec 4), atItsUnit s →
    let u := (s.rd a).toNat % 128
    let w := s.winnow u
    let way := s.toSlice (clusterOf s.cur) u
    w.at_ ≤ s.cycle →
    (w.slot ≠ none → ∃ t, exec (.wbind d a b) s = .next t ∧ replies s t way d (failed 6) ∧ (t.winnow u).win = w.win ∧ t.mem = s.mem) ∧
    (w.slot = none → ∃ t, exec (.wbind d a b) s = .next t ∧ replies s t way d (BitVec.ofNat 64 (w.gen.toNat * 65536 + u)) ∧ (t.winnow u).slot = some (s.slotOf s.cur)
      ∧ (t.winnow u).gen = w.gen ∧ (t.winnow u).win = [] ∧ (t.winnow u).occ = [] ∧ t.mem = s.mem) ∧
    (¬ bindsUnit s (s.rd a) → (∃ t, exec (.wbindUnbind d a b) s = .next t ∧ replies s t way d (failed 2) ∧ (t.winnow u).win = w.win ∧ t.mem = s.mem)
      ∧ ∃ t, exec (.wdone d a b) s = .next t ∧ replies s t way d (failed 2) ∧ (t.winnow u).win = w.win ∧ t.mem = s.mem) ∧
    (bindsUnit s (s.rd a) → w.win ≠ [] → ∃ t, exec (.wbindUnbind d a b) s = .next t ∧ replies s t way d (failed 7) ∧ (t.winnow u).win = w.win ∧ t.mem = s.mem) ∧
    (bindsUnit s (s.rd a) → w.win = [] → w.pulls = [] → ∃ t, exec (.wbindUnbind d a b) s = .next t ∧ replies s t way d 0 ∧ (t.winnow u).slot = none
      ∧ (t.winnow u).gen = w.gen + 1 ∧ t.mem = s.mem) ∧
    (∀ gen n, let g := (s.rd a).toNat / 2 ^ 32 % 256
      bindsUnit s (s.rd a) → Tab.get (0, 0, false) w.groups g = (gen, n, true) → w.pulls = [] →
      (gen.toNat ≠ (s.rd a).toNat / 2 ^ 40 % 256 → ∃ t, exec (.wdone d a b) s = .next t ∧ replies s t way d (failed 5) ∧ (t.winnow u).win = w.win ∧ t.mem = s.mem) ∧
      (gen.toNat = (s.rd a).toNat / 2 ^ 40 % 256 → ∃ t, exec (.wdone d a b) s = .next t ∧ t.mem = s.mem
        ∧ (∀ x ∈ (t.winnow u).win, x ∈ w.win ∧ ∀ p, x.issued = some (g, p) → p < 64 → (s.rd b).getLsbD p = false)
        ∧ replies s t way d (BitVec.ofNat 64 (w.win.filter (fun x => match x.issued with | some (k, p) => k == g && p < 64 && (s.rd b).getLsbD p | none => false)).length)))) ∧
  (∀ (s : State) (d a b : BitVec 4) (dc : Bool) (k : BitVec 4) (pa : Nat),
    let u := (s.rd b).toNat % 128
    let w := s.winnow u
    let way := s.toSlice (clusterOf s.cur) u
    w.at_ ≤ s.cycle →
    (atUnitWith s pa 32 → (∀ q, s.me.load = some q → q.pieces.length = 1) → (s.region pa).outside = false → s.cohReady pa 32 = true →
      let rcd := s.cohRead pa 32
      (¬ bindsUnit s (s.rd b) → ∃ t, exec (.wpush d a b dc k) s = .next t ∧ replies s t way d (failed 2) ∧ (t.winnow u).win = w.win ∧ t.mem = s.mem) ∧
      (bindsUnit s (s.rd b) → word8 rcd 3 ≠ 0 → ∃ t, exec (.wpush d a b dc k) s = .next t ∧ replies s t way d (failed 3) ∧ (t.winnow u).win = w.win ∧ t.mem = s.mem) ∧
      (bindsUnit s (s.rd b) → word8 rcd 3 = 0 → 256 ≤ w.win.length → ∃ t, exec (.wpush d a b dc k) s = .next t ∧ replies s t way d (failed 1) ∧ (t.winnow u).win = w.win
        ∧ t.mem = s.mem) ∧
      (bindsUnit s (s.rd b) → word8 rcd 3 = 0 → w.win.length < 256 → w.pulls = [] → ∃ t e, exec (.wpush d a b dc k) s = .next t
        ∧ replies s t way d (BitVec.ofNat 64 (w.win.length + 1)) ∧ (t.winnow u).win = w.win ++ [e] ∧ e.tag = word8 rcd 2 ∧ e.issued = none
        ∧ (∀ x, x ∈ e.bodies ↔ x ≠ 0xFFFFFFFF ∧ ∃ i, i < 4 ∧ x = word4 rcd i) ∧ e.bodies.Nodup ∧ t.mem = s.mem)) ∧
    (∀ q p rest id, s.stage = 1 → s.me.why = .reply (id + 1) → s.me.load = some q → q.pieces = p :: rest →
      (¬ bindsUnit s (s.rd b) → ∃ t, exec (.wpull d a b dc k) s = .next t ∧ replies s t way d (failed 2) ∧ (t.winnow u).win = w.win ∧ t.mem = s.mem) ∧
      (bindsUnit s (s.rd b) → (∀ x ∈ w.win, x.issued ≠ none) → ∃ t, exec (.wpull d a b dc k) s = .next t ∧ replies s t way d (failed 4) ∧ (t.winnow u).win = w.win
        ∧ t.mem = s.mem) ∧
      (∀ e x, bindsUnit s (s.rd b) → w.win = [e] → e.issued = none → e.bodies = [x] → w.occ = [] → w.groups = [] → (∀ y n, s.refusedByte y n = none) → 16 ≤ p.len → s.unitCan p.pa 16 = true →
        ∃ t, exec (.wpull d a b dc k) s = .next t ∧ repliesAcquire s t (way + 2) d (BitVec.ofNat 64 (256 + 65536)) ∧ (t.winnow u).win = [{ e with issued := some (0, 0) }]
          ∧ (t.winnow u).holds x = true) ∧
      (∀ e x, bindsUnit s (s.rd b) → w.win = [e] → e.issued = none → e.bodies = [x] → w.holds x = true → (s.core (coreOf s.cur)).wdWait = 0 →
        ∃ t, exec (.wpull d a b dc k) s = .next t ∧ t.me.st = .dispatchWait ∧ t.me.pc = s.me.pc ∧ (t.winnow u).win = w.win ∧ t.mem = s.mem
          ∧ (t.winnow u).pulls = w.pulls ++ [{ who := s.cur, id := s.me.token, rd := d, pas := q.pieces }]))) ∧
  (∀ (s : State) (d a : BitVec 4), s.me.pp = false →
    let m := (s.cluster (clusterOf s.cur)).mon
    (m.src ≠ 1 → exec (.msamp d a) s = .next (s.put d 1)) ∧ (m.src = 1 → m.frz = true → exec (.msamp d a) s = .next (s.put d 2)) ∧
    (m.src = 1 → m.frz = false → exec (.msamp d a) s = .next ((s.put d 0).now (.monitorSample (clusterOf s.cur) ((s.rd a).setWidth 32)))))

/-- R360 to R372, R376, R399: jobs accepted and retired, short copies read, written and retired, the walk's steps O, W and S, a batch's
skipped row and ready word, and the monitor's statistics. -/
def Obligations.UnitEvents : Prop :=
  (∀ (s : State) (c : CtxId) (card : List W64) (d : BitVec 4), (s.ctx c).token ≠ 0 → (s.dev.jobs.map (·.1)).Nodup →
    let way := if c / 32768 = 0 then 40 else 70
    let used := s.dev.jobs.filter (fun e => e.2.used)
    let back (t : State) (v : W64) := dueIn t way (.replyArrival c { id := (s.ctx c).token, rd := d, wr := true, val := v, did := true })
    (s.cardOk (clusterOf c) card = false → happens .jobAccept (.jobAccept c card d) s (fun t => back t (failed 3) ∧ t.dev = s.dev ∧ t.mem = s.mem)) ∧
    (s.cardOk (clusterOf c) card = true → 2048 ≤ used.length ∨ 512 ≤ (used.filter (fun e => e.2.slot == s.slotOf c)).length →
      happens .jobAccept (.jobAccept c card d) s (fun t => back t (failed 1) ∧ t.dev = s.dev ∧ t.mem = s.mem)) ∧
    (∀ e, s.cardOk (clusterOf c) card = true → used.length < 2048 → (used.filter (fun e => e.2.slot == s.slotOf c)).length < 512 → (s.job e).used = false →
      (∀ n, n < e → (s.job n).used = true) → s.twin c = none → happens .jobAccept (.jobAccept c card d) s (fun t =>
        let id := (s.job e).gen.toNat * 65536 + e
        back t (BitVec.ofNat 64 id) ∧ (t.job e).used = true ∧ (t.job e).card = card ∧ (t.job e).slot = s.slotOf c ∧ (t.job e).who = c ∧ (t.job e).no = s.dev.jobNext
          ∧ (t.job e).gen = (s.job e).gen ∧ t.dev.jobNext = s.dev.jobNext + 1 ∧ (t.ctx c).jobs = (s.ctx c).jobs ++ [{ id := id, fps := cardFps card }] ∧ t.mem = s.mem))) ∧
  (∀ (s : State) (e : Nat) (code : BitVec 8), (s.job e).used = true → (s.job e).d 1 = 0 → (s.dev.jobs.map (·.1)).Nodup → s.twin (s.job e).who = none →
    happens .jobRetire (.jobRetire e code) s (fun t => (t.job e).used = false ∧ (t.job e).gen = (s.job e).gen + 1 ∧ (t.job e).oldGen = (s.job e).gen
      ∧ (t.job e).oldCode = code.setWidth 64 ∧ (t.job e).oldAt = s.cycle ∧ t.dev.ewaits = s.dev.ewaits.filter (fun w => w.1 != e)
      ∧ (∀ c d id, (e, c, d, id) ∈ s.dev.ewaits → dueIn t (if c / 32768 = 0 then 40 else 70) (.replyArrival c
          { id := id, rd := d, wr := true, val := code.setWidth 64, bank := true, did := true }))
      ∧ ((s.ctx (s.job e).who).why = .held → (t.ctx (s.job e).who).st = .issuing) ∧ t.mem = s.mem)) ∧
  (∀ (s : State) (cl : ClusterId) (b : Sb) (p q : Piece) (k off l off' : Nat), (s.cluster cl).sb = [b] → b.srcs = [p] → b.dsts = [q] → b.ended = false → b.done = 0 → b.ext = 0 →
    p.len = q.len → 0 < q.len → s.region p.pa = .scratch k off → s.region q.pa = .scratch l off' → hbmBytes ≤ p.pa → hbmBytes ≤ q.pa → q.pa % 128 + q.len ≤ 128 →
    s.lentAway p.pa = false → s.lentAway q.pa = false →
    (b.buf = [] → s.cohReady p.pa p.len = true → happens .engineRequest (.engineRequest cl) s (fun t => (∃ c, (t.cluster cl).sb = [c] ∧ c.buf.map (·.1) = Memory.read s.mem p.pa p.len ∧ c.done = 0)
      ∧ (∃ y ∈ t.agenda, y.act = .ev (.engineRequest cl)) ∧ t.mem = s.mem)) ∧
    (b.buf.length = q.len → s.cohReady q.pa q.len = true → s.refusedByte q.pa q.len = none → (s.cluster l).parked = [] → (s.slice (s.pointSlice q.pa)).resv = [] →
      happens .engineRequest (.engineRequest cl) s (fun t => (∃ c, (t.cluster cl).sb = [c] ∧ c.ended = true)
        ∧ dueIn t (2 * s.toBank cl cl) (.ecpyRetire cl b.id) ∧ t.mem = Memory.write s.mem q.pa (b.buf.map (·.1)))) ∧
    (s.refusedByte q.pa q.len ≠ none → b.buf.length = q.len → s.cohReady q.pa q.len = true → happens .engineRequest (.engineRequest cl) s (fun t => (∃ c, (t.cluster cl).sb = [c] ∧ c.ended = true ∧ c.refused = true)
      ∧ dueIn t (2 * s.toBank cl cl) (.ecpyRetire cl b.id) ∧ t.mem = s.mem))) ∧
  (∀ (s : State) (cl : ClusterId) (b : Sb), (s.cluster cl).sb = [b] → (s.cluster cl).sbWait = [] → happens .ecpyRetire (.ecpyRetire cl b.id) s (fun t =>
    (t.cluster cl).sb = [] ∧ dueNow t (.storeAcknowledgement b.who b.id { bank := true }) ∧ (t.ctx b.who).evc = (if b.refused then (s.ctx b.who).evc.bump 0x40 1 else (s.ctx b.who).evc)
      ∧ (∀ c, clusterOf c = cl → (s.ctx c).why = .held → (t.ctx c).st = .issuing) ∧ t.mem = s.mem)) ∧
  (∀ (s : State) (cl : ClusterId) (w : Walk), (s.cluster cl).walk = some w →
    (∀ h, w.step = .o → w.ph = 2 → happens .walkOpenServed (.walkOpenServed cl h) s (fun t => (t.cluster cl).walk = some { w with bolt := h, step := .g, ph := 0, k := 0 }
      ∧ dueIn t 1 (.walkBlock cl) ∧ t.mem = s.mem)) ∧
    (w.stopped = false → (s.job w.job).ended = none → (s.loom cl).frozen s.cycle = false → (s.loom cl).st ≠ .link → (s.loom cl).st ≠ .frozen →
      (w.step = .w → w.opened = [] → (s.job w.job).halted = false → happens .walkBTileWaitEnd (.walkBTileWaitEnd cl) s (fun t =>
        (t.cluster cl).walk = some { w with step := .l, k := 0, ph := 0 } ∧ dueNow t (.walkBlock cl) ∧ t.mem = s.mem)) ∧
      (∀ h, w.step = .w → w.opened = [h] → s.walkReleased cl h = false → (s.job w.job).halted = false → happens .walkBTileWaitEnd (.walkBTileWaitEnd cl) s (fun t =>
        (t.cluster cl).walk = some w ∧ dueIn t 1 (.walkBTileWaitEnd cl) ∧ t.mem = s.mem)) ∧
      (∀ e b, w.step = .s → s.walkBolt cl w.bolt = some (e, b) → w.bolt.toNat / 2 ^ 24 = cl % 256 → b.out = false → happens .walkBlock (.walkBlock cl) s (fun t =>
        ((t.cluster cl).bolt e).st = .sealed_ ∧ ((t.cluster cl).bolt e).cause = 0 ∧ t.mem = s.mem
          ∧ (t.cluster cl).walk = some { w with opened := w.opened ++ [w.bolt], n := w.n + 1, step := .e, ph := 0, k := 0, buf := [], sealed_ := w.sealed_ + 1 }
          ∧ (if w.n + 1 = ((s.job w.job).d 3).toNat % 65536 then dueIn t (s.job w.job).rt (.jobRetire w.job 0) else dueIn t 1 (.walkBlock cl)))) ∧
      (w.step = .s → s.walkBolt cl w.bolt = none → happens .walkBlock (.walkBlock cl) s (fun t => t.mem = s.mem
          ∧ (t.cluster cl).walk = some { w with opened := w.opened ++ [w.bolt], n := w.n + 1, step := .e, ph := 0, k := 0, buf := [], truncs := w.truncs + 1 })))) ∧
  (∀ (s : State) (k : SliceId) (b : Batch), (s.slice k).batches = [b] → b.finished = false → b.err = false →
    (∀ x, b.x = some x → b.i < b.n → x < ((b.card.getD 2 0).toNat % 2 ^ 32) ∨ (b.card.getD 2 0).toNat % 2 ^ 32 + (b.card.getD 2 0).toNat / 2 ^ 32 ≤ x →
      happens .gleanPrefetchRow (.gleanPrefetchRow k b.no) s (fun t => (t.slice k).batches = [{ b with skipped := b.skipped + 1, i := b.i + 1, x := none, buf := [] }]
        ∧ dueIn t 1 (.gleanPrefetchRow k b.no) ∧ t.mem = s.mem)) ∧
    (∀ pa e cl off, b.n ≤ b.i → b.closers = [] → s.translateNow b.slot b.priv b.ready .w = .ok (pa, e) → e.d = true → s.dirtyReady b.slot b.ready = true → s.cohReady pa 8 = true → s.region pa = .scratch cl off →
      hbmBytes ≤ pa → pa % 8 = 0 → s.refusedByte pa 8 = none → s.lentAway pa = false → (s.cluster cl).parked = [] → (s.slice (s.pointSlice pa)).resv = [] →
      happens .gleanPrefetchRow (.gleanPrefetchRow k b.no) s (fun t => (t.slice k).batches = [{ b with finished := true }]
        ∧ t.mem = Memory.write s.mem pa (leBytes 8 (BitVec.ofNat 64 (2 ^ 63 + min b.skipped 0xFFFF * 2 ^ 32 + b.placed) : W64).toNat))) ∧
    (∀ c, b.n ≤ b.i → b.closers = [] → s.translateNow b.slot b.priv b.ready .w = .error c → happens .gleanPrefetchRow (.gleanPrefetchRow k b.no) s (fun t =>
      (t.slice k).batches = [{ b with finished := true }] ∧ t.mem = s.mem))) ∧
  (∀ (s : State) (cl : ClusterId) (x : BitVec 32), let m := (s.cluster cl).mon
    (m.frz = true → happens .monitorSample (.monitorSample cl x) s (fun t => t = { s with ev := .monitorSample cl x })) ∧
    (m.frz = false → happens .monitorSample (.monitorSample cl x) s (fun t => let n := (t.cluster cl).mon
      (n.min = if x.toNat < m.min.toNat then x else m.min) ∧ (n.max = if m.max.toNat < x.toNat then x else m.max)
        ∧ (m.sum.toNat + x.toNat < 2 ^ 48 → n.sum.toNat = m.sum.toNat + x.toNat ∧ n.sumSat = m.sumSat) ∧ (2 ^ 48 ≤ m.sum.toNat + x.toNat → n.sum = -1 ∧ n.sumSat = true)
        ∧ (m.cnt ≠ -1 → n.cnt = m.cnt + 1 ∧ n.cntSat = m.cntSat) ∧ (m.cnt = -1 → n.cnt = -1 ∧ n.cntSat = true) ∧ t.mem = s.mem)))

/-! Remote operations, lending, launches, checkpointing and twill pairs (chapters 8, 20 and 21). -/

namespace Sys2Proof.Stated

/-- Fields of the remote control word (R435). -/
def controlCore (g : W64) : Nat := g.toNat % 2 ^ 24

/-- The remote operation that an instruction names from its registers alone: destination register, control word, whether the grain waits
for the status, whether the register receives a value, and the message (R438 to R442). -/
def remoteOf (s : State) : Instr → Option (BitVec 4 × W64 × Bool × Bool × Msg)
  | .ramo d a b c =>
    let g := s.rd c
    some (d, g, d != 0 || g.extractLsb' 39 4 == 11, true,
      { core := controlCore g, cls := g.extractLsb' 32 4, rl := g.getLsbD 31, kind := .atomic (g.extractLsb' 39 4) (s.rd a) (s.rd b) (s.rd d) })
  | .rmsg d a c =>
    let g := s.rd c
    some (d, g, d != 0, false, { core := controlCore g, cls := g.extractLsb' 32 4, rl := g.getLsbD 31, kind := .active (s.rd a) (s.rd 1) (s.rd 2) (s.rd 3) (s.rd 4) })
  | .rwake d a c => some (d, s.rd c, d != 0, false, { core := controlCore (s.rd c), kind := .wake (s.rd a) })
  | _ => none

/-- An argument of a remote instruction is bad: BADARG (R436, R438 to R442). -/
def remoteBadArg (s : State) : Instr → Prop
  | .rwr _ a b c =>
    let g := s.rd c
    let n := g.toNat / 2 ^ 24 % 128 + 1
    g.toNat / 2 ^ 43 ≠ 0 ∨ g.getLsbD 36 = true ∨ g.extractLsb' 39 4 ≠ 0 ∨ (g.getLsbD 38 = true ∧ g.getLsbD 37 = false) ∨ 65536 < (s.rd b).toNat % 65536 + n
      ∨ (g.getLsbD 37 = true ∧ ((s.rd a).getLsbD 39 = true ∨ (s.rd a).toNat / 2 ^ 52 ≠ 0 ∨ (s.rd a).toNat / 2 ^ 24 % 256 ≠ controlCore g / 8 % 256))
      ∨ (g.getLsbD 37 = false ∧ 65536 < (s.rd a).toNat % 65536 + n)
  | .ramo _ a _ c =>
    let g := s.rd c
    let op := (g.extractLsb' 39 4).toNat
    g.toNat / 2 ^ 43 ≠ 0 ∨ g.toNat / 2 ^ 24 % 128 ≠ 0 ∨ g.getLsbD 37 = true ∨ g.getLsbD 38 = true ∨ op < 2 ∨ 12 < op ∨ (s.rd a).toNat % (if op = 12 then 4 else 8) ≠ 0
  | .rmsg _ a c => (s.rd c).toNat / 2 ^ 36 ≠ 0 ∨ (s.rd c).toNat / 2 ^ 24 % 128 ≠ 0 ∨ (s.rd a).toNat % 4 ≠ 0
  | .rwake _ _ c => (s.rd c).toNat / 2 ^ 24 ≠ 0
  | _ => False

/-- Destination register, whether the grain waits for the status, and the failure value of the register, of a remote instruction. -/
def remoteForm (s : State) : Instr → Option (BitVec 4 × Bool × Bool)
  | .rwr d _ _ _ => some (d, d != 0, true)
  | .ramo d _ _ c => some (d, d != 0 || (s.rd c).extractLsb' 39 4 == 11, false)
  | .rmsg d _ _ => some (d, d != 0, true)
  | .rwake d _ _ => some (d, d != 0, true)
  | _ => none

/-- The operation ends at its sender with a code: RMST takes it, a posted one counts in PFAIL, and the register receives it (zero for
RAMO) (R436, R437). -/
def endsAtSender (s : State) (d : BitVec 4) (code : BitVec 8) (posted : Bool) (val : W64) : State :=
  (s.setMe { s.me with last := code, pfail := if posted = true ∧ s.me.pfail ≠ -1 then s.me.pfail + 1 else s.me.pfail }).put d val

/-- Cycles to the mesh stop of a target on this chip, and none to another (R297, R428). -/
def messageWay (s : State) (core : Nat) : Nat :=
  if core / 4096 = s.dev.chip.toNat then s.toCluster (clusterOf s.cur) (core % 4096 / 8) else 0

/-- What holds of the sender after its message has left (R412, R437). -/
def messageLeft (s t : State) (d : BitVec 4) (waits val : Bool) (m : Msg) : Prop :=
  t.mem = s.mem ∧ dueIn t (messageWay s m.core) (.remoteMessageArrival m) ∧ m.id = s.fresh + 1 ∧ m.src = s.ctxNumber s.cur ∧ m.slot = s.slotOf s.cur ∧ m.wait = waits
    ∧ m.num = s.me.num ∧ m.dom = s.dev.dom ∧ m.inc = s.dev.inc ∧ m.want = Tab.get 0 s.dev.incs (m.core / 4096) ∧ t.me.num = s.me.num + 1 ∧ t.me.g = s.me.g
    ∧ (∃ o, t.sent = s.sent ++ [o] ∧ o.id = m.id ∧ o.who = s.cur ∧ o.rd = d ∧ o.posted = !waits ∧ o.val = val ∧ o.msg = m)
    ∧ (if waits then t.me.st = .waiting ∧ t.me.why = .reply m.id ∧ t.me.pc = s.me.pc
       else t.me.pc = s.me.pc + 4 ∧ t.me.pend = s.me.pend ++ [{ id := m.id, cls := m.cls }])

end Sys2Proof.Stated

/-- R412, R435 to R442: a remote instruction ends at its sender with BADARG or NESTED, or sends one message and waits for its status or
counts it until its acknowledgement; RWR reads its source as a load first. -/
def Obligations.RemoteInstructions : Prop :=
  (∀ (i : Instr) (s : State) (d : BitVec 4) (waits coded : Bool), remoteForm s i = some (d, waits, coded) → s.me.pp = false → s.stage = 0 →
    ((∃ x y z, i = .rwake x y z) → s.privOf s.cur = true) →
    (remoteBadArg s i → exec i s = .next (endsAtSender s d 6 (!waits) (if coded then 6 else 0))) ∧
    (¬ remoteBadArg s i → s.cur % 16 = 15 → waits = true ∨ (∃ x y z, i = .rmsg x y z) → exec i s = .next (endsAtSender s d 7 (!waits) (if coded then 7 else 0)))) ∧
  (∀ (i : Instr) (s : State) (d : BitVec 4) (g : W64) (waits val : Bool) (base : Msg), remoteOf s i = some (d, g, waits, val, base) → s.me.pp = false → s.stage = 0 →
    s.twin s.cur = none → ((∃ x y z, i = .rwake x y z) → s.privOf s.cur = true) → ¬ remoteBadArg s i → s.cur % 16 ≠ 15 → s.remoteHold g (!waits) [] 0 0 = false →
    ∃ t m, exec i s = .next t ∧ messageLeft s t d waits val m ∧ m.core = base.core ∧ m.cls = base.cls ∧ m.rl = base.rl ∧ m.kind = base.kind) ∧
  (∀ (s : State) (d a b c : BitVec 4), s.me.pp = false → s.twin s.cur = none →
    let i : Instr := .rwr d a b c
    let g := s.rd c
    let n := g.toNat / 2 ^ 24 % 128 + 1
    (∀ pa e, s.stage = 0 → ¬ remoteBadArg s i → (s.cur % 16 ≠ 15 ∨ d = 0) → s.look s.cur (s.rd b) .r = .hit pa e → (s.region pa).outside = false →
      (s.region ((splitLines pa n).headD {}).pa).outside = false →
      s.l1Hits (coreOf s.cur) (splitLines pa n) = false → s.remoteHold g (d == 0) (splitLines pa n) (s.rd b) n = false →
      ∃ t, exec i s = .next t ∧ waitsForReply s t ∧ t.mem = s.mem ∧ (∃ q, t.me.load = some q ∧ q.pieces = splitLines pa n)
        ∧ ∃ x ∈ t.agenda, x.who = s.cur ∧ x.stage = 1 ∧ x.act = .run i) ∧
    (∀ q p id, s.stage = 1 → s.me.why = .reply id → s.me.load = some q → q.pieces = [p] → s.cohReady p.pa p.len = true → s.lentAway p.pa = false →
      ∃ t m, exec i s = .next t ∧ messageLeft s t d (d != 0) false m ∧ m.core = controlCore g ∧ m.cls = g.extractLsb' 32 4 ∧ m.rl = g.getLsbD 31
        ∧ m.kind = (if g.getLsbD 37 then .bolt ((s.rd a).setWidth 32) ((s.rd a).toNat / 2 ^ 32 % 128) ((s.rd a).toNat / 2 ^ 40 % 4096) (g.getLsbD 38) (s.cohRead p.pa p.len)
                    else .write (s.rd a) (s.cohRead p.pa p.len))))

/-- R172, R173, R419, R422, R423, R448, R449: LAUNCH's statuses, RLEND's three operations, CKPT's three and TWIL's two. -/
def Obligations.LaunchLendAndRecoveryInstructions : Prop :=
  (∀ (s : State) (d a : BitVec 4),
    (s.me.pp = false → s.stage = 0 → (s.rd a).toNat % 64 ≠ 0 → exec (.launch d a) s = .next (exactTrap s 0x05 0 (s.rd a))) ∧
    (∀ id, s.stage = 1 → s.me.why = .reply (id + 1) → s.me.srcBytes.length = 64 →
      let bs := s.me.srcBytes
      let x := descOf bs
      let n := s.fresh + 1
      let queued := (s.dev.launches.filter (fun e => e.2.owner && e.2.die == dieOf s.cur && e.2.slot == s.slotOf s.cur && s.queued e.1)).length
      (descOk bs = false → ∃ t, exec (.launch d a) s = .next t ∧ repliesAcquire s t 40 d 2 ∧ t.dev = s.dev ∧ t.mem = s.mem) ∧
      (descOk bs = true → 64 ≤ queued → ∃ t, exec (.launch d a) s = .next t ∧ repliesAcquire s t 40 d 1 ∧ t.dev = s.dev ∧ t.mem = s.mem) ∧
      (descOk bs = true → queued < 64 → x.kind.toNat < 2 → ∃ t, exec (.launch d a) s = .next t ∧ repliesAcquire s t 40 d 0 ∧ t.mem = s.mem ∧ (t.launch n).desc = x
        ∧ (t.launch n).slot = s.slotOf s.cur ∧ (t.launch n).die = dieOf s.cur ∧ (t.launch n).owner = true
        ∧ (∀ st info, s.partFails x = some (st, info) → (t.launch n).ended = true ∧ (t.launch n).status = st ∧ (t.launch n).info = info ∧ dueNow t (.completionRecordWrite n))
        ∧ (s.partFails x = none → (t.launch n).todo = s.partGangs x ∧ ∀ k, k < 2 → (∃ l ∈ s.partGangs x, ∃ y ∈ l, y / 256 = k) →
            t.queueOf k (s.slotOf s.cur) = s.queueOf k (s.slotOf s.cur) ++ [n] ∧ dueIn t 0 (.gangAdmission k (s.slotOf s.cur)))))) ∧
  (∀ (s : State) (d a b : BitVec 4), s.me.pp = false → s.stage = 0 → s.privOf s.cur = true →
    let f := (s.rd a).toNat / 65536
    let g := s.rd b
    let l := s.lendOf f
    let badArg := g.toNat / 2 ^ 14 ≠ 0 ∨ g.toNat % 4 = 3
    let badFrame := (s.rd a).toNat % 65536 ≠ 0 ∨ s.hbmLen ≤ (s.rd a).toNat
    (∀ i ∈ [Instr.rlendLend d a b, .rlendRecall d a b, .rlendQuery d a b], (badArg → exec i s = .next (s.put d 6)) ∧ (¬ badArg → badFrame → exec i s = .next (s.put d 1))) ∧
    (¬ badArg → ¬ badFrame →
      exec (.rlendQuery d a b) s = .next (s.put d (if l.st = 0 then 0 else BitVec.ofNat 64 (l.peer.toNat * 8 + l.kind.toNat * 4 + l.st.toNat))) ∧
      (l.st ≠ 2 → exec (.rlendRecall d a b) s = .next (s.put d 3)) ∧
      (l.st = 2 → ∃ t, exec (.rlendRecall d a b) s = .next t ∧ waitsForReply s t ∧ (t.lendOf f).st = 3 ∧ (t.lendOf f).who = some (s.cur, d)
        ∧ (t.lendOf f).left = (List.range 512).map (512 * f + ·) ∧ t.mem = s.mem
        ∧ (l.kind = false → t.out = s.out ++ (List.range 512).map (fun j => OutMsg.recall (512 * f + j)))
        ∧ ∀ p, l.kind = true → s.links = [] → s.portFor (4096 * s.dev.chip.toNat) (4096 * s.peerChip l.peer.toNat) 0 = some p →
          ∀ j, j < 512 → ∃ no, OutMsg.link p (s.peerChip l.peer.toNat)
            { chip := s.dev.chip.toNat, no := no, dom := s.dev.dom, inc := s.dev.inc, want := Tab.get 0 s.dev.incs (s.peerChip l.peer.toNat) } (.recall (512 * f + j)) ∈ t.out) ∧
      (s.me.pend ≠ [] → exec (.rlendLend d a b) s = .next (s.wait s.cur (.drain (.rlendLend d a b)))) ∧
      (s.me.pend = [] → s.me.why = .none →
        let full := 4096 ≤ (s.dev.lends.filter (fun e => e.2.st != 0)).length
        let absent := (g.getLsbD 2 = true ∧ (Tab.get (false, 0) s.dev.peers (g.toNat / 16 % 1024)).1 = false) ∨ (g.getLsbD 2 = false ∧ s.dev.cxl = false)
        (full → exec (.rlendLend d a b) s = .next (s.put d 2)) ∧ (¬ full → l.st ≠ 0 → exec (.rlendLend d a b) s = .next (s.put d 3)) ∧
        (¬ full → l.st = 0 → absent → exec (.rlendLend d a b) s = .next (s.put d 4)) ∧
        (¬ full → l.st = 0 → ¬ absent → ∃ t, exec (.rlendLend d a b) s = .next t ∧ waitsForReply s t ∧ t.mem = s.mem ∧ (t.lendOf f).st = 1 ∧ (t.lendOf f).kind = g.getLsbD 2
          ∧ (t.lendOf f).peer = (if g.getLsbD 2 then g.extractLsb' 4 10 else 0)
          ∧ ∀ j, j < 512 → dueIn t (s.toSlice (clusterOf s.cur) (homeOf (512 * f + j))) (.lineStep (512 * f + j) 1 true (s.fresh + 1)))))) ∧
  (∀ (s : State) (d a : BitVec 4), s.me.pp = false →
    let ck := (s.loom (clusterOf s.cur)).ck
    (∀ i ∈ [Instr.ckptArm d a, .ckptDisarm d a, .ckptQuery d a], (s.privOf s.cur = false → exec i s = .next (exactTrap s 0x03 0 ((wordOfInstr i).setWidth 64))) ∧
      (s.privOf s.cur = true → s.cur % 128 ≠ 0 → exec i s = .next (s.put d (failed 2)))) ∧
    (s.privOf s.cur = true → s.cur % 128 = 0 →
      exec (.ckptQuery d a) s = .next (s.put d (BitVec.ofNat 64 (ck.count.toNat * 65536 + (ck.rerun != 0).toNat * 2 + ck.armed.toNat))) ∧
      ((s.rd a).toNat % 4 = 3 → exec (.ckptArm d a) s = .next (s.put d (failed 15))) ∧
      (ck.rerun ≠ 0 → ∃ t, exec (.ckptDisarm d a) s = .next t ∧ (t.loom (clusterOf s.cur)).ck = { ck with ask := 2 } ∧ t.rd d = 0 ∧ t.me.pc = s.me.pc + 4 ∧ t.mem = s.mem) ∧
      (ck.rerun = 0 → ∃ t, exec (.ckptDisarm d a) s = .next t ∧ (t.loom (clusterOf s.cur)).ck.armed = false ∧ (t.loom (clusterOf s.cur)).ck.point = none ∧ t.rd d = 0
        ∧ t.me.pc = s.me.pc + 4) ∧
      ((s.rd a).toNat % 4 ≠ 3 → (s.loom (clusterOf s.cur)).st = .stopped → ∃ t, exec (.ckptArm d a) s = .next t ∧ (t.loom (clusterOf s.cur)).ck = { ck with armed := true, point := none }
        ∧ t.rd d = 0 ∧ t.me.pc = s.me.pc + 4 ∧ t.mem = s.mem) ∧
      ((s.rd a).toNat % 4 ≠ 3 → (s.loom (clusterOf s.cur)).st ≠ .stopped → ck.rerun ≠ 0 → ∃ t, exec (.ckptArm d a) s = .next t
        ∧ (t.loom (clusterOf s.cur)).ck = { ck with ask := 3 } ∧ t.rd d = 0 ∧ t.me.pc = s.me.pc + 4 ∧ t.mem = s.mem) ∧
      ((s.rd a).toNat % 4 ≠ 3 → (s.loom (clusterOf s.cur)).st ≠ .stopped → ck.rerun = 0 → ck.armed = false → ∃ t, exec (.ckptArm d a) s = .next t
        ∧ (t.loom (clusterOf s.cur)).ck.armed = true ∧ (t.loom (clusterOf s.cur)).ck.point = some (s.loom (clusterOf s.cur)).k ∧ t.rd d = 0 ∧ t.me.pc = s.me.pc + 4 ∧ t.mem = s.mem))) ∧
  (∀ (s : State) (d a : BitVec 4), s.me.pp = false →
    let k := coreOf s.cur
    let n := (s.rd a).toNat % 16
    let x := (s.core k).twills.filter (fun t => t.ctx != n)
    (∀ i ∈ [Instr.twilCouple d a, .twilUncouple d a], (s.cur % 16 ≠ 0 → exec i s = .next (exactTrap s 0x03 0 ((wordOfInstr i).setWidth 64))) ∧
      (s.cur % 16 = 0 → k % 2 = 1 → exec i s = .next (s.put d 1)) ∧ (s.cur % 16 = 0 → k % 2 = 0 → n = 0 ∨ n = 15 → exec i s = .next (s.put d 2)) ∧
      (s.cur % 16 = 0 → k % 2 = 0 → n ≠ 0 → n ≠ 15 → (s.ctx (s.cur + n)).st ≠ .stopped ∨ (s.ctx (s.cur + 16 + n)).st ≠ .stopped → exec i s = .next (s.put d 3))) ∧
    (s.cur % 16 = 0 → k % 2 = 0 → n ≠ 0 → n ≠ 15 → (s.ctx (s.cur + n)).st = .stopped → (s.ctx (s.cur + 16 + n)).st = .stopped →
      exec (.twilCouple d a) s = .next ((s.setCore k { s.core k with twills := x ++ [{ ctx := n, node := (s.rd a).extractLsb' 32 16 }] }).put d 0) ∧
      exec (.twilUncouple d a) s = .next ((s.setCore k { s.core k with twills := x }).put d 0)))

namespace Sys2Proof.Stated

/-- A message's status is on its way to its sender, over the mesh or out of the chip (R436, R437). -/
def statusComes (s t : State) (m : Msg) (code : BitVec 8) (v : W64) : Prop :=
  if m.src / 65536 = s.dev.chip.toNat then
    dueIn t (s.toCluster (m.core % 4096 / 8) (m.src % 65536 / 128)) (.remoteStatusArrival (m.src % 65536) m.id code v none)
  else ∀ p, s.portFor (m.core % 4096 + 4096 * s.dev.chip.toNat) (4096 * (m.src / 65536)) 0 = some p →
    OutMsg.link p (m.src / 65536) { chip := s.dev.chip.toNat, dom := s.dev.dom, inc := s.dev.inc, want := Tab.get 0 s.dev.incs (m.src / 65536) }
      (.status m.src m.id code v) ∈ t.out

/-- Context 15 of a core performs a message in this cycle. -/
def performs (s : State) (k : CoreId) (m : Msg) : Prop :=
  (s.ctx (16 * k + 15)).msg = some m ∧ (s.ctx (16 * k + 15)).why = .timed ∧ (s.core k).frozen s.cycle = false

/-- Context 15 of a core is done with its message. -/
def messageEnded (t : State) (k : CoreId) : Prop := (t.ctx (16 * k + 15)).msg = none ∧ (t.ctx (16 * k + 15)).why = .event ∧ dueNow t (.messageTake k)

/-- A quiet place of a scratchpad within one line: not refused, its bank with a turn left in this cycle, nothing parked in its cluster and no
reservation (R291). -/
def plainScratch (s : State) (pa n : Nat) : Prop :=
  ∃ cl off, s.region pa = .scratch cl off ∧ hbmBytes ≤ pa ∧ pa % 128 + n ≤ 128 ∧ 0 < n ∧ s.refusedByte pa n = none ∧ s.cohReady pa n = true ∧ s.lentAway pa = false
    ∧ (s.cluster cl).parked = [] ∧ (s.slice (s.pointSlice pa)).resv = []

end Sys2Proof.Stated

/-- R145, R429 to R442, R449, R471: messages checked, queued and performed at their target, statuses at the sender, wakes, links and
the acknowledgements of a recall. -/
def Obligations.RemoteEvents : Prop :=
  (∀ (s : State) (m : Msg), let k := m.core % 4096
    let here := m.core / 4096 = s.dev.chip.toNat
    let far := m.src / 65536 ≠ s.dev.chip.toNat
    let x := s.core k
    (¬ here → s.portFor (m.src / 16) m.core m.cls.toNat = none → happens .remoteMessageArrival (.remoteMessageArrival m) s (fun t =>
      dueIn t 1 (.remoteStatusArrival (m.src % 65536) m.id 3 0 none) ∧ t.mem = s.mem)) ∧
    (∀ p, ¬ here → s.portFor (m.src / 16) m.core m.cls.toNat = some p → happens .remoteMessageArrival (.remoteMessageArrival m) s (fun t =>
      t.out = s.out ++ [.remote p m] ∧ t.agenda = s.agenda ∧ t.mem = s.mem)) ∧
    (here → far → m.dom ≠ s.dev.dom ∨ Tab.get 0 s.dev.incs (m.src / 65536) ≠ m.inc → happens .remoteMessageArrival (.remoteMessageArrival m) s (fun t =>
      t.dev = { s.dev with incdrop := if s.dev.incdrop = -1 then -1 else s.dev.incdrop + 1 } ∧ t.out = s.out ∧ t.agenda = s.agenda ∧ t.cores = s.cores ∧ t.mem = s.mem)) ∧
    (here → far → m.dom = s.dev.dom → Tab.get 0 s.dev.incs (m.src / 65536) = m.inc → m.want ≠ s.dev.inc → happens .remoteMessageArrival (.remoteMessageArrival m) s (fun t =>
      statusComes s t m 4 0 ∧ t.cores = s.cores ∧ t.mem = s.mem)) ∧
    (here → ¬ far → m.again = false →
      (s.clusterValid (k / 8) = false → happens .remoteMessageArrival (.remoteMessageArrival m) s (fun t => statusComes s t m 3 0 ∧ t.cores = s.cores ∧ t.mem = s.mem)) ∧
      (∀ v, s.clusterValid (k / 8) = true → m.kind = .wake v → happens .remoteMessageArrival (.remoteMessageArrival m) s (fun t =>
        dueNow t (.wakeArrival k v) ∧ statusComes s t m 0 0 ∧ t.mem = s.mem)) ∧
      (s.clusterValid (k / 8) = true → (∀ v, m.kind ≠ .wake v) → x.slots.getLsbD m.slot.toNat = false → happens .remoteMessageArrival (.remoteMessageArrival m) s (fun t =>
        statusComes s t m 5 0 ∧ t.cores = s.cores ∧ t.mem = s.mem)) ∧
      (s.clusterValid (k / 8) = true → (∀ v, m.kind ≠ .wake v) → x.slots.getLsbD m.slot.toNat = true → x.msgQ.length < 32 →
        happens .remoteMessageArrival (.remoteMessageArrival m) s (fun t => (t.core k).msgQ = x.msgQ ++ [m] ∧ dueNow t (.messageTake k) ∧ t.mem = s.mem
          ∧ (∀ a b c d e, m.kind = .active a b c d e → statusComes s t m 0 0))) ∧
      (s.clusterValid (k / 8) = true → (∀ v, m.kind ≠ .wake v) → x.slots.getLsbD m.slot.toNat = true → 32 ≤ x.msgQ.length →
        happens .remoteMessageArrival (.remoteMessageArrival m) s (fun t => (t.core k).msgWait = x.msgWait ++ [m] ∧ (t.core k).msgQ = x.msgQ ∧ t.mem = s.mem)))) ∧
  (∀ (s : State) (k : CoreId) (m : Msg) (rest : List Msg), let c := 16 * k + 15
    (s.ctx c).st = .waiting → (s.ctx c).why = .event → (s.ctx c).msg = none → s.beingStopped c = false → (s.core k).msgQ = m :: rest → (s.core k).msgWait = [] →
    happens .messageTake (.messageTake k) s (fun t => (t.core k).msgQ = rest ∧ t.mem = s.mem ∧
      (∀ pc a b d e, m.kind = .active pc a b d e → (t.ctx c).msg = some m ∧ dueNow t (.rmsgRun k m)) ∧
      (∀ fn va v w, m.kind = .atomic fn va v w → (t.ctx c).msg = some m ∧ ∃ x ∈ t.agenda, s.cycle < x.due ∧ x.due ≤ s.cycle + 16 ∧ x.act = .ev (.ramoPerform k m)) ∧
      (∀ va bs, m.kind = .write va bs → (t.ctx c).msg = some m ∧ ∃ x ∈ t.agenda, s.cycle < x.due ∧ x.due ≤ s.cycle + 16 ∧ x.act = .ev (.rwrPerform k m)))) ∧
  (∀ (s : State) (k : CoreId) (m : Msg) (va : W64) (bs : List Byte), performs s k m → m.kind = .write va bs → (s.ctx (16 * k + 15)).load = none →
    (∀ cls, s.translateNow m.slot false va .w = .error cls → happens .rwrPerform (.rwrPerform k m) s (fun t => statusComes s t m 2 0 ∧ messageEnded t k ∧ t.mem = s.mem)) ∧
    (∀ pa e, s.translateNow m.slot false va .w = .ok (pa, e) → e.d = true → s.dirtyReady m.slot va = true → (s.region pa).outside = false → s.refusedByte pa bs.length ≠ none →
      happens .rwrPerform (.rwrPerform k m) s (fun t => statusComes s t m 1 0 ∧ messageEnded t k ∧ t.mem = s.mem)) ∧
    (∀ pa e, s.translateNow m.slot false va .w = .ok (pa, e) → e.d = true → s.dirtyReady m.slot va = true → plainScratch s pa bs.length →
      happens .rwrPerform (.rwrPerform k m) s (fun t => statusComes s t m 0 0 ∧ messageEnded t k ∧ t.mem = Memory.write s.mem pa bs))) ∧
  (∀ (s : State) (k : CoreId) (m : Msg) (h : BitVec 32) (row off : Nat) (valid : Bool) (bs : List Byte), m.kind = .bolt h row off valid bs →
    (performs s k m → happens .rwrPerform (.rwrPerform k m) s (fun t => dueIn t 5 (.rwrBoltWrite m) ∧ t.mem = s.mem)) ∧
    (k = m.core % 4096 → (∀ cl e b, s.handle (k / 2048) h ≠ .cur cl e b) → happens .rwrBoltWrite (.rwrBoltWrite m) s (fun t => statusComes s t m 1 0 ∧ messageEnded t k ∧ t.mem = s.mem)) ∧
    (∀ cl e b, k = m.core % 4096 → s.handle (k / 2048) h = .cur cl e b → b.isOpen = true → b.out = false → row * b.stride + off + bs.length ≤ b.rows * b.stride →
      plainScratch s (windowBase cl + 4096 * b.page + (row * b.stride + off)) bs.length → happens .rwrBoltWrite (.rwrBoltWrite m) s (fun t =>
        statusComes s t m 0 0 ∧ messageEnded t k ∧ t.mem = Memory.write s.mem (windowBase cl + 4096 * b.page + (row * b.stride + off)) bs
          ∧ ∀ r, r < 128 → ((t.cluster cl).bolt e).valid.getLsbD r
              = (b.valid.getLsbD r || (valid && decide (row ≤ r ∧ r ≤ (row * b.stride + off + bs.length - 1) / b.stride)))))) ∧
  (∀ (s : State) (k : CoreId) (m : Msg) (fn : BitVec 4) (va v w : W64), performs s k m → m.kind = .atomic fn va v w →
    (∀ cls, s.translateNow m.slot false va .rw = .error cls → happens .ramoPerform (.ramoPerform k m) s (fun t => statusComes s t m 2 0 ∧ messageEnded t k ∧ t.mem = s.mem)) ∧
    (∀ pa e, s.translateNow m.slot false va .rw = .ok (pa, e) → e.d = true → s.dirtyReady m.slot va = true → (s.region pa).outside = false →
      happens .ramoPerform (.ramoPerform k m) s (fun t => t.mem = s.mem ∧ ∃ r, (t.ctx (16 * k + 15)).load = some r ∧ (t.ctx (16 * k + 15)).why = .reply r.id ∧ r.op = .fx fn
        ∧ r.val = v ∧ r.cmp = w ∧ r.pieces = [{ pa := pa, len := if fn = 12 then 4 else 8 }] ∧ r.slot = m.slot ∧ dueIn t (s.route r).1 (s.route r).2.2))) ∧
  (∀ (s : State) (k : CoreId) (m : Msg) (pc a b c d : W64), m.kind = .active pc a b c d → s.twin (16 * k + 15) = none → happens .rmsgRun (.rmsgRun k m) s (fun t =>
    startedAt (t.ctx (16 * k + 15)) pc false m.slot [(1, a), (2, b), (3, c), (4, d), (5, BitVec.ofNat 64 m.src)] ∧ (t.ctx (16 * k + 15)).st = .issuing
      ∧ (t.ctx (16 * k + 15)).msg = some m ∧ t.mem = s.mem)) ∧
  (∀ (s : State) (o : SentOp) (code : BitVec 8) (val : W64), s.sent = [o] → o.spawn = none → (s.core (coreOf o.who)).frozen s.cycle = false → o.aq = false → s.twin o.who = none → (∀ x ∈ s.links, x.l.no ≠ o.id) →
    (∀ fn va v w, o.msg.kind = .atomic fn va v w → fn ≠ 12) →
    (o.posted = false → (s.ctx o.who).awaits o.id = true → happens .remoteStatusArrival (.remoteStatusArrival o.who o.id code val none) s (fun t =>
      (t.ctx o.who).last = code ∧ (t.ctx o.who).pfail = (s.ctx o.who).pfail ∧ t.sent = [] ∧ t.mem = s.mem
        ∧ dueNow t (.replyArrival o.who { id := o.id, rd := o.rd, wr := true, val := if o.val then (if code = 0 then val else 0) else code.setWidth 64 }))) ∧
    (∀ q, o.posted = true → (s.ctx o.who).pend = [q] → q.id = o.id → q.pieces = [] → happens .remoteStatusArrival (.remoteStatusArrival o.who o.id code val none) s (fun t =>
      (t.ctx o.who).last = code ∧ (t.ctx o.who).pend = [] ∧ t.sent = [] ∧ t.mem = s.mem
        ∧ (t.ctx o.who).pfail = (if code ≠ 0 ∧ (s.ctx o.who).pfail ≠ -1 then (s.ctx o.who).pfail + 1 else (s.ctx o.who).pfail)))) ∧
  (∀ (s : State) (k : CoreId) (v : W64), happens .wakeArrival (.wakeArrival k v) s (fun t => (t.core k).wkval = v ∧ t.mem = s.mem
    ∧ (t.core k).wkcnt = (if (s.core k).wkcnt = -1 then -1 else (s.core k).wkcnt + 1)
    ∧ ((s.ctx (16 * k)).st = .waiting → (s.ctx (16 * k)).why = .event → (t.ctx (16 * k)).st = .issuing))) ∧
  (∀ (s : State) (p : Nat), p < 18 →
    happens .flitCrcFail (.flitCrcFail p) s (fun t => t = { s with ev := .flitCrcFail p }) ∧
    happens .laneTrainingFail (.laneTrainingFail p) s (fun t => t.mem = s.mem ∧ (∀ q, q < 18 → (t.thatch.lncfg.extractLsb' (2 * q) 2).toNat =
      (let n := (s.thatch.lncfg.extractLsb' (2 * q) 2).toNat; if q = p ∧ n < 2 then n + 1 else n))) ∧
    (∀ o, s.sent = [o] → o.port = some p → o.spawn = none → s.links = [] →
      let r : State := { s with dev := { s.dev with down := s.dev.down ||| (1#18 <<< p) } }
      happens .linkDown (.linkDown p) s (fun t => t.dev.down = r.dev.down ∧ t.mem = s.mem
        ∧ (r.portFor (o.msg.src / 16) o.msg.core o.msg.cls.toNat = none → dueIn t 1 (.remoteStatusArrival (o.msg.src % 65536) o.msg.id 3 0 none))
        ∧ ∀ q, r.portFor (o.msg.src / 16) o.msg.core o.msg.cls.toNat = some q → OutMsg.remote q { o.msg with again := true } ∈ t.out))) ∧
  (∀ (s : State) (v : W64), (s.dev.chip = 0 → happens .syncFlit (.syncFlit v) s (fun t => t.dtimeNow = s.dtimeNow ∧ t.dev.sync = true ∧ t.mem = s.mem
      ∧ t.out = s.out ++ ((List.range 18).filter (fun p => !s.dev.down.getLsbD p && (s.thatch.lncfg.extractLsb' (2 * p) 2) != 3)).map (fun p => OutMsg.sync p s.dtimeNow))) ∧
    (s.dev.chip ≠ 0 → happens .syncFlit (.syncFlit v) s (fun t => t.dtimeNow = v ∧ t.dev.sync = true ∧ t.mem = s.mem))) ∧
  (∀ (s : State) (f : Nat), (s.lendOf f).st = 3 →
    (∀ line, line / 512 = f → (s.lendOf f).left.filter (· ≠ line) ≠ [] → happens .recallAck (.recallAck line none) s (fun t =>
      (t.lendOf f).left = (s.lendOf f).left.filter (· ≠ line) ∧ (t.lendOf f).st = 3 ∧ t.mem = s.mem)) ∧
    (∀ c d, (s.lendOf f).who = some (c, d) → (s.ctx c).token ≠ 0 →
      let back (t : State) (v : W64) := dueIn t 0 (.replyArrival c { id := (s.ctx c).token, rd := d, wr := true, val := v, did := true })
      (∀ line, line / 512 = f → (s.lendOf f).left.filter (· ≠ line) = [] → happens .recallAck (.recallAck line none) s (fun t => (t.lendOf f).st = 0 ∧ back t 0 ∧ t.mem = s.mem)) ∧
      happens .recallLost (.recallLost f) s (fun t => (t.lendOf f).st = 0 ∧ back t 5 ∧ t.mem = s.mem)))

/-! FREC and the Loom (chapters 9, 10, 19 and 20). -/

namespace Sys2Proof.Stated

/-- FREC's rows. -/
def frecForms (d a b : BitVec 4) : List Instr :=
  [.frecResume d a b, .frecSkip d a b, .frecGoto d a b, .frecSave d a b, .frecLoad d a b, .frecLresume d a b, .frecLdrop d a b, .frecLend d a b
  , .frecLring d a b, .frecGpre d a b, .frecGrest d a b]
/-- Those of a cluster's steward alone. -/
def frecClusterForms (d a b : BitVec 4) : List Instr :=
  [.frecLresume d a b, .frecLdrop d a b, .frecLend d a b, .frecLring d a b, .frecGpre d a b, .frecGrest d a b]

/-- A context goes on at an address at its saved level, and the steward has answered 0 (R408). -/
def goesOn (s t : State) (c : CtxId) (pc : W64) (d : BitVec 4) : Prop :=
  (t.ctx c).st = .issuing ∧ (t.ctx c).pc = pc &&& ~~~3#64 ∧ (t.ctx c).priv = (s.ctx c).epriv ∧ (t.ctx c).g = (s.ctx c).g ∧ t.rd d = 0 ∧ t.me.pc = s.me.pc + 4 ∧ t.mem = s.mem

/-- The state that a context record's code names (R416). -/
def recordedState (code : Nat) : CtxState :=
  match code with
  | 0 => .stopped
  | 1 => .held
  | 3 => .waiting
  | 4 => .parked
  | 5 => .dispatchWait
  | 6 => .ended
  | 7 => .trapped
  | _ => .issuing

end Sys2Proof.Stated

/-- R408, R411, R413, R416: FREC outside context 0 takes the privilege trap; RESUME, SKIP and GOTO take the oldest record and its context
goes on; SAVE leaves its context Stopped and LOAD starts one from a record; LRESUME, LDROP, LEND and LRING act on the cluster's Loom, GPRE
and GREST on its gangs. -/
def Obligations.FrecCommands : Prop :=
  ∀ (s : State) (d a b : BitVec 4), s.me.pp = false →
    let k := coreOf s.cur
    let cl := clusterOf s.cur
    let x := s.loom cl
    (∀ i ∈ frecForms d a b, s.stage = 0 → s.cur % 16 ≠ 0 → exec i s = .next (exactTrap s 0x03 0 ((wordOfInstr i).setWidth 64))) ∧
    (∀ i ∈ frecClusterForms d a b, s.cur % 16 = 0 → s.cur % 128 ≠ 0 → exec i s = .next (s.put d (failed 2))) ∧
    (s.cur % 16 = 0 → s.stage = 0 →
      ((s.rd a).toNat % 16 ≠ 0 → exec (.frecResume d a b) s = .next (s.put d (failed 15))) ∧
      ((s.core k).trapQ = [] → ((s.rd a).toNat % 16 = 0 → exec (.frecResume d a b) s = .next (s.put d (failed 1))) ∧ exec (.frecSkip d a b) s = .next (s.put d (failed 1))
        ∧ exec (.frecGoto d a b) s = .next (s.put d (failed 1))) ∧
      (∀ n rest, (s.core k).trapQ = n :: rest → n ≠ 0 → n < 16 → s.twin (s.cur + n) = none → s.heldBack (s.cur + n) = false →
        ((s.rd a).toNat % 16 = 0 → ∃ t, exec (.frecResume d a b) s = .next t ∧ goesOn s t (s.cur + n) (s.ctx (s.cur + n)).tepc d ∧ (t.core k).trapQ = rest) ∧
        (∃ t, exec (.frecSkip d a b) s = .next t ∧ goesOn s t (s.cur + n) ((s.ctx (s.cur + n)).tia + 4) d ∧ (t.core k).trapQ = rest) ∧
        ((s.rd b).toNat % 4 ≠ 0 → exec (.frecGoto d a b) s = .next (s.put d (failed 3))) ∧
        ((s.rd b).toNat % 4 = 0 → ∃ t, exec (.frecGoto d a b) s = .next t ∧ goesOn s t (s.cur + n) (s.rd b) d ∧ (t.core k).trapQ = rest)) ∧
      (let n := (s.rd a).toNat / 16 % 16
       let c := s.cur + n
       (∀ i ∈ [Instr.frecSave d a b, .frecLoad d a b], (s.rd b).toNat % 512 ≠ 0 → exec i s = .next (exactTrap s 0x05 0 (s.rd b))) ∧
       ((s.rd b).toNat % 512 = 0 → n = 0 ∨ (s.ctx c).gang ≠ none ∨ s.oddTwin c = true → exec (.frecSave d a b) s = .next (s.put d (failed 5))) ∧
       ((s.rd b).toNat % 512 = 0 → (s.ctx c).st ≠ .stopped ∨ s.oddTwin c = true → exec (.frecLoad d a b) s = .next (s.put d (failed 5))) ∧
       (∀ pa e, (s.rd b).toNat % 512 = 0 → n ≠ 0 → (s.ctx c).gang = none → s.twin c = none → s.look s.cur (s.rd b) .w = .hit pa e → s.refusedByte pa 512 = none →
         s.mustHold s.cur { op := .store, va := s.rd b, size := 512, cls := 0 } (splitLines pa 512) = false → (s.ctx c).st = .trapped ∨ (s.ctx c).st = .ended →
         (s.ctx c).pend = [] → (s.ctx c).msg = none → (s.ctx c).csrTo = none → (s.ctx c).why = .none → s.unitCan pa 512 = true → (splitLines pa 512).headD {} = { pa := pa, len := 128 } → ∃ t, exec (.frecSave d a b) s = .next t
         ∧ (t.ctx c).st = .stopped ∧ t.rd d = 0 ∧ t.me.pc = s.me.pc + 4))) ∧
    (∀ q p, s.cur % 16 = 0 → s.stage = 1 → (∃ id, s.me.why = .reply id) → s.me.load = some q → q.pieces = [p] → s.cohReady p.pa p.len = true → s.lentAway p.pa = false →
      let c := s.cur + (s.rd a).toNat / 16 % 16
      let bs := s.cohRead p.pa p.len
      let code := (word8 bs 18).toNat % 16
      c ≠ s.cur → s.twin c = none → (s.ctx c).st = .stopped → ∃ t, exec (.frecLoad d a b) s = .next t ∧ t.rd d = 0 ∧ t.me.pc = s.me.pc + 4 ∧ t.mem = s.mem
        ∧ (t.ctx c).st = (if (s.rd a).getLsbD 8 then .held else recordedState code) ∧ (t.ctx c).pc = word8 bs 1 &&& ~~~3#64
        ∧ (t.ctx c).lgn = (word8 bs 0).extractLsb' 0 28 ∧ (t.ctx c).slot = (word8 bs 0).extractLsb' 28 4 ∧ (t.ctx c).tepc = word8 bs 19 ∧ (t.ctx c).tia = word8 bs 20
        ∧ (t.ctx c).tval = word8 bs 21) ∧
    (s.cur % 128 = 0 →
      exec (.frecLring d a b) s = .next (s.put d (Tab.get 0 x.ring ((s.rd b).toNat % 64))) ∧
      (x.st ≠ .trapped → (∀ i ∈ [Instr.frecLresume d a b, .frecLdrop d a b, .frecLend d a b], exec i s = .next (s.put d (failed 1)))) ∧
      (x.st = .trapped → x.k.lfCause ≠ 0x10 → x.k.lfCause ≠ 0x11 →
        (∃ t, exec (.frecLresume d a b) s = .next t ∧ (t.loom cl).st = .running ∧ (t.lk cl).redo = x.k.replay ++ x.k.redo ∧ (t.lk cl).replay = [] ∧ (t.lk cl).lfValid = false
          ∧ t.rd d = 0 ∧ t.me.pc = s.me.pc + 4 ∧ t.mem = s.mem) ∧
        (∃ t, exec (.frecLdrop d a b) s = .next t ∧ (t.loom cl).st = .running ∧ (t.lk cl).redo = x.k.replay.map (fun r => { r with perf := 0xF }) ++ x.k.redo ∧ (t.lk cl).replay = []
          ∧ (t.lk cl).lfValid = false ∧ t.rd d = 0 ∧ t.me.pc = s.me.pc + 4 ∧ t.mem = s.mem)) ∧
      (x.st = .trapped → ∃ t, exec (.frecLend d a b) s = .next t ∧ (t.loom cl).st = .running ∧ (t.lk cl).halting = true ∧ (t.lk cl).replay = [] ∧ (t.lk cl).redo = []
        ∧ (t.lk cl).lfValid = false ∧ t.rd d = 0 ∧ t.me.pc = s.me.pc + 4 ∧ t.mem = s.mem) ∧
      ((∀ c, clusterOf c = cl → ∀ y, (c, y) ∈ s.ctxs → y.gang = none) → x.gang = none → exec (.frecGpre d a b) s = .next (s.put d (failed 4))) ∧
      (∀ g, s.ctxs.all (fun e => clusterOf e.1 != cl || e.2.gang == none || e.2.gang == some g) = true → x.gang = some g → Tab.find s.dev.gangs g ≠ none → (s.gang g).pre = 0 →
        (s.gang g).rick = false → ∃ t, exec (.frecGpre d a b) s = .next t ∧ (t.cluster cl).gpre = [g] ∧ (t.gang g).pre = 1 ∧ (t.gang g).reached = [] ∧ t.rd d = 0
          ∧ t.me.pc = s.me.pc + 4 ∧ t.mem = s.mem ∧ ∀ y ∈ (s.gang g).cls, dueIn t (20 + 2 * s.dist cl y + (if cl / 256 = y / 256 then 0 else 60)) (.preemptRequestArrival g y none)) ∧
      ((s.cluster cl).gpre = [] → exec (.frecGrest d a b) s = .next (s.put d (failed 4))) ∧
      (∀ g, (s.cluster cl).gpre = [g] → Tab.find s.dev.gangs g ≠ none → (s.gang g).pre = 1 → (∀ y ∈ (s.gang g).cls, y ∈ (s.gang g).savedCl) → (s.gang g).restoring = false →
        ∃ t, exec (.frecGrest d a b) s = .next t ∧ (t.gang g).restoring = true ∧ dueIn t 1 (.clusterRestore g) ∧ t.rd d = 0 ∧ t.me.pc = s.me.pc + 4 ∧ t.mem = s.mem))

namespace Sys2Proof.Stated

/-- The predicate of a slot instruction reads true (R204). -/
def predOn (k : LoomCore) (p : Pred) : Prop := p.pe = false ∨ k.sp.getD p.pi.toNat false ≠ p.pn
/-- The lanes that a V instruction's mask leaves active (R204). -/
def laneActive (k : LoomCore) (p : Pred) (i : Nat) : Bool := if p.pe then (k.vm.getD p.pi.toNat 0).getLsbD i != p.pn else true

/-- The Loom with a result put in flight that lands L − 1 Loom times later, unless XCPY of its bundle suppresses it (R205 to R207). -/
def inFlight (k : LoomCore) (slot lat : Nat) (r : LResult) : LoomCore :=
  if slot < 3 ∧ r.reg ≠ none ∧ r.reg = k.supp then k
  else { k with flight := k.flight ++
    [{ at_ := k.time - 1 + lat - 1, disp := k.time - 1, slot := slot, res := r, pend := k.dbgp && r.reg.isSome }] }

/-- The running Loom has become another, and nothing else differs. -/
def loomBecomes (s t : State) (k : LoomCore) : Prop :=
  t.loom s.cur = { s.loom s.cur with k := k } ∧ (∀ l, l ≠ s.cur → t.loom l = s.loom l) ∧ { t with looms := [] } = { s with looms := [] }

/-- The comparisons of SCMP and VMASK (R235, R252). -/
def intTest (cc : BitVec 3) (a b : W32) : Bool :=
  match cc.toNat with
  | 0 => a == b
  | 1 => a != b
  | 2 => a.toInt < b.toInt
  | 3 => b.toInt ≤ a.toInt
  | 4 => a.toNat < b.toNat
  | _ => b.toNat ≤ a.toNat

/-- Predicate, latency and result of the S instructions that write one (R234 to R237, R242). -/
def scalarResult (s : State) (i : Instr) : Option (Pred × Nat × LResult) :=
  let k := (s.loom s.cur).k
  let r (n : BitVec 5) : W32 := k.s.getD n.toNat 0
  match i with
  | .sadd p d a b => some (p, 1, .s d.toNat (r a + r b))
  | .ssub p d a b => some (p, 1, .s d.toNat (r a - r b))
  | .sand p d a b => some (p, 1, .s d.toNat (r a &&& r b))
  | .sor p d a b => some (p, 1, .s d.toNat (r a ||| r b))
  | .ssll p d a b => some (p, 1, .s d.toNat (r a <<< ((r b).toNat % 32)))
  | .ssrl p d a b => some (p, 1, .s d.toNat (r a >>> ((r b).toNat % 32)))
  | .smul p d a b => some (p, 3, .s d.toNat (r a * r b))
  | .scmp p n cc a b => some (p, 1, .sp n.toNat (intTest cc (r a) (r b)))
  | .saddi p d a imm => some (p, 1, .s d.toNat (r a + imm.signExtend 32))
  | .smovi p d imm => some (p, 1, .s d.toNat (imm.signExtend 32))
  | .srsr p d b => some (p, 1, .s d.toNat (if b = 0 then ((s.loom s.cur).lsr s.cycle).extractLsb' 0 32 else (((s.loom s.cur).lsr s.cycle).extractLsb' 32 8).setWidth 32))
  | _ => none

/-- The predicates of the slot instructions that do nothing when theirs reads false (R204). -/
def predicated : Instr → Option Pred
  | .sadd p .. => some p | .ssub p .. => some p | .sand p .. => some p | .sor p .. => some p | .ssll p .. => some p | .ssrl p .. => some p
  | .smul p .. => some p | .scmp p .. => some p | .saddi p .. => some p | .smovi p .. => some p | .sbr p .. => some p | .sloop p .. => some p
  | .snext p .. => some p | .srel p .. => some p | .sckpt p => some p | .srsr p .. => some p | .shalt p => some p
  | .mpush p .. => some p | .mzpush p .. => some p | .mdrain p .. => some p | .mset p .. => some p | .madd p .. => some p
  | .xrq p .. => some p | .xwr p .. => some p | .xbrd p .. => some p | .xbwr p .. => some p | .xbld p .. => some p | .xcpy p .. => some p | .xset p .. => some p
  | _ => none

end Sys2Proof.Stated

/-- R204, R206, R229, R234 to R243: an S, M or X instruction whose predicate reads false does nothing; the results of the S instructions;
SBR and SLOOP, SNEXT and SREL, SCKPT, SHALT and the no-operations. -/
def Obligations.LoomScalarSlots : Prop :=
  ∀ (s : State), let l := s.cur
    let x := s.loom l
    let k := x.k
    (∀ i p, predicated i = some p → ¬ predOn k p → exec i s = .next s) ∧
    (∀ p, ∀ i ∈ [Instr.snop p, .vnop p, .mbub p, .xnop p], exec i s = .next s) ∧
    (∀ i p lat r, scalarResult s i = some (p, lat, r) → predOn k p → ∃ t, exec i s = .next t ∧ loomBecomes s t (inFlight k 0 lat r)) ∧
    (∀ p c, predOn k p → ∃ t, exec (.sbr p c) s = .next t ∧ loomBecomes s t { k with xfer := some (c ++ 0#4) }) ∧
    (∀ p d c, predOn k p → let n := k.s.getD d.toNat 0 - 1
      ∃ t, exec (.sloop p d c) s = .next t ∧ loomBecomes s t (inFlight (if n = 0 then k else { k with xfer := some (c ++ 0#4) }) 0 1 (.s d.toNat n))) ∧
    (∀ p, predOn k p → ∃ t, exec (.shalt p) s = .next t ∧ t.loom l = { x with k := { k with halting := true } } ∧ (∀ m, m ≠ l → t.loom m = s.loom m)
      ∧ dueIn t 0 (.boltPost l) ∧ t.mem = s.mem) ∧
    (∀ p, predOn k p → x.ck.armed = true → ∃ t, exec (.sckpt p) s = .next t ∧ t.loom l = { x with ck := { x.ck with ask := if x.ck.ask = 2 then 2 else 3 } } ∧ dueIn t 0 (.boltPost l) ∧ t.mem = s.mem) ∧
    (∀ p, predOn k p → x.ck.armed = false → exec (.sckpt p) s = .next s) ∧
    (∀ p d h at_ rest cl e b, predOn k p → k.boltQ = (h, at_) :: rest → x.ck.armed = false → s.handle (l / 256) h = .cur cl e b → ∃ t, exec (.snext p d) s = .next t
      ∧ t.lk l = inFlight { k with boltQ := rest, held := k.held ++ [{ h := h, out := b.out }] } 0 1 (.s d.toNat h)
      ∧ (t.cluster cl).bolt e = { b with popped := true, st := if b.out then b.st else .held } ∧ dueNow t (.boltPost l) ∧ t.mem = s.mem) ∧
    (∀ p a y, predOn k p → k.held.find? (fun y => y.h == k.s.getD a.toNat 0 && !y.srel) = some y →
      (y.out = false → ∃ t, exec (.srel p a) s = .next t
        ∧ loomBecomes s t { k with held := k.held.map (fun z => if z.h == k.s.getD a.toNat 0 then { z with srel := true } else z) }) ∧
      (∀ cl e b, y.out = true → s.handle (l / 256) (k.s.getD a.toNat 0) = .cur cl e b → b.isOpen = true → b.out = true → x.ck.armed = false → ∃ t, exec (.srel p a) s = .next t
        ∧ ((t.cluster cl).bolt e).st = .done ∧ ((t.cluster cl).bolt e).cause = 3 ∧ (∀ z ∈ (t.lk l).held, z.h ≠ k.s.getD a.toNat 0)))

namespace Sys2Proof.Stated

/-- A float operation's code and conditions as a lane. -/
def asLane (r : Nat × Conds) : W32 × Conds := (BitVec.ofNat 32 r.1, r.2)

/-- The values of the lanes and the condition sets counted, of a lane-by-lane operation (R66, R204). -/
def byLane (f : Nat → W32 × Conds) (active : Nat → Bool) : (Nat → W32) × List Conds :=
  (fun i => (f i).1, ((List.range 128).filter active).map (fun i => (f i).2))

/-- A V instruction: predicate, destination, sources, forward, latency, whether it takes the prefix, and what it computes of its sources
and active lanes (R244 to R251). -/
def vectorForm (s : State) (i : Instr) : Option (Pred × BitVec 5 × List (BitVec 5) × Bool × Nat × Bool × (List Vec → (Nat → Bool) → (Nat → W32) × List Conds)) :=
  let k := (s.loom s.cur).k
  let pay (f : Nat) : BitVec 12 := if k.vpp then k.vpfmt else BitVec.ofNat 12 (256 * f)
  let reg (n : BitVec 8) : Vec := Tab.get Vec.zero k.v n.toNat
  let x (vs : List Vec) (n i : Nat) : W32 := Vec.lane (vs.getD n []) i
  let int p d a b fwd (f : W32 → W32 → W32) := some (p, d, [a, b], fwd, 1, false, fun vs m => byLane (fun i => (f (x vs 0 i) (x vs 1 i), 0)) m)
  let rnd (f : Nat) (e : BitVec 8) (i : Nat) : Rnd := plRnd (pay f) ((Vec.lane (reg e) i).toNat % 65536)
  let fp p d a b fwd e lat (f : Rnd → Nat → Nat → Nat × Conds) :=
    some (p, d, [a, b], fwd, lat, true, fun vs m => byLane (fun i => asLane (f (rnd 0 e i) (x vs 0 i).toNat (x vs 1 i).toNat)) m)
  let scaled := plScale (pay 1) = 1
  match i with
  | .vadd p d a b f => int p d a b f (fun u v => u + v)
  | .vsub p d a b f => int p d a b f (fun u v => u - v)
  | .vand p d a b f => int p d a b f (fun u v => u &&& v)
  | .vor p d a b f => int p d a b f (fun u v => u ||| v)
  | .vxor p d a b f => int p d a b f (fun u v => u ^^^ v)
  | .vsll p d a b f => int p d a b f (fun u v => u <<< (v.toNat % 32))
  | .vsra p d a b f => int p d a b f (fun u v => u.sshiftRight (v.toNat % 32))
  | .vfadd p d a b f e => fp p d a b f e 3 fadd
  | .vfmul p d a b f e => fp p d a b f e 3 fmul
  | .vfmax p d a b f e => fp p d a b f e 2 (fun _ u v => fmaxmin fp32 true u v)
  | .vfmin p d a b f e => fp p d a b f e 2 (fun _ u v => fmaxmin fp32 false u v)
  | .vfma p d a b f e => some (p, d, [a, b], f, 4, true, fun vs m =>
      byLane (fun i => asLane (ffma (plRnd (pay 0) 0) (x vs 0 i).toNat (x vs 1 i).toNat (Vec.lane (reg e) i).toNat)) m)
  | .vnrw p d a b e => some (p, d, if scaled then [a, b] else [a], false, 2, true, fun vs m =>
      byLane (fun i => vnrwLane (pay 1) (rnd 1 e i) (if scaled then some ((x vs 1 i).toNat % 256) else none) (x vs 0 i)) m)
  | .vwid p d a b e => some (p, d, if scaled then [a, b] else [a], false, 2, true, fun vs m =>
      byLane (fun i => vwidLane (pay 1) (rnd 1 e i) (if scaled then some ((x vs 1 i).toNat % 256) else none) (x vs 0 i)) m)
  | .vmov p d a f => some (p, d, [a], f, 1, false, fun vs m => byLane (fun i => (x vs 0 i, 0)) m)
  | .vmrd p d row => some (p, d, [], false, 2, false, fun _ m => byLane (fun j => (Vec.lane (Tab.get Vec.zero k.rank j) row.toNat, 0)) m)
  | .vrsum p d a => some (p, d, [a], false, 4, true, fun vs m =>
      let r := treeFold (rsumNode (pay 0)) 7 ((List.range 128).map (fun i => if m i then some (x vs 0 i).toNat else none))
      (fun _ => BitVec.ofNat 32 (r.1.getD 0), r.2))
  | .vrmax p d a => some (p, d, [a], false, 4, true, fun vs m =>
      let r := treeFold (rmaxNode (pay 0)) 7 ((List.range 128).map (fun i => if m i then some (x vs 0 i).toNat else none))
      (fun _ => BitVec.ofNat 32 (r.1.getD (if plFmt (pay 0) = 6 then 0x80000000 else 0x7FC00000)), r.2))
  | _ => none

/-- A Loom's event counters after the conditions of a list of sets have counted (R66, R70). -/
def counted (c c' : EvcSet) (cs : List Conds) : Prop :=
  c.length = 16 → ∀ n, n < 16 → c'.getD n {} = (c.getD n {}).add ((cs.filter (fun z => z.getLsbD n)).length)

end Sys2Proof.Stated

/-- R204 to R213, R225, R244 to R252: the V instructions: a result in flight with its lane mask, the conditions counted, a prefix taken; the
ports that pop a queue or the west link, the forward push, the store-data push and the late fault of an empty queue; VMASK and VFMT. -/
def Obligations.LoomVectorSlots : Prop :=
  ∀ (s : State), let l := s.cur
    let k := (s.loom l).k
    (∀ i p d srcs fwd lat sens f, vectorForm s i = some (p, d, srcs, fwd, lat, sens, f) → (∀ a ∈ srcs, a.toNat < 28) → fwd = false → d ≠ 31 →
      let r := f (srcs.map (fun a => Tab.get Vec.zero k.v a.toNat)) (laneActive k p)
      ∃ t m c, exec i s = .next t ∧ (∀ n, n < 128 → (m : BitVec 128).getLsbD n = laneActive k p n) ∧ counted k.levc c r.2
        ∧ loomBecomes s t { inFlight k 1 lat (.v d.toNat ((List.range 128).map r.1) m) with levc := c, vpp := if sens then false else k.vpp }) ∧
    (∀ d (q : QRow) rest, d ≠ 31 →
      let lanes (v : Vec) : Vec := (List.range 128).map (Vec.lane v)
      let freed := match q.bolt with
        | some h => if q.last then k.held.map (fun z => if z.h == h then { z with rel := true } else z) else k.held
        | none => k.held
      (k.q0 = q :: rest → ∃ t, exec (.vmov {} d 28 false) s = .next t
        ∧ loomBecomes s t { inFlight k 1 1 (.v d.toNat (lanes q.data) (BitVec.allOnes 128)) with q0 := rest, held := freed }) ∧
      (k.q1 = q :: rest → ∃ t, exec (.vmov {} d 29 false) s = .next t
        ∧ loomBecomes s t { inFlight k 1 1 (.v d.toNat (lanes q.data) (BitVec.allOnes 128)) with q1 := rest, held := freed })) ∧
    (∀ d v n rest, d ≠ 31 → k.west = (n, v) :: rest → s.linkOn l false = true → ∃ t, exec (.vmov {} d 30 false) s = .next t
      ∧ loomBecomes s t { inFlight k 1 1 (.v d.toNat ((List.range 128).map (Vec.lane v)) (BitVec.allOnes 128)) with west := rest, westPop := s.cycle }) ∧
    (∀ d a m, d ≠ 31 → (a : BitVec 5).toNat < 28 → s.linkOn l true = true → s.loomBeside l true = some m → m ≠ l → k.noEast = false → ∃ t, exec (.vmov {} d a true) s = .next t
      ∧ (t.lk m).west = (s.lk m).west ++ [(s.cycle, Tab.get Vec.zero k.v a.toNat)] ∧ t.mem = s.mem) ∧
    (∀ p a, (a : BitVec 5).toNat < 28 → k.sqFullNow = false → ∃ t z, exec (.vmov p 31 a false) s = .next t ∧ loomBecomes s t { k with flight := k.flight ++ [z] }
      ∧ z.at_ = k.time - 1 ∧ z.slot = 1 ∧ z.res = .sq ((List.range 128).map (fun i => if laneActive k p i then Vec.lane (Tab.get Vec.zero k.v a.toNat) i else 0))) ∧
    (∀ p d, k.q0 = [] → k.replay = [] → k.freezeIn = none → ∃ t, exec (.vmov p d 28 false) s = .next t ∧ loomBecomes s t { k with
      replay := [{ seq := BitVec.ofNat 16 (k.time - 1), addr := k.addr, perf := 0xD, slot := 1, cause := 0x08 }], freezeIn := some 2 }) ∧
    (∀ p n cc a b, (a : BitVec 5).toNat < 28 → (b : BitVec 5).toNat < 28 → (cc : BitVec 3).toNat < 6 →
      let u := Tab.get Vec.zero k.v a.toNat
      let v := Tab.get Vec.zero k.v b.toNat
      ∃ t bits m c, exec (.vmask p n cc a b) s = .next t ∧ loomBecomes s t { inFlight k 1 1 (.vm n.toNat bits m) with levc := c } ∧ (cc.toNat < 4 → c = k.levc)
        ∧ ∀ i, i < 128 → m.getLsbD i = laneActive k p i ∧ bits.getLsbD i = (if cc = 4 then (flt (Vec.lane u i).toNat (Vec.lane v i).toNat).1
            else if cc = 5 then (fle (Vec.lane u i).toNat (Vec.lane v i).toNat).1 else intTest cc (Vec.lane u i) (Vec.lane v i))) ∧
    (∀ p, ∃ t, exec (.vfmt p) s = .next t ∧ loomBecomes s t { k with vpp := true, vpfmt := p })

/-- R205 to R211, R214, R225, R253 to R267: the M slot's wavefronts and registers, the X slot's requests, rows, B-store writes and copies. -/
def Obligations.LoomMatrixAndTransferSlots : Prop :=
  ∀ (s : State), let l := s.cur
    let y := s.loom l
    let k := y.k
    let now := k.time - 1
    let mr (n : BitVec 5) : W32 := k.m.getD n.toNat 0
    let xr (n : BitVec 5) : W64 := k.x.getD n.toNat 0
    let pay : BitVec 12 := if k.mpp then k.mpfmt else 0x200
    let inc (b : Bool) (n : BitVec 5) (k : LoomCore) : LoomCore := if b then inFlight k 3 1 (.x n.toNat (xr n + 1)) else k
    (∀ p step a b i kind, (i, kind) ∈ [(Instr.mpush p step a b, WaveKind.acc), (.mzpush p step a b, .zacc)] → predOn k p →
      (a.toNat < 28 →
        let k1 := { k with
          waves := k.waves ++ [{ t0 := now, kind := kind, a := Tab.get Vec.zero k.v a.toNat, row := (mr b).toNat % 2048, fmt := pay }]
          mpp := false
          bf16 := plFmt pay == 1 }
        ∃ t, exec i s = .next t ∧ loomBecomes s t (if step = 0 then k1 else inFlight k1 2 1 (.m b.toNat (mr b + step.setWidth 32)))) ∧
      (a = 28 → k.q0 = [] → k.replay = [] → k.freezeIn = none → ∃ t, exec i s = .next t ∧ loomBecomes s t { k with
        replay := [{ seq := BitVec.ofNat 16 now, addr := k.addr, perf := 0xB, slot := 2, cause := 0x08 }], freezeIn := some 2 }) ∧
      (a = 30 → s.linkOn l false = false → k.replay = [] → k.freezeIn = none → ∃ t, exec i s = .next t ∧ loomBecomes s t { k with
        replay := [{ seq := BitVec.ofNat 16 now, addr := k.addr, perf := 0xB, slot := 1, cause := 0x0A }], freezeIn := some 2 })) ∧
    (∀ p a b, predOn k p → ∃ t, exec (.mdrain p a b) s = .next t
      ∧ loomBecomes s t { k with waves := k.waves ++ [{ t0 := now, kind := .drain, fmt := pay, sa := mr a, sb := mr b }], mpp := false }) ∧
    (∀ p d imm, predOn k p → ∃ t, exec (.mset p d imm) s = .next t ∧ loomBecomes s t (inFlight k 2 1 (.m d.toNat (imm.setWidth 32)))) ∧
    (∀ p d a imm, predOn k p → ∃ t, exec (.madd p d a imm) s = .next t ∧ loomBecomes s t (inFlight k 2 1 (.m d.toNat (mr a + imm.signExtend 32)))) ∧
    (∀ p, ∃ t, exec (.mfmt p) s = .next t ∧ loomBecomes s t { k with mpp := true, mpfmt := p }) ∧
    (∀ p d a imm, predOn k p → ∃ t, exec (.xset p d a imm) s = .next t ∧ loomBecomes s t (inFlight k 3 1 (.x d.toNat (xr a + imm.signExtend 64)))) ∧
    (∀ p f a b, predOn k p → let h : BitVec 32 := (xr a).setWidth 32
      ∃ t, exec (.xrq p f a b) s = .next t ∧ loomBecomes s t (inc (f.getLsbD 2) b { k with
        rows := k.rows ++ [{ at_ := now + 5, q := f.getLsbD 0, bolt := some h, row := (xr b).toNat % 128, last := f.getLsbD 1 }]
        held := if f.getLsbD 1 then k.held.map (fun z => if z.h == h then { z with last := true } else z) else k.held })) ∧
    (∀ p f b, predOn k p → ∃ t, exec (.xbrd p f b) s = .next t
      ∧ loomBecomes s t (inc (f.getLsbD 2) b { k with rows := k.rows ++ [{ at_ := now + 5, q := f.getLsbD 0, row := (xr b).toNat % 2048 }] })) ∧
    (∀ p f b v rest, predOn k p → k.sq = v :: rest → y.ck.rerun = 0 → ∃ t, exec (.xbwr p f b) s = .next t
      ∧ loomBecomes s t (inc (f.getLsbD 1) b { k with sq := rest, bw := k.bw ++ [{ at_ := now + 1, row := (xr b).toNat % 2048, vals := v }] })) ∧
    (∀ p a b, predOn k p → let h : BitVec 32 := (xr a).setWidth 32
      let n := s.rowsOf l h
      ∃ t, exec (.xbld p a b) s = .next t ∧ loomBecomes s t { k with
        bw := k.bw ++ (List.range n).map (fun r => { at_ := now + 5 + r, row := ((xr b).toNat + r) % 2048, bolt := some (h, r, r + 1 == n) })
        held := k.held.map (fun z => if z.h == h then { z with last := true, bld := true } else z) }) ∧
    (∀ p d a (b : BitVec 5) (e : BitVec 8), predOn k p →
      let v : W64 := match b.toNat % 4 with
        | 0 => (k.s.getD a.toNat 0).setWidth 64
        | 1 => (Vec.lane (Tab.get Vec.zero k.v a.toNat) (e.toNat % 128)).setWidth 64
        | 2 => (mr a).setWidth 64
        | _ => xr a
      let r : LResult := match b.toNat / 4 % 4 with
        | 0 => .s d.toNat (v.setWidth 32)
        | 1 => .v d.toNat (if b.toNat % 4 = 1 then Tab.get Vec.zero k.v a.toNat else List.replicate 128 (v.setWidth 32)) (BitVec.allOnes 128)
        | 2 => .m d.toNat (v.setWidth 32)
        | _ => .x d.toNat v
      ∃ t, exec (.xcpy p d a b e) s = .next t ∧ loomBecomes s t { inFlight k 3 2 r with coll := k.coll || k.supp.isSome }) ∧
    (∀ p f a b v rest cl e c, predOn k p → k.sq = v :: rest → s.handle (l / 256) ((xr a).setWidth 32) = .cur cl e c → c.isOpen = true →
      let r := (xr b).toNat % 128
      let w := fmtWidth c.fmt.toNat
      let size := (c.elems * w + 7) / 8
      let at_ := windowBase cl + c.page * 4096 + r * c.stride
      let old := leNat (Memory.read s.mem at_ size)
      let row := packRow w ((List.range c.elems).map (fun j => (toElem c.fmt.toNat (Vec.lane v j)).1))
      (r < c.rows → f.getLsbD 0 = false → ∃ t, exec (.xwr p f a b) s = .next t ∧ (t.lk l).sq = rest ∧ (t.cluster cl).bolt e = { c with valid := c.valid ||| 1#128 <<< r }
        ∧ t.mem = Memory.write s.mem at_ (leBytes size (old / 2 ^ (c.elems * w) * 2 ^ (c.elems * w) + row))
        ∧ (f.getLsbD 1 = false → (t.lk l).flight = k.flight)) ∧
      (r < c.rows → f.getLsbD 0 = true → c.out = true → y.ck.armed = false → ∃ t, exec (.xwr p f a b) s = .next t ∧ (t.lk l).sq = rest ∧ ((t.cluster cl).bolt e).st = .done
        ∧ ((t.cluster cl).bolt e).cause = 3 ∧ ((t.cluster cl).bolt e).valid = c.valid ||| 1#128 <<< r)) ∧
    (∀ p a b v rest, predOn k p → k.sq = v :: rest → (∀ cl e c, s.handle (l / 256) ((xr a).setWidth 32) ≠ .cur cl e c) → ∃ t, exec (.xwr p 0 a b) s = .next t ∧ (t.lk l).sq = rest
      ∧ (t.lk l).levc = k.levc.bump1 6 1 ∧ t.mem = s.mem)

/-- R196, R197, R206, R209 to R211, R213 to R220, R224, R233, R238, R243, R409 to R411: a bundle dispatched, waiting or faulting; what the
end of a Loom time lands, places and writes; the freeze of a late fault; the stop of a weave. -/
def Obligations.LoomEvents : Prop :=
  ∀ (s : State) (l : ClusterId), let x := s.loom l
    let k := x.k
    let now := k.time - 1
    (∀ b addr redo, x.st = .running ∨ x.st = .snext ∨ x.st = .link → s.nextBundle l = (.ok b, addr, redo) → k.freezeIn = none →
      let fine := (redo = true ∨ k.illegalSlot b = none) ∧ k.pendingRead b = none
      let next := ∃ p d, k.live b 0 = some (.snext p d)
      (fine → ¬ next → s.linkWait l b = false → s.exactOf l b = none → x.ck.rerun = 0 → happens .bundleDispatch (.bundleDispatch l) s (fun t =>
        (t.loom l).st = .running ∧ (t.lk l).time = k.time + 1 ∧ (t.lk l).addr = addr ∧ (t.lk l).pc = (if redo = true ∨ k.halting = true then k.pc else k.xfer.getD (k.pc + 16))
          ∧ Tab.get 0 (t.loom l).ring (k.time % 2 ^ 16 % 64) = BitVec.ofNat 64 (redo.toNat * 2 ^ 32 + k.time % 2 ^ 16 * 2 ^ 16 + addr.toNat)
          ∧ (∀ n o, n < 4 → b.at n = some o → { who := l, act := .run o } ∈ t.todo) ∧ t.mem = s.mem)) ∧
      (fine → next → s.exactOf l b ≠ some (0, 0x03) → s.queueReady l = false → happens .bundleDispatch (.bundleDispatch l) s (fun t => t.loom l = { x with st := .snext } ∧ t.mem = s.mem)) ∧
      (fine → ¬ next → s.linkWait l b = true → happens .bundleDispatch (.bundleDispatch l) s (fun t => t.loom l = { x with st := .link } ∧ t.mem = s.mem)) ∧
      (∀ n, redo = false → k.illegalSlot b = some n → happens .bundleDispatch (.bundleDispatch l) s (fun t => (t.loom l).st = .trapped ∧ (t.lk l).lfValid = true ∧ (t.lk l).lfCause = 0x01
        ∧ (t.lk l).lfSlot = BitVec.ofNat 2 n ∧ (t.lk l).lfSeq = BitVec.ofNat 16 k.time ∧ (t.lk l).lfAddr = addr ∧ (t.lk l).lfPerf = 0 ∧ (t.lk l).time = k.time ∧ t.mem = s.mem)) ∧
      (∀ n c, fine → ¬ next → s.linkWait l b = false → s.exactOf l b = some (n, c) → happens .bundleDispatch (.bundleDispatch l) s (fun t => (t.loom l).st = .trapped
        ∧ (t.lk l).lfCause = c ∧ (t.lk l).lfSlot = BitVec.ofNat 2 n ∧ (t.lk l).lfPerf = 0 ∧ (t.lk l).time = k.time ∧ t.mem = s.mem))) ∧
    (∀ f, k.flight = [f] → f.at_ ≤ now → k.held = [] → x.ck.ask = 0 → k.freezeIn = none → k.halting = false → happens .loomResultLands (.loomResultLands l) s (fun t =>
      (t.lk l).flight = [] ∧ t.mem = s.mem ∧
      (∀ d v, f.res = .s d v → (t.lk l).s = k.s.set d v) ∧ (∀ d v, f.res = .m d v → (t.lk l).m = k.m.set d v) ∧ (∀ d v, f.res = .x d v → (t.lk l).x = k.x.set d v) ∧
      (∀ n v, f.res = .sp n v → (t.lk l).sp = k.sp.set n v) ∧ (∀ v, f.res = .sq v → k.sq.length < 16 → (t.lk l).sq = k.sq ++ [v]) ∧
      (∀ d v m, f.res = .v d v m → ∀ i, i < 128 → Vec.lane (Tab.get Vec.zero (t.lk l).v d) i
        = (if m.getLsbD i then Vec.lane v i else Vec.lane (Tab.get Vec.zero k.v d) i)) ∧
      (∀ n v m, f.res = .vm n v m → n < k.vm.length → ∀ i, i < 128 → ((t.lk l).vm.getD n 0).getLsbD i = (if m.getLsbD i then v.getLsbD i else (k.vm.getD n 0).getLsbD i)))) ∧
    (∀ r, k.rows = [r] → happens .queueRowPlaced (.queueRowPlaced l) s (fun t =>
      let v := match r.bolt with
        | some h => s.boltRow l h r.row
        | none => s.bRow l r.row
      if r.at_ ≤ now then (t.lk l).rows = [] ∧ (t.lk l).q0 = k.q0 ++ (if r.q then [] else [{ r with data := v }]) ∧ (t.lk l).q1 = k.q1 ++ (if r.q then [{ r with data := v }] else [])
      else (t.lk l).rows = [r] ∧ (t.lk l).q0 = k.q0 ∧ (t.lk l).q1 = k.q1)) ∧
    (∀ w, k.waves = [w] → plFmt w.fmt ≠ 1 → w.t0 ≤ now → now < w.t0 + 128 →
      let j := now - w.t0
      let col := Tab.get Vec.zero k.acc j
      happens .arrayBeat (.arrayBeat l) s (fun t => t.mem = s.mem ∧
        (w.kind ≠ .drain → ∀ i, i < 128 → Vec.lane (Tab.get Vec.zero (t.lk l).acc j) i
          = BitVec.ofNat 32 (cellBeat w.fmt (if w.kind = .zacc then 0 else (Vec.lane col i).toNat) (Vec.lane w.a i).toNat (s.bEntry l j w.row).toNat).1) ∧
        (w.kind = .drain → (∀ i, i < 128 → Vec.lane (Tab.get Vec.zero (t.lk l).acc j) i = 0) ∧ ∃ c, (t.lk l).drain = k.drain ++ [c] ∧ c.at_ = now + 4 ∧ c.j = j ∧ ∀ i, i < 128 →
          Vec.lane c.vals i = BitVec.ofNat 32 (cellDrain w.fmt ((w.sa.extractLsb' (16 * (i / 64)) 16).toNat) ((w.sb.extractLsb' (16 * (j / 64)) 16).toNat) (Vec.lane col i).toNat).1))) ∧
    (∀ w, k.waves = [w] → plFmt w.fmt = 1 → w.kind ≠ .drain → w.t0 < now → now < w.t0 + 128 →
      let j := now - w.t0 - 1
      let col := Tab.get Vec.zero k.acc j
      happens .arrayBeat (.arrayBeat l) s (fun t => t.mem = s.mem ∧ (t.lk l).waves = [{ w with b := s.bEntry l (now - w.t0) w.row }] ∧
        ∀ i, i < 128 → Vec.lane (Tab.get Vec.zero (t.lk l).acc j) i
          = BitVec.ofNat 32 (cellBeat w.fmt (if w.kind = .zacc then 0 else (Vec.lane col i).toNat) (Vec.lane w.a i).toNat w.b.toNat).1)) ∧
    (∀ c, k.drain = [c] → c.at_ ≤ now → happens .drainColumnWrite (.drainColumnWrite l) s (fun t => (t.lk l).drain = [] ∧ Tab.get Vec.zero (t.lk l).rank c.j = c.vals ∧ t.mem = s.mem)) ∧
    (∀ w, k.bw = [w] → w.at_ ≤ now → w.bolt = none → happens .bstoreWriteLands (.bstoreWriteLands l) s (fun t => (t.lk l).bw = [] ∧ ∀ j, j < 128 → t.bEntry l j w.row = Vec.lane w.vals j)) ∧
    (∀ r rest n, k.replay = r :: rest → k.freezeIn = some n → happens .lateFaultFreeze (.lateFaultFreeze l) s (fun t => (t.loom l).st = .trapped ∧ (t.lk l).lfValid = true
      ∧ (t.lk l).lfSeq = r.seq ∧ (t.lk l).lfAddr = r.addr ∧ (t.lk l).lfPerf = r.perf ∧ (t.lk l).lfSlot = r.slot ∧ (t.lk l).lfCause = r.cause ∧ (t.lk l).freezeIn = none ∧ t.mem = s.mem)) ∧
    (k.halting = true → k.quiet = true → x.ck.armed = false → k.held = [] → x.eng = [] → happens .shaltStop (.shaltStop l) s (fun t => (t.loom l).st = .stopped ∧ (t.loom l).gang = none
      ∧ (t.lk l).halting = false ∧ (t.lk l).q0 = [] ∧ (t.lk l).q1 = [] ∧ (t.lk l).s = k.s ∧ (∀ g, x.gang = some g → dueNow t (.gangRetire g)) ∧ t.mem = s.mem))

/-! Gangs: admission, release, retirement, records and ricks (chapters 8, 20 and 22). -/

namespace Sys2Proof.Stated

/-- The event is on the agenda for a cycle. -/
def dueAt (t : State) (n : Nat) (e : Ev) : Prop := ∃ x ∈ t.agenda, x.due = n ∧ x.act = .ev e

/-- A context that admission can take. -/
def admissible (s : State) (c : CtxId) : Prop :=
  (s.ctx c).st = .stopped ∧ (s.ctx c).gang = none ∧ s.twin c = none

/-- A member as admission leaves it: Held, at user level, with its starting state (R154, R173). -/
def heldMember (x : Ctx) (g : Nat) (slot : BitVec 4) (d : Desc) (i : Nat) : Prop :=
  x.st = .held ∧ x.gang = some g ∧ x.pc = d.entry &&& ~~~3#64 ∧ x.priv = false ∧ x.slot = slot ∧ x.rd 1 = d.arg ∧ x.rd 2 = BitVec.ofNat 64 i

/-- The members and the Loom of a cluster are free for a gang. -/
def sheafFree (s : State) (d : Desc) (cl : ClusterId) : Prop :=
  (∀ i, i < d.gpc → admissible s (grainCtx cl i)) ∧ (d.wv = true → (s.loom cl).st = .stopped ∧ (s.loom cl).gang = none ∧ (s.cluster cl).retired = false)

/-- Nothing of a job slot but its contexts and gangs is in use. -/
def noUnits (s : State) (slot : BitVec 4) : Prop :=
  s.dev.jobs = [] ∧ (∀ u, (s.winnow u).slot ≠ some slot) ∧ s.dev.th0.nodes = [] ∧ s.dev.th1.nodes = []

/-- A launch of this chip that runs. -/
def liveLaunch (s : State) (n : Nat) : Prop :=
  Tab.find s.dev.launches n ≠ none ∧ (s.launch n).owner = true ∧ (s.launch n).ended = false ∧ (s.launch n).written = false

/-- The launch has ended with a cause, and its record is due. -/
def launchEnded (t : State) (n : Nat) (status : BitVec 8) (info : W64) : Prop :=
  (t.launch n).ended = true ∧ (t.launch n).status = status ∧ (t.launch n).info = info ∧ dueNow t (.completionRecordWrite n)

/-- A gang that is on this chip. -/
def onChip (s : State) (g : Nat) : Prop := Tab.find s.dev.gangs g ≠ none

/-- A message leaves for another chip, in the name of a flat core, by the port of its route (R429, R430, R432). -/
def goesByLink (s t : State) (core chip : Nat) (b : LinkBody) : Prop :=
  ∀ p, s.links = [] → s.portFor core (4096 * chip) 0 = some p → ∃ no, OutMsg.link p chip
    { chip := s.dev.chip.toNat, no := no, dom := s.dev.dom, inc := s.dev.inc, want := Tab.get 0 s.dev.incs chip } b ∈ t.out

/-- A message from another chip passes the checks, and asks for no acknowledgement (R429, R432). -/
def goodLink (s : State) (l : Link) : Prop :=
  l.dom = s.dev.dom ∧ Tab.get 0 s.dev.incs l.chip = l.inc ∧ l.want = s.dev.inc ∧ l.no = 0

/-- What comes from another chip with its domain and incarnations. -/
def linkEvents (l : Link) (g n : Nat) (cl : ClusterId) (lnum : BitVec 32) (slot : BitVec 4) (st : BitVec 8) (v : W64) (d : Desc) : List (Instr × Ev) :=
  [(.wakeFloodArrival, .wakeFloodArrival l slot d), (.chipPartReport, .chipPartReport l lnum st v), (.rickReady, .rickReady n g (some l))
  , (.rickGo, .rickGo g v (some l)), (.rickHold, .rickHold g v (some l)), (.preemptRequestArrival, .preemptRequestArrival g cl (some l))
  , (.recallAck, .recallAck n (some l)), (.remoteStatusArrival, .remoteStatusArrival n g st v (some l))]

end Sys2Proof.Stated

/-- R154, R155: admission reserves what is free and keeps it; a sheaf wholly reserved is released at the next multiple of 16; a release
makes every member Issuing in one cycle and starts its weaves; a gang whose members have ended retires and its launch ends. -/
def Sys2Proof.Stated.GangLife : Prop :=
  (∀ (s : State) (slot : BitVec 4) (n : Nat) (cl : ClusterId), let l := s.launch n
    let die := cl / 256
    let g := s.fresh + 1
    let d := l.desc
    die < 2 → d.gpc ≤ 112 → (s.queueOf die slot) = [n] → l.slot = slot → l.gangs = [] → l.todo = [[cl]] → d.kind = 0 → sheafFree s d cl →
    happens .gangAdmission (.gangAdmission die slot) s (fun t => t.queueOf die slot = [] ∧ (∀ i, i < d.gpc → heldMember (t.ctx (grainCtx cl i)) g slot d i)
      ∧ (t.gang g).members = (List.range d.gpc).map (grainCtx cl) ∧ (t.gang g).admitted = true ∧ (t.gang g).released = false ∧ (t.gang g).want = []
      ∧ (t.gang g).launch = n ∧ (t.launch n).gangs = [g] ∧ (t.launch n).todo = [] ∧ dueAt t (s.next16 die s.cycle) (.sheafRelease g)
      ∧ (d.wv = true → (t.loom cl).gang = some g ∧ (t.loom cl).store = (s.cluster cl).image) ∧ t.mem = s.mem)) ∧
  (∀ (s : State) (slot : BitVec 4) (n : Nat) (cl : ClusterId) (g j : Nat), let d := (s.gang g).desc
    let die := cl / 256
    (s.queueOf die slot) = [n] → (s.launch n).gangs = [g] → (s.gang g).want = [cl] → (s.gang g).slot = slot → d.gpc ≤ 112 → j < d.gpc →
    (s.ctx (grainCtx cl j)).st ≠ .stopped → (s.ctx (grainCtx cl j)).gang ≠ some g → s.twin (grainCtx cl j) = none →
    happens .gangAdmission (.gangAdmission die slot) s (fun t => t.queueOf die slot = [n] ∧ (t.gang g).want = [cl] ∧ (t.gang g).admitted = (s.gang g).admitted
      ∧ (t.ctx (grainCtx cl j)) = s.ctx (grainCtx cl j) ∧ t.agenda = s.agenda ∧ t.todo = s.todo ∧ t.mem = s.mem
      ∧ ∀ i, i < d.gpc → admissible s (grainCtx cl i) → heldMember (t.ctx (grainCtx cl i)) g slot d i)) ∧
  (∀ (s : State) (g : Nat) (i : Instr) (e : Ev), (i, e) ∈ [(Instr.sheafRelease, Ev.sheafRelease g), (.stookRelease, .stookRelease g)] → onChip s g →
    (s.gang g).released = false →
    ((s.gang g).pre = 0 → happens i e s (fun t => (t.gang g).released = true ∧ t.mem = s.mem
      ∧ (∀ c ∈ (s.gang g).members, (s.ctx c).st = .held → (s.ctx c).gang = some g → (t.ctx c).st = .issuing ∧ (t.ctx c).readyAt = s.cycle ∧ (t.ctx c).pc = (s.ctx c).pc)
      ∧ ((s.gang g).desc.wv = true → ∀ cl ∈ (s.gang g).cls, (s.loom cl).gang = some g → (t.loom cl).st = .running ∧ (t.loom cl).slot = (s.gang g).slot
        ∧ (t.lk cl).pc = (s.gang g).desc.wentry.setWidth 16 ∧ (t.lk cl).time = 0 ∧ (t.lk cl).boltQ = (s.lk cl).boltQ))) ∧
    ((s.gang g).pre ≠ 0 → happens i e s (fun t => (t.gang g).kept = (s.gang g).kept ++ [e] ∧ (t.gang g).released = false ∧ t.ctxs = s.ctxs ∧ t.looms = s.looms
      ∧ t.mem = s.mem))) ∧
  (∀ (s : State) (g n : Nat), let x := s.gang g
    onChip s g → (s.dev.gangs.map (·.1)).Nodup → x.launch = n → liveLaunch s n → (s.launch n).gangs = [g] → (s.launch n).todo = [] → (s.launch n).chips = [] →
    s.queued n = false → x.released = true → x.pre = 0 → (∀ c ∈ x.members, (s.ctx c).gang = some g → (s.ctx c).st = .ended) →
    (∀ cl ∈ x.cls, (s.loom cl).gang ≠ some g ∧ s.episodes false cl g = [] ∧ s.episodes true cl g = []) →
    happens .gangRetire (.gangRetire g) s (fun t => ¬ onChip t g ∧ (∀ c ∈ x.members, (t.ctx c).gang ≠ some g ∧ (t.ctx c).st = (s.ctx c).st)
      ∧ (t.launch n).gangs = [] ∧ launchEnded t n 0 0 ∧ t.mem = s.mem)) ∧
  (∀ (s : State) (g : Nat), let x := s.gang g
    onChip s g → (∀ cl ∈ x.cls, s.episodes false cl g = [] ∧ s.episodes true cl g = []) →
    (x.released = false ∨ x.pre ≠ 0 ∨ (∃ c ∈ x.members, (s.ctx c).gang = some g ∧ (s.ctx c).st ≠ .ended) ∨ ∃ cl ∈ x.cls, (s.loom cl).gang = some g) →
    happens .gangRetire (.gangRetire g) s (fun t => t = { s with ev := .gangRetire g }))

/-- R157, R172 to R174, R418, R443: what a chip does with a wake flood; the report of a chip's part; a completion record, written at DONE
or told by a wake; the end of a gang for a cause, and of a job slot. -/
def Sys2Proof.Stated.GangRecords : Prop :=
  (∀ (s : State) (l : Link) (g n : Nat) (cl : ClusterId) (lnum : BitVec 32) (slot : BitVec 4) (st : BitVec 8) (v : W64) (d : Desc) (i : Instr) (e : Ev),
    (i, e) ∈ linkEvents l g n cl lnum slot st v d →
    (l.dom ≠ s.dev.dom ∨ Tab.get 0 s.dev.incs l.chip ≠ l.inc → happens i e s (fun t =>
      t = { s with ev := e, dev := { s.dev with incdrop := if s.dev.incdrop = -1 then -1 else s.dev.incdrop + 1 } })) ∧
    (l.dom = s.dev.dom → Tab.get 0 s.dev.incs l.chip = l.inc → l.want ≠ s.dev.inc → happens i e s (fun t => { t with out := s.out } = { s with ev := e }
      ∧ ∀ p, l.no ≠ 0 → s.portFor (4096 * s.dev.chip.toNat) (4096 * l.chip) 0 = some p → t.out = s.out ++ [.link p l.chip
          { chip := s.dev.chip.toNat, dom := s.dev.dom, inc := s.dev.inc, want := Tab.get 0 s.dev.incs l.chip } (.status (65536 * l.chip) l.no 4 0)]))) ∧
  (∀ (s : State) (l : Link) (slot : BitVec 4) (d : Desc), goodLink s l → let n := s.fresh + 1
    let todo := (s.partGangs d).filter (fun l => l.any (fun c => !(s.cluster c).floods.contains d.lnum))
    (∀ st info, s.partFails d = some (st, info) → happens .wakeFloodArrival (.wakeFloodArrival l slot d) s (fun t =>
      goesByLink s t (4096 * s.dev.chip.toNat) l.chip (.report d.lnum st info) ∧ t.dev = s.dev ∧ t.agenda = s.agenda ∧ t.todo = s.todo ∧ t.mem = s.mem)) ∧
    (s.partFails d = none → todo = [] → happens .wakeFloodArrival (.wakeFloodArrival l slot d) s (fun t => t = { s with ev := .wakeFloodArrival l slot d })) ∧
    (s.partFails d = none → todo ≠ [] → happens .wakeFloodArrival (.wakeFloodArrival l slot d) s (fun t => (t.launch n).todo = todo ∧ (t.launch n).desc = d
      ∧ (t.launch n).owner = false ∧ (t.launch n).from_ = l.chip ∧ (t.launch n).slot = slot ∧ (∀ c ∈ todo.flatten, d.lnum ∈ (t.cluster c).floods)
      ∧ (∀ die, die < 2 → (∃ l ∈ todo, ∃ x ∈ l, x / 256 = die) → t.queueOf die slot = s.queueOf die slot ++ [n] ∧ dueIn t 0 (.gangAdmission die slot)) ∧ t.mem = s.mem))) ∧
  (∀ (s : State) (from_ : Link) (lnum : BitVec 32) (st : BitVec 8) (info : W64) (n : Nat) (l : Launch), goodLink s from_ → let chip := from_.chip
    (s.dev.launches.map (·.1)).Nodup → (n, l) ∈ s.dev.launches → l.desc.lnum = lnum → l.ended = false → l.written = false →
    (∀ e ∈ s.dev.launches, e.1 ≠ n → e.2.desc.lnum ≠ lnum ∨ (e.2.owner = true ∧ chip ∉ e.2.chips) ∨ (e.2.owner = false ∧ e.2.from_ ≠ chip)) →
    (l.owner = true → chip ∈ l.chips → happens .chipPartReport (.chipPartReport from_ lnum st info) s (fun t => t.mem = s.mem
      ∧ (t.launch n).chips = l.chips.filter (· != chip)
      ∧ (st ≠ 0 → launchEnded t n st info ∧ (l.desc.kind = 2 → (t.launch n).todo = [] ∧ ∀ g ∈ l.gangs, dueNow t (.gangEnd none g st info)))
      ∧ (st = 0 → l.chips.filter (· != chip) = [] → l.gangs = [] → l.todo = [] → s.queued n = false → launchEnded t n 0 0)
      ∧ (st = 0 → l.chips.filter (· != chip) ≠ [] → (t.launch n).ended = false ∧ t.todo = s.todo))) ∧
    (l.owner = false → l.from_ = chip → happens .chipPartReport (.chipPartReport from_ lnum st info) s (fun t => t.mem = s.mem ∧ launchEnded t n st info
      ∧ (t.launch n).todo = [] ∧ ∀ g ∈ l.gangs, dueNow t (.gangEnd none g st info)))) ∧
  (∀ (s : State) (n : Nat), let l := s.launch n
    let rec_ : W64 := BitVec.ofNat 64 (l.status.toNat * 2 ^ 32 + l.desc.lnum.toNat)
    (s.dev.launches.map (·.1)).Nodup → Tab.find s.dev.launches n ≠ none → l.ended = true → l.written = false →
    let ends (t : State) : Prop := Tab.find t.dev.launches n = none ∨ (t.launch n).written = true
    (s.storesDone l.drain = false → happens .completionRecordWrite (.completionRecordWrite n) s (fun t => dueIn t 1 (.completionRecordWrite n) ∧ t.launch n = l ∧ t.mem = s.mem)) ∧
    (l.owner = true → (∃ c ∈ l.chips, s.chipGone c = false) → happens .completionRecordWrite (.completionRecordWrite n) s (fun t =>
      dueIn t 1 (.completionRecordWrite n) ∧ t.launch n = l ∧ t.mem = s.mem)) ∧
    (l.owner = false → s.storesDone l.drain = true → happens .completionRecordWrite (.completionRecordWrite n) s (fun t =>
      ends t ∧ goesByLink s t (4096 * s.dev.chip.toNat + 2048 * l.die) l.from_ (.report l.desc.lnum l.status l.info) ∧ t.mem = s.mem)) ∧
    (l.owner = true → (∀ c ∈ l.chips, s.chipGone c = true) →
    (∀ pa e, s.storesDone l.drain = true → s.translateNow l.slot false l.desc.done .w = .ok (pa, e) → e.d = true → s.dirtyReady l.slot l.desc.done = true →
      plainScratch s pa 16 → pa % 16 = 0 →
      happens .completionRecordWrite (.completionRecordWrite n) s (fun t => ends t ∧ Memory.read t.mem pa 16 = leBytes 8 rec_.toNat ++ leBytes 8 l.info.toNat
        ∧ ∀ a, a < pa ∨ pa + 16 ≤ a → Memory.byte t.mem a = Memory.byte s.mem a)) ∧
    (∀ k, s.storesDone l.drain = true → s.translateNow l.slot false l.desc.done .w = .error k → happens .completionRecordWrite (.completionRecordWrite n) s (fun t =>
      ends t ∧ dueNow t (.wakeArrival (2048 * l.die) (BitVec.ofNat 64 (l.desc.lnum.toNat * 2 ^ 32 + 0x7E410002))) ∧ t.mem = s.mem)) ∧
    (∀ pa e, s.storesDone l.drain = true → s.translateNow l.slot false l.desc.done .w = .ok (pa, e) → s.refusedByte pa 16 ≠ none →
      happens .completionRecordWrite (.completionRecordWrite n) s (fun t =>
        ends t ∧ dueNow t (.wakeArrival (2048 * l.die) (BitVec.ofNat 64 (l.desc.lnum.toNat * 2 ^ 32 + 0x7E410002))) ∧ t.mem = s.mem)))) ∧
  (∀ (s : State) (g : Nat) (st : BitVec 8) (info : W64), let x := s.gang g
    onChip s g → (s.dev.gangs.map (·.1)).Nodup → liveLaunch s x.launch → noUnits s x.slot →
    (∀ cl, ((s.cluster cl).barc.map (·.1)).Nodup ∧ ((s.cluster cl).barw.map (·.1)).Nodup) →
    happens .gangEnd (.gangEnd none g st info) s (fun t => ¬ onChip t g ∧ (∀ c ∈ x.members, (s.ctx c).gang = some g → (t.ctx c).st = .stopped ∧ (t.ctx c).gang = none)
      ∧ (∀ cl ∈ x.cls, t.episodes false cl g = [] ∧ t.episodes true cl g = [] ∧ ((s.loom cl).gang = some g → (s.loom cl).st ≠ .stopped → (t.lk cl).halting = true))
      ∧ launchEnded t x.launch st info
      ∧ (x.rick = true → ∀ c, x.desc.c0 ≤ c → c ≤ x.desc.c0 + x.desc.nchm1 → c ≠ s.dev.chip.toNat →
        goesByLink s t (4096 * s.dev.chip.toNat + 2048 * (s.launch x.launch).die) c (.report x.desc.lnum st info))
      ∧ t.mem = s.mem)) ∧
  (∀ (s : State) (j : BitVec 4) (info : W64), noUnits s j → s.dev.gangs = [] → (s.dev.launches.map (·.1)).Nodup →
    happens .gangEnd (.gangEnd (some j) 0 7 info) s (fun t =>
      (∀ c, 1 ≤ c % 16 → c % 16 ≤ 14 → s.slotOf c = j → (t.ctx c).st = .stopped) ∧ (∀ die, die < 2 → t.queueOf die j = [])
      ∧ (∀ n, (s.launch n).slot = j → liveLaunch s n → launchEnded t n 7 info) ∧ (s.slState j = 4 → t.slState j = 0) ∧ t.mem = s.mem))

/-- R413, R416, R417: the start of a rick goes on at the leader and at every chip, and a gang's pre-emption reaches a cluster, stops it, saves
it and restores it. -/
def Sys2Proof.Stated.RicksAndPreemptionComplete : Prop :=
  ∀ (s : State) (g : Nat), let x := s.gang g
    onChip s g →
    (∀ chip, x.rick = true → chip ≠ s.dev.chip.toNat → x.released = false → x.desc.c0 = s.dev.chip.toNat →
      (∀ c, x.desc.c0 ≤ c → c ≤ x.desc.c0 + x.desc.nchm1 → c = chip ∨ c ∈ x.ready) → happens .rickReady (.rickReady chip g none) s (fun t => dueNow t (.rickGo g x.start none))) ∧
    (∀ start, x.rick = true → happens .rickGo (.rickGo g start none) s (fun t => (t.gang g).start = start ∧ t.mem = s.mem
      ∧ dueAt t (s.next16 x.die (s.cycle + (start.toNat - s.dtimeNow.toNat))) (.rickRelease g (t.gang g).token))) ∧
    (∀ start, x.rick = true → s.blockers g = [] → happens .rickHold (.rickHold g start none) s (fun t => (t.gang g).start = start ∧ t.ctxs = s.ctxs ∧ t.mem = s.mem)) ∧
    (x.released = false → x.start.toNat - s.dtimeNow.toNat ≤ s.dev.guard.toNat → happens .rickGuardExpiry (.rickGuardExpiry g x.token) s (fun t =>
      dueNow t (.rickHold g (x.start + BitVec.ofNat 64 s.dev.lead.toNat) none) ∧ dueIn t (max 1 s.dev.lead.toNat) (.rickGuardExpiry g x.token))) ∧
    (x.admitted = true → x.released = false → x.pre = 0 → x.start.toNat ≤ s.dtimeNow.toNat → x.desc.wv = false → happens .rickRelease (.rickRelease g x.token) s (fun t =>
      (t.gang g).released = true ∧ t.mem = s.mem)) ∧
    (∀ cl ∈ x.cls, cl ∉ x.reported → cl ∉ x.reached → happens .preemptRequestArrival (.preemptRequestArrival g cl none) s (fun t =>
      (t.gang g).reached = x.reached ++ [cl] ∧ (t.gang g).pre ≠ 0 ∧ dueIn t 0 (.preemptRequestArrival g cl none) ∧ t.ctxs = s.ctxs ∧ t.mem = s.mem)) ∧
    (∀ cl, x.pre ≠ 0 → cl / 256 ∉ x.stoppedOn → x.cls = [cl] → happens .gangStop (.gangStop g (cl / 256)) s (fun t => dueIn t 1 (.clusterSave g cl))) ∧
    (∀ cl, cl / 256 ∈ x.stoppedOn → cl ∉ x.savedCl → s.saveReady g cl = true → happens .clusterSave (.clusterSave g cl) s (fun t => cl ∈ (t.gang g).savedCl)) ∧
    (x.restoring = true → x.pre ≠ 0 → (∀ cl ∈ x.cls, cl ∈ x.savedCl) → s.restoreReady x = true → happens .clusterRestore (.clusterRestore g) s (fun t =>
      (t.gang g).pre = 0 ∧ (t.gang g).restoring = false ∧ (t.gang g).savedCl = []))

/-- R154, R155, R157, R173, R174, R413, R416 to R418, R443: the life of a gang, what is told of its end, its start as a rick, its pre-emption. -/
def Obligations.GangEvents : Prop := GangLife ∧ GangRecords ∧ RicksAndPreemptionComplete

/-- R417: the start of a rick: READY at the leader, GO when the last has come, HOLD with the next start when one is late, the release at the
agreed start. -/
def Obligations.RickStart : Prop :=
  ∀ (s : State) (g : Nat), let x := s.gang g
    let own := s.dev.chip.toNat
    let others := (List.range (x.desc.nchm1 + 1)).filterMap (fun k => if x.desc.c0 + k = own then none else some (x.desc.c0 + k))
    let bef (a : W64) : Nat := a.toNat - s.dtimeNow.toNat
    let sends (t : State) (c : Nat) (b : LinkBody) : Prop := goesByLink s t (4096 * own + 2048 * x.die) c b
    onChip s g → x.rick = true →
    (x.released = false → x.admitted = true → s.dev.sync = true → x.desc.c0 ≠ own → happens .rickReady (.rickReady own g none) s (fun t =>
      sends t x.desc.c0 (.rick x.desc.lnum 0 0) ∧ t.dev = s.dev ∧ t.ctxs = s.ctxs ∧ t.agenda = s.agenda ∧ t.todo = s.todo ∧ t.mem = s.mem)) ∧
    (x.admitted = false → happens .rickReady (.rickReady own g none) s (fun t => t = { s with ev := .rickReady own g none })) ∧
    (∀ chip, chip ≠ own → x.released = false → x.desc.c0 = own → (∃ c, x.desc.c0 ≤ c ∧ c ≤ x.desc.c0 + x.desc.nchm1 ∧ c ≠ chip ∧ c ∉ x.ready) →
      happens .rickReady (.rickReady chip g none) s (fun t => chip ∈ (t.gang g).ready ∧ (∀ c ∈ x.ready, c ∈ (t.gang g).ready) ∧ t.out = s.out ∧ t.todo = s.todo ∧ t.mem = s.mem)) ∧
    (∀ chip, chip ≠ own → x.released = false → x.desc.c0 = own → (∀ c, x.desc.c0 ≤ c → c ≤ x.desc.c0 + x.desc.nchm1 → c = chip ∨ c ∈ x.ready) →
      happens .rickReady (.rickReady chip g none) s (fun t => (∀ c ∈ others, sends t c (.rick x.desc.lnum 1 x.start)) ∧ dueNow t (.rickGo g x.start none) ∧ t.mem = s.mem)) ∧
    (∀ start, happens .rickGo (.rickGo g start none) s (fun t => (t.gang g).start = start ∧ t.mem = s.mem ∧ ∃ k, (t.gang g).token = k
      ∧ dueAt t (s.next16 x.die (s.cycle + bef start)) (.rickRelease g k))) ∧
    (∀ start, s.blockers g = [] → happens .rickHold (.rickHold g start none) s (fun t => (t.gang g).start = start ∧ t.ctxs = s.ctxs ∧ t.looms = s.looms ∧ t.agenda = s.agenda ∧ t.mem = s.mem)) ∧
    (∀ start b, s.blockers g = [b] → b ≠ g → onChip s b → (s.gang b).pre = 0 → (s.gang b).rick = false → happens .rickHold (.rickHold g start none) s (fun t =>
      (t.gang g).start = start ∧ t.ctxs = s.ctxs ∧ (t.gang b).pre = 1 ∧ t.mem = s.mem
      ∧ ∀ y ∈ (s.gang b).cls, b ∈ (t.cluster y).gpre ∧ dueIn t (20 + 2 * s.dist (256 * x.die) y + (if 256 * x.die / 256 = y / 256 then 0 else 60)) (.preemptRequestArrival b y none))) ∧
    (x.released = false → bef x.start ≤ s.dev.guard.toNat → let start := x.start + BitVec.ofNat 64 s.dev.lead.toNat
      happens .rickGuardExpiry (.rickGuardExpiry g x.token) s (fun t => (t.gang g).start = start ∧ (∀ c ∈ others, sends t c (.rick x.desc.lnum 2 start))
        ∧ dueNow t (.rickHold g start none) ∧ dueIn t (max 1 s.dev.lead.toNat) (.rickGuardExpiry g x.token) ∧ t.mem = s.mem)) ∧
    (x.released = false → s.dev.guard.toNat < bef x.start → happens .rickGuardExpiry (.rickGuardExpiry g x.token) s (fun t =>
      dueIn t (bef x.start - s.dev.guard.toNat) (.rickGuardExpiry g x.token) ∧ t.gang g = x ∧ t.out = s.out ∧ t.ctxs = s.ctxs ∧ t.mem = s.mem)) ∧
    (∀ k, k ≠ x.token → happens .rickGuardExpiry (.rickGuardExpiry g k) s (fun t => t = { s with ev := .rickGuardExpiry g k })) ∧
    (x.admitted = true → x.released = false → x.pre = 0 → bef x.start = 0 → happens .rickRelease (.rickRelease g x.token) s (fun t => (t.gang g).released = true ∧ t.mem = s.mem
      ∧ ∀ c ∈ x.members, (s.ctx c).st = .held → (s.ctx c).gang = some g → (t.ctx c).st = .issuing ∧ (t.ctx c).readyAt = s.cycle)) ∧
    (x.admitted = true → bef x.start ≠ 0 → happens .rickRelease (.rickRelease g x.token) s (fun t =>
      dueAt t (s.next16 x.die (s.cycle + bef x.start)) (.rickRelease g x.token) ∧ t.ctxs = s.ctxs ∧ t.looms = s.looms ∧ t.mem = s.mem)) ∧
    (∀ k, k ≠ x.token ∨ x.admitted = false → happens .rickRelease (.rickRelease g k) s (fun t => t = { s with ev := .rickRelease g k }))

/-! Pre-emption, recovery from errors, and the records of contexts (chapters 20 and 21). -/

/-- R413, R416, R447: the request to pre-empt at a cluster, its look at the members, the stop, the save and the restore; SLCTL's three
commands. -/
def Obligations.Preemption : Prop :=
  (∀ (s : State) (g : Nat) (cl : ClusterId), let x := s.gang g
    let i := Instr.preemptRequestArrival
    let e := Ev.preemptRequestArrival g cl none
    onChip s g → cl ∈ x.cls →
    (cl ∉ x.reported → cl ∉ x.reached → happens i e s (fun t => (t.gang g).reached = x.reached ++ [cl] ∧ (t.gang g).pre = (if x.pre = 0 then 1 else x.pre) ∧ dueIn t 0 e
      ∧ t.ctxs = s.ctxs ∧ t.mem = s.mem
      ∧ ∀ c ∈ x.members, clusterOf c = cl → (s.core (coreOf c)).wdPre ≠ 0 →
          dueIn t (1024 * (s.core (coreOf c)).wdPre.toNat) (.watchdogPreExpiry (coreOf c) g (t.gang g).preNo))) ∧
    (cl ∉ x.reported → cl ∈ x.reached → (∃ m ∈ x.members, clusterOf m = cl ∧ ∃ c ∈ s.bothOf m, (s.ctx c).gang = some g ∧ (s.ctx c).st.atBoundary = false) →
      happens i e s (fun t => t.ctxs = s.ctxs ∧ t.dev = s.dev ∧ t.mem = s.mem ∧ dueIn t 1 e)) ∧
    (cl ∉ x.reported → cl ∈ x.reached → (∀ m ∈ x.members, clusterOf m = cl → ∀ c ∈ s.bothOf m, (s.ctx c).gang = some g → (s.ctx c).st.atBoundary = true) →
      happens i e s (fun t => (t.gang g).reported = x.reported ++ [cl] ∧ t.ctxs = s.ctxs ∧ t.mem = s.mem ∧
        if ∀ y ∈ x.cls, y / 256 = cl / 256 → y = cl ∨ y ∈ x.reported then dueIn t (1 + (x.desc.wm1 + 1 + (x.desc.hm1 + 1) + 6)) (.gangStop g (cl / 256))
        else t.agenda = s.agenda)) ∧
    (cl ∈ x.reported → happens i e s (fun t => t = { s with ev := e }))) ∧
  (∀ (s : State) (g die : Nat), let x := s.gang g
    onChip s g → x.pre ≠ 0 → die ∉ x.stoppedOn → (∀ cl ∈ x.cls, (s.loom cl).eng = []) → happens .gangStop (.gangStop g die) s (fun t => (t.gang g).stoppedOn = x.stoppedOn ++ [die] ∧ t.mem = s.mem
      ∧ ∀ cl ∈ x.cls, cl / 256 = die → dueIn t 1 (.clusterSave g cl)
        ∧ ((s.loom cl).gang = some g → (s.loom cl).st ≠ .stopped → (t.loom cl).st = .stopped ∧ (t.loom cl).gang = some g ∧ Tab.find (t.gang g).looms cl = some (s.loom cl))
        ∧ (∀ c ∈ x.members, clusterOf c = cl → (s.ctx c).st = .parked → x.kept = [] → s.performedFor c = false → (t.ctx c).st = .parked ∧ (t.ctx c).why = .none
          ∧ (t.ctx c).pc = (s.ctx c).pc ∧ (t.ctx c).g = (s.ctx c).g))) ∧
  (∀ (s : State) (g : Nat) (cl : ClusterId), let x := s.gang g
    onChip s g → cl / 256 ∈ x.stoppedOn → cl ∉ x.savedCl →
    (s.saveReady g cl = false → happens .clusterSave (.clusterSave g cl) s (fun t => dueIn t 1 (.clusterSave g cl) ∧ t.ctxs = s.ctxs ∧ t.dev = s.dev ∧ t.mem = s.mem)) ∧
    (s.saveReady g cl = true → happens .clusterSave (.clusterSave g cl) s (fun t => (t.gang g).savedCl = x.savedCl ++ [cl]
      ∧ (∀ c ∈ x.members, clusterOf c = cl → (s.ctx c).gang = some g → (t.ctx c).st = .stopped ∧ (t.ctx c).gang = none)
      ∧ ((s.loom cl).gang = some g → (t.loom cl).gang = none)))) ∧
  (∀ (s : State) (g : Nat), let x := s.gang g
    onChip s g → x.restoring = true → x.pre ≠ 0 → (∀ cl ∈ x.cls, cl ∈ x.savedCl) →
    (s.restoreReady x = false → happens .clusterRestore (.clusterRestore g) s (fun t => dueIn t 1 (.clusterRestore g) ∧ t.ctxs = s.ctxs ∧ t.dev = s.dev ∧ t.mem = s.mem)) ∧
    (s.restoreReady x = true → happens .clusterRestore (.clusterRestore g) s (fun t => (t.gang g).pre = 0 ∧ (t.gang g).restoring = false ∧ (t.gang g).savedCl = []
      ∧ (t.gang g).kept = [] ∧ dueNow t (.gangRetire g) ∧ ∀ c r, Ev.replyArrival c r ∈ x.kept → dueNow t (.replyArrival c r)))) ∧
  (∀ (s : State) (j : BitVec 4), s.dev.slctl.length = 16 → (s.dev.gangs.map (·.1)).Nodup →
    (s.answers = true → s.slState j = 0 → happens .slctlPre (.slctlPre j) s (fun t => t.mem = s.mem ∧ (s.dev.gangs = [] → t.slState j = 2)
      ∧ ∀ g, onChip s g → (s.gang g).slot = j → (s.gang g).pre = 0 → (s.gang g).want = [] → (s.gang g).cls ≠ [] → t.slState j = 1 ∧ (t.gang g).pre = 2 ∧ (t.gang g).reached = []
        ∧ ∀ y ∈ (s.gang g).cls, let from_ := 256 * (s.gang g).die
          dueIn t (20 + 2 * s.dist from_ y + (if from_ / 256 = y / 256 then 0 else 60)) (.preemptRequestArrival g y none))) ∧
    (s.answers = true → happens .slctlEnd (.slctlEnd j) s (fun t => t.slState j = 4 ∧ dueNow t (.gangEnd (some j) 0 7 0) ∧ t.ctxs = s.ctxs ∧ t.mem = s.mem)) ∧
    (s.answers = true → s.slState j = 2 → happens .slctlRestore (.slctlRestore j) s (fun t => t.mem = s.mem ∧ (s.dev.gangs = [] → t.slState j = 0)
      ∧ ∀ g, onChip s g → (s.gang g).slot = j → (s.gang g).pre = 2 → (∀ cl ∈ (s.gang g).cls, cl ∈ (s.gang g).savedCl) → t.slState j = 3 ∧ (t.gang g).restoring = true
        ∧ dueIn t 1 (.clusterRestore g))) ∧
    (∀ i e, (i, e) ∈ [(Instr.slctlPre, Ev.slctlPre j), (.slctlEnd, .slctlEnd j), (.slctlRestore, .slctlRestore j)] → s.answers = false →
      happens i e s (fun t => t = { s with ev := e })) ∧
    (s.slState j ≠ 0 → happens .slctlPre (.slctlPre j) s (fun t => t = { s with ev := .slctlPre j })) ∧
    (s.slState j ≠ 2 → happens .slctlRestore (.slctlRestore j) s (fun t => t = { s with ev := .slctlRestore j })))

/-- R160, R416: a context record gives back what it was made from: every register as it reads, dead ones dead, PC, job slot, number, GSR,
TMASK, BTMO, the trap state and the event counters. -/
def Obligations.ContextRecordsGiveBackTheContext : Prop :=
  ∀ (s : State) (c d : CtxId) (code : Nat), code < 16 → let x := s.ctx c
    let y := s.ctxOfRecord d (s.ctxRecord c code)
    (∀ r, y.rd r = x.rd r) ∧ (∀ r, r ≠ 0 → y.dead.getLsbD (r : BitVec 4).toNat = x.dead.getLsbD r.toNat) ∧ y.pc = x.pc &&& ~~~3#64 ∧ y.slot = s.slotOf c ∧ y.lgn = x.lgn
      ∧ y.priv = s.privOf c ∧ y.pp = x.pp ∧ y.pfmt = x.pfmt ∧ y.ocls = x.ocls ∧ y.ferc = x.ferc ∧ (∀ n, 1 ≤ n → n < 16 → y.tmask.getLsbD n = x.tmask.getLsbD n)
      ∧ y.btmo = x.btmo ∧ y.tepc = x.tepc ∧ y.tia = x.tia ∧ y.tval = x.tval ∧ y.tcause = x.tcause ∧ y.tclass = x.tclass ∧ y.epriv = x.epriv
      ∧ (∀ n, n < 16 → y.evc.nth n = x.evc.nth n) ∧ (s.ctxRecord c code).length = 512 ∧ recordCode (s.ctxRecord c code) = code

/-- R415, R420, R421, R423, R451: the watchdogs; the freezes of a core and of a Loom; a data error with and without a rollback point, and
the outcome of a rerun; the compare of twins and its time-out; the device flush. -/
def Obligations.RecoveryEvents : Prop :=
  (∀ (s : State) (c : CtxId) (k : Nat), let x := s.ctx c
    let i := Instr.watchdogWaitExpiry
    let e := Ev.watchdogWaitExpiry c k
    (x.epoch ≠ k ∨ (x.st ≠ .waiting ∧ x.st ≠ .parked ∧ x.st ≠ .dispatchWait) ∨ s.performedFor c = true → happens i e s (fun t => t = { s with ev := e })) ∧
    (x.epoch = k → x.st = .waiting ∨ x.st = .parked ∨ x.st = .dispatchWait → s.performedFor c = false →
      (∀ g, x.gang = some g → s.heldBack c = true → happens i e s (fun t => (t.gang g).kept = (s.gang g).kept ++ [e] ∧ t.ctxs = s.ctxs ∧ t.mem = s.mem)) ∧
      (s.heldBack c = false → x.why ≠ .barrier → s.twin c = none → c % 16 ≠ 0 → stewardAwake s (c / 16) → (s.core (c / 16)).trapIn.1 ≠ s.cycle →
        let at_ := match x.why with | .wrs _ => x.pc - 4 | _ => x.pc
        happens i e s (fun t => (t.ctx c).st = .trapped ∧ (t.ctx c).tcause = 0x0B
        ∧ (t.ctx c).tia = at_ ∧ (t.ctx c).tepc = at_ ∧ (t.ctx c).g = x.g ∧ (t.core (c / 16)).trapQ = (s.core (c / 16)).trapQ ++ [c % 16] ∧ t.mem = s.mem)))) ∧
  (∀ (s : State) (k g n : Nat), let x := s.gang g
    let late (c : CtxId) : Prop := ∃ b ∈ s.bothOf c, (s.ctx b).gang = some g ∧ (s.ctx b).st.atBoundary = false
    let on (c : CtxId) : Prop := ∃ b ∈ s.bothOf c, coreOf b = k
    onChip s g → x.pre ≠ 0 →
    (∀ cl, x.preNo = n → (∃ c ∈ x.members, on c ∧ late c) → (∃ c ∈ x.members, late c ∧ clusterOf c = cl) → (∀ c ∈ x.members, late c → cl ≤ clusterOf c) → cl < 512 →
      happens .watchdogPreExpiry (.watchdogPreExpiry k g n) s (fun t => (∀ c ∈ x.members, late c → ∀ b ∈ s.bothOf c, (t.ctx b).st = .stopped)
        ∧ dueNow t (.gangEnd none g 5 (BitVec.ofNat 64 (4096 * s.dev.chip.toNat + 8 * cl))) ∧ t.mem = s.mem)) ∧
    (x.preNo ≠ n ∨ (∀ c ∈ x.members, on c → ¬ late c) → happens .watchdogPreExpiry (.watchdogPreExpiry k g n) s (fun t => t = { s with ev := .watchdogPreExpiry k g n }))) ∧
  (∀ (s : State) (k : Nat), let x := s.core k
    let y := s.loom k
    let inc (v : BitVec 32) : BitVec 32 := if v = -1 then v else v + 1
    ((s.core (k - k % 2)).twills = [] → happens .correctableErrorCore (.correctableErrorCore k) s (fun t => (t.core k).cecnt = inc x.cecnt ∧ (t.core k).thaw = s.cycle + 65
      ∧ (t.core k).froze = (if s.cycle < x.thaw then x.froze else s.cycle) ∧ dueIn t 65 (.coreFreezeEnd k) ∧ t.ctxs = s.ctxs ∧ t.mem = s.mem)) ∧
    ((s.core (k - k % 2)).twills ≠ [] → happens .correctableErrorCore (.correctableErrorCore k) s (fun t => (t.core k).cecnt = inc x.cecnt ∧ t.ctxs = s.ctxs ∧ t.mem = s.mem
      ∧ ∀ m, m ∈ [k - k % 2, k - k % 2 + 1] → (t.core m).thaw = s.cycle + 65 ∧ dueIn t 65 (.coreFreezeEnd m))) ∧
    (s.cycle < x.thaw → happens .coreFreezeEnd (.coreFreezeEnd k) s (fun t => t = { s with ev := .coreFreezeEnd k })) ∧
    (x.thaw ≤ s.cycle → happens .coreFreezeEnd (.coreFreezeEnd k) s (fun t => t.core k = { x with froze := 0, thaw := 0, heldReplies := [] }
      ∧ (∀ q ∈ x.heldReplies, dueNow t (.replyArrival q.1 q.2)) ∧ t.ctxs = s.ctxs ∧ t.mem = s.mem)) ∧
    (happens .correctableErrorLoom (.correctableErrorLoom k) s (fun t => t.loom k = { y with cecnt := inc y.cecnt, froze := if s.cycle < y.thaw then y.froze else s.cycle, thaw := s.cycle + 65 }
      ∧ dueIn t 65 (.loomFreezeEnd k) ∧ t.mem = s.mem)) ∧
    (s.cycle < y.thaw → happens .loomFreezeEnd (.loomFreezeEnd k) s (fun t => t = { s with ev := .loomFreezeEnd k })) ∧
    (y.thaw ≤ s.cycle → happens .loomFreezeEnd (.loomFreezeEnd k) s (fun t => t.loom k = { y with froze := 0, thaw := 0 } ∧ t.mem = s.mem))) ∧
  (∀ (s : State) (l : ClusterId), let x := s.loom l
    let back (t : State) (p : LoomCore) : Prop := (t.loom l).st = .running ∧ t.lk l = { p with boltQ := x.ck.pops ++ x.k.boltQ, west := x.k.west, westPop := x.k.westPop }
      ∧ (t.loom l).ck.pops = [] ∧ (t.loom l).ck.releases = [] ∧ (t.loom l).ck.posts = [] ∧ t.mem = s.mem
    (x.st = .stopped ∨ x.st = .trapped ∨ x.st = .frozen → happens .dataError (.dataError l) s (fun t => t = { s with ev := .dataError l })) ∧
    (x.st ≠ .stopped → x.st ≠ .trapped → x.st ≠ .frozen →
      (x.ck.rerun ≠ 0 → happens .dataError (.dataError l) s (fun t => t.loom l = { x with ck := { x.ck with bad := true } } ∧ t.mem = s.mem)) ∧
      (x.ck.rerun = 0 → happens .dataError (.dataError l) s (fun t => t.loom l = { x with st := .frozen } ∧ ((t.loom l).lsr s.cycle).toNat % 8 = 4
        ∧ dueIn t 1 (.rollbackOutcome l) ∧ t.mem = s.mem))) ∧
    (x.st = .frozen →
      (x.ck.armed = false ∨ x.ck.point = none → happens .rollbackOutcome (.rollbackOutcome l) s (fun t => (t.loom l).st = .trapped ∧ (t.lk l).lfValid = true
        ∧ (t.lk l).lfCause = 0x10 ∧ (t.lk l).lfAddr = x.k.pc ∧ (t.lk l).lfPerf = 0 ∧ t.mem = s.mem)) ∧
      (∀ p, x.ck.armed = true → x.ck.point = some p → happens .rollbackOutcome (.rollbackOutcome l) s (fun t => back t p ∧ (t.loom l).ck.rerun = 1
        ∧ (t.loom l).ck.count = (if x.ck.count = -1 then x.ck.count else x.ck.count + 1) ∧ (t.loom l).ck.first = none ∧ (t.loom l).ck.bad = false))) ∧
    (∀ p, x.st ≠ .frozen → x.ck.rerun = 1 → x.ck.point = some p → happens .rollbackOutcome (.rollbackOutcome l) s (fun t => back t p ∧ (t.loom l).ck.rerun = 2
      ∧ (t.loom l).ck.first = some (x.ck.bundles, x.ck.sig))) ∧
    (x.st ≠ .frozen → x.ck.rerun = 2 → x.ck.first = some (x.ck.bundles, x.ck.sig) → x.ck.bad = false → happens .rollbackOutcome (.rollbackOutcome l) s (fun t =>
      t.loom l = { x with ck := { x.ck with rerun := 0, first := none } } ∧ dueNow t (.bundleDispatch l) ∧ t.mem = s.mem)) ∧
    (x.st ≠ .frozen → x.ck.rerun = 2 → x.ck.first ≠ some (x.ck.bundles, x.ck.sig) ∨ x.ck.bad = true → happens .rollbackOutcome (.rollbackOutcome l) s (fun t => (t.loom l).st = .trapped
      ∧ (t.lk l).lfCause = 0x11 ∧ (t.lk l).lfValid = true ∧ (t.loom l).ck.rerun = 0 ∧ (t.cluster l).retired = true ∧ 256 * (l / 256) + s.phys l ∈ t.thatch.log
      ∧ (∀ g, x.gang = some g → dueNow t (.gangEnd none g 4 (BitVec.ofNat 64 (4096 * s.dev.chip.toNat + 8 * l)))) ∧ t.mem = s.mem))) ∧
  (∀ (s : State) (k n : Nat) (w : Twill), k % 2 = 0 → 1 ≤ n → n < 15 → (s.core k).twills = [w] → w.ctx = n → w.node = 0xFFFF → stewardAwake s k → (s.core k).trapIn.1 ≠ s.cycle →
    let both (t : State) : Prop := ∀ c, c ∈ [16 * k + n, 16 * k + 16 + n] → (t.ctx c).st = .trapped ∧ (t.ctx c).tcause = 0x0C ∧ (t.ctx c).tia = (t.ctx c).tepc ∧ (t.ctx c).g = (s.ctx c).g
    let mismatch (t : State) : Prop := both t ∧ (t.core k).trapQ = (s.core k).trapQ ++ [n] ∧ (t.core (k + 1)).trapQ = (s.core (k + 1)).trapQ
      ∧ (∃ v, (t.core k).twills = [v] ∧ v.even = [] ∧ v.odd = []) ∧ t.mem = s.mem
    (∀ a ea b ob, w.even = a :: ea → w.odd = b :: ob → a.sig ≠ b.sig → happens .twillCompare (.twillCompare k n) s mismatch) ∧
    (∀ a b e, w.even = [a] → w.odd = [b] → a.sig = b.sig → a.both = false → a.instr = none → a.ev = e → happens .twillCompare (.twillCompare k n) s (fun t => dueIn t a.delay e
      ∧ (∃ v, (t.core k).twills = [v] ∧ v.even = [] ∧ v.odd = []) ∧ t.mem = s.mem
      ∧ ((s.ctx (16 * k + 16 + n)).why = .reply b.id → (t.ctx (16 * k + 16 + n)).why = .reply a.id))) ∧
    (w.even = [] ∨ w.odd = [] → happens .twillCompare (.twillCompare k n) s (fun t => t = { s with ev := .twillCompare k n })) ∧
    (∀ id, (∃ q ∈ w.even ++ w.odd, q.id = id) → happens .twillTimeout (.twillTimeout k n id) s mismatch) ∧
    (∀ id, (∀ q ∈ w.even ++ w.odd, q.id ≠ id) → happens .twillTimeout (.twillTimeout k n id) s (fun t => t = { s with ev := .twillTimeout k n id }))) ∧
  (∀ s : State, let ls := (s.lines.map (·.1)).filter (fun n => !s.lentAway (128 * n))
    (s.answers = false → happens .ckctlFlush .ckctlFlush s (fun t => t = { s with ev := .ckctlFlush })) ∧
    (s.answers = true → ls = [] → happens .ckctlFlush .ckctlFlush s (fun t => t.dev.ckbusy = true ∧ dueNow t .ckctlFlushDone ∧ t.mem = s.mem)) ∧
    (s.answers = true → ls ≠ [] → happens .ckctlFlush .ckctlFlush s (fun t => t.dev.ckbusy = true ∧ t.mem = s.mem ∧ ∃ id, Tab.get {} t.ranges id = { left := ls.length }
      ∧ ∀ n ∈ ls, dueIn t 0 (.lineStep n 0 true id))) ∧
    (happens .ckctlFlushDone .ckctlFlushDone s (fun t => (t.dev.ckbusy = true ↔ ∃ e ∈ s.ranges, e.2.who = none) ∧ t.mem = s.mem)))

/-! The host's windows, start-up, commands, alarms and heat (chapters 22 and 25). -/

namespace Sys2Proof.Stated

/-- A wake has come to the steward of a core (R442). -/
def woken (s t : State) (k : CoreId) (v : W64) : Prop :=
  (t.core k).wkval = v ∧ (t.core k).wkcnt = (if (s.core k).wkcnt = -1 then -1 else (s.core k).wkcnt + 1)
    ∧ ((s.ctx (16 * k)).st = .waiting → (s.ctx (16 * k)).why = .event → (t.ctx (16 * k)).st = .issuing)

/-- Nothing else of the device changes. -/
def onlyDev (s t : State) : Prop := { t with dev := s.dev } = { s with ev := t.ev }

/-- Thatch can begin a command (R468). -/
def thatchIdle (s : State) : Prop := s.thatch.busy = false ∧ s.thatch.cmd = none ∧ s.thatch.waiting = [] ∧ s.thatch.erased = false

/-- A command has ended with a code. -/
def cmdEnded (s t : State) (op code : BitVec 8) : Prop := t.thatch.busy = false ∧ t.thatch.op = op ∧ t.thatch.code = code ∧ t.todo = s.todo

/-- Nothing runs in any job slot but grains. -/
def onlyGrains (s : State) : Prop := (∀ j, noUnits s j) ∧ s.dev.gangs = [] ∧ s.dev.launches = []

end Sys2Proof.Stated

/-- R172, R417, R430, R442, R444, R447, R478: a host access to a scratchpad; a doorbell, a wake and a route written through window A. -/
def Obligations.HostEvents : Prop :=
  (∀ (s : State) (port addr : Nat) (w : Option (List Byte)) (n id : Nat) (relaxed : Bool), let pa := s.portPa port addr
    let i := Instr.hostScratchpadAccess
    let e := Ev.hostScratchpadAccess port addr w n id relaxed
    let done (t : State) : Prop := t.out = s.out ++ [.portDone port (s.cycle + s.hostWay port pa)]
    ((port < 2 ∧ s.answers = false) ∨ (∀ cl off, s.region pa ≠ .scratch cl off) → happens i (e false) s (fun t =>
      t = { s with ev := e false, out := s.out ++ [.abort port] })) ∧
    (portTakes s port → (∃ cl off, s.region pa = .scratch cl off) → happens i (e false) s (fun t => dueIn t (s.hostWay port pa) (e true) ∧ t.out = s.out ∧ t.mem = s.mem)) ∧
    (∀ bs, w = some bs → plainScratch s pa bs.length → happens i (e true) s (fun t => done t ∧ Memory.read t.mem pa bs.length = bs
      ∧ (∀ a, a < pa ∨ pa + bs.length ≤ a → Memory.byte t.mem a = Memory.byte s.mem a) ∧ (∀ x, pa ≤ 8 * x → 8 * x + 8 ≤ pa + bs.length → t.isEmpty x = false))) ∧
    (∀ bs cl off, w = some bs → s.region pa = .scratch cl off → s.bankFree pa = true → s.refusedByte pa bs.length ≠ none → happens i (e true) s (fun t =>
      done t ∧ (t.lk cl).levc = (s.lk cl).levc.bump1 6 1 ∧ t.mem = s.mem)) ∧
    (w = none → plainScratch s pa n → happens i (e true) s (fun t =>
      t.out = s.out ++ [.portData port id (Memory.read s.mem pa n) (s.cycle + s.hostWay port pa)] ∧ t.mem = s.mem)) ∧
    (s.bankFree pa = false → happens i (e true) s (fun t => dueIn t 1 (e true) ∧ t.out = s.out ∧ t.mem = s.mem))) ∧
  (∀ (s : State) (j : BitVec 4) (die pa : Nat), let e := Ev.launchDoorbell j die pa
    let bs := s.cohRead pa 64
    let d := descOf bs
    let n := s.fresh + 1
    let bell (t : State) : W64 := Tab.get 0 t.dev.bells (2 * j.toNat + die)
    let waiting := s.dev.launches.filter (fun e => e.2.owner && e.2.die == die && e.2.slot == j && s.queued e.1)
    (s.answers = false → happens .launchDoorbell e s (fun t => t = { s with ev := e })) ∧
    (s.answers = true → s.cohReady pa 64 = true →
      (descOk bs = false → happens .launchDoorbell e s (fun t => bell t = 2 ∧ t.dev.launches = s.dev.launches ∧ onlyDev s t)) ∧
      (descOk bs = true → 64 ≤ waiting.length → happens .launchDoorbell e s (fun t => bell t = 1 ∧ t.dev.launches = s.dev.launches ∧ onlyDev s t)) ∧
      (descOk bs = true → waiting.length < 64 → d.kind.toNat < 2 →
        (∀ st info, s.partFails d = some (st, info) → happens .launchDoorbell e s (fun t => bell t = 0 ∧ launchEnded t n st info ∧ t.mem = s.mem)) ∧
        (s.partFails d = none → happens .launchDoorbell e s (fun t => bell t = 0 ∧ (t.launch n).desc = d ∧ (t.launch n).slot = j ∧ (t.launch n).die = die
          ∧ (t.launch n).owner = true ∧ (t.launch n).todo = s.partGangs d ∧ t.mem = s.mem
          ∧ ∀ k, k < 2 → (∃ l ∈ s.partGangs d, ∃ x ∈ l, x / 256 = k) → t.queueOf k j = s.queueOf k j ++ [n] ∧ dueIn t 0 (.gangAdmission k j)))))) ∧
  (∀ (s : State) (k : Nat) (v : W64),
    (s.answers = true → s.clusterValid (k / 8) = true → happens .hostWakeWrite (.hostWakeWrite k v) s (fun t => woken s t k v ∧ t.mem = s.mem)) ∧
    (s.answers = false ∨ s.clusterValid (k / 8) = false → happens .hostWakeWrite (.hostWakeWrite k v) s (fun t => t = { s with ev := .hostWakeWrite k v }))) ∧
  (∀ (s : State) (c : Nat) (ports : BitVec 18),
    (s.answers = true → happens .routeTableWrite (.routeTableWrite c ports) s (fun t => Tab.get 0 t.dev.routes c = ports ∧ t.mem = s.mem
      ∧ ∀ g x, (g, x) ∈ s.dev.gangs → x.rick = true → ports &&& ~~~s.dev.down = 0 → c ≠ s.dev.chip.toNat → x.desc.c0 ≤ c → c ≤ x.desc.c0 + x.desc.nchm1 →
          (∀ y, x.desc.c0 ≤ y → y < c → s.chipGone y = false) → dueNow t (.gangEnd none g 3 (BitVec.ofNat 64 (4096 * c))))) ∧
    (s.answers = false → happens .routeTableWrite (.routeTableWrite c ports) s (fun t => t = { s with ev := .routeTableWrite c ports })))

/-- R6, R432, R444, R447, R451, R460, R468, R470: what a write of each register of window A does; an access while the device does not answer
is aborted. -/
def Obligations.WindowARegisters : Prop :=
  ∀ (s : State) (port off : Nat) (v : W64), let e := Ev.registerWrite port off v
    let th := s.thatch
    let does (p : State → Prop) : Prop := happens .registerWrite e s p
    (off < 0x600000 ∨ 0x700000 ≤ off → s.answers = false → does (fun t => t = { s with ev := e, out := s.out ++ [.abort port] })) ∧
    (off = 0x600000 → th.busy = true → does (fun t => t = { s with ev := e })) ∧
    (∀ ev, off = 0x600000 → th.busy = false → (v.toNat % 256, ev) ∈ [(1, Ev.tcmdLoad s.dev.chip.toNat (th.targ.getD 0 0) (th.targ.getD 1 0)), (2, .tcmdAttest (th.targ.getD 0 0))
      , (3, .tcmdEnroll (th.targ.getD 0 0)), (4, .tcmdFwupd (th.targ.getD 0 0))] → does (fun t => t = { s with ev := e, todo := { act := .ev ev } :: s.todo })) ∧
    (∀ k, k < 4 → off = 0x600008 + 8 * k → does (fun t => t = { s with ev := e, thatch := { th with targ := th.targ.set k v } })) ∧
    (off = 0x600030 → does (fun t => t = { s with ev := e, thatch := { th with trip := th.trip && !v.getLsbD 17, warn := th.warn && !v.getLsbD 16 } })) ∧
    (off = 0x600058 → does (fun t => t = { s with ev := e, thatch := { th with erase := th.erase || v.getLsbD 4 } })) ∧
    (∀ o ∈ [0x600028, 0x600040, 0x600048], off = o → does (fun t => t = { s with ev := e })) ∧
    (s.answers = true →
      (∀ j die, j < 16 → die < 2 → off = 0x200 * j + 0x100 * die → does (fun t => t = { s with ev := e, todo := { act := .ev (.launchDoorbell (BitVec.ofNat 4 j) die v.toNat) } :: s.todo })) ∧
      (∀ j : Nat, j < 16 → off = 0x100000 + 0x100 * j → let k := BitVec.ofNat 4 j
        (v.getLsbD 0 = true → does (fun t => dueNow t (.slctlPre k))) ∧ (v.getLsbD 1 = true → does (fun t => dueNow t (.slctlEnd k)))
        ∧ (v.getLsbD 2 = true → does (fun t => dueNow t (.slctlRestore k))) ∧ (v.toNat % 8 = 0 → does (fun t => t = { s with ev := e }))) ∧
      (∀ c, c < 4096 → off = 0x200000 + c → does (fun t => Tab.get 0 t.dev.incs c = v.setWidth 8 ∧ t.mem = s.mem)) ∧
      (∀ c, c < 4096 → off = 0x201000 + 4 * c → does (fun t => t = { s with ev := e, todo := { act := .ev (.routeTableWrite c (v.setWidth 18)) } :: s.todo })) ∧
      (∀ k, k < 1024 → off = 0x210000 + 8 * k → does (fun t => Tab.get (false, 0) t.dev.peers k = (v.getLsbD 63, v.setWidth 12) ∧ onlyDev s t)) ∧
      (∀ k, k < 4096 → off = 0x300000 + 8 * k → does (fun t => t = { s with ev := e, todo := { act := .ev (.hostWakeWrite k v) } :: s.todo })) ∧
      (off = 0x500000 → v.getLsbD 0 = true → does (fun t => t = { s with ev := e, todo := { act := .ev .ckctlFlush } :: s.todo })) ∧
      (off = 0x500008 → does (fun t => t = { s with ev := e, dev := { s.dev with wbbase := v } })) ∧
      (∀ cl n, off = 0x740000 + 0x80 * cl + 8 * n → cl < 512 → n < 16 → s.clusterValid cl = true → s.grainsToCome = false → (s.loom cl).k.levc.length = 16 →
        does (fun t => (t.loom cl).k.levc.nth n = ((s.loom cl).k.levc.nth n).write v ∧ t.mem = s.mem)) ∧
      (∀ z n, off = 0x750000 + 0x80 * z + 8 * n → z < 128 → n < 16 → s.grainsToCome = false → (s.slice z).sevc.length = 16 →
        does (fun t => (t.slice z).sevc.nth n = ((s.slice z).sevc.nth n).write v ∧ t.mem = s.mem)) ∧
      (0x700000 ≤ off → off < 0x754000 → s.grainsToCome = true → does (fun t => dueIn t 0 e ∧ t.clusters = s.clusters ∧ t.looms = s.looms ∧ t.slices = s.slices)))

/-- R459, R461, R464 to R467: start-up from power-on and device reset; the boot tree; a forwarded container; LOAD. -/
def Sys2Proof.Stated.StartUpAndLoad : Prop :=
  (∀ (s : State) (i : Instr) (e : Ev), (i, e) ∈ [(Instr.powerOn, Ev.powerOn), (.deviceReset, .deviceReset)] → i = .powerOn ∨ s.thatch.alarmed = false →
    (s.thatch.erased = true → happens i e s (fun t => t.thatch.ready = false ∧ t.ctxs = [] ∧ t.mem = [] ∧ t.agenda = [] ∧ t.thatch.erased = true)) ∧
    (∀ code, s.thatch.erased = false → s.thatch.pickFirmware = .inr code → happens i e s (fun t => t.thatch.ready = false ∧ t.thatch.erase = false ∧ t.thatch.code = code ∧ t.ctxs = [] ∧ t.mem = [])) ∧
    (∀ bs b r, s.thatch.erased = false → s.thatch.pickFirmware = .inl (bs, b) → grainRole bs = some r → happens i e s (fun t => t.thatch.ready = true ∧ t.thatch.fwb = b
      ∧ t.thatch.sel = b ∧ t.thatch.incs = s.thatch.incs + 1 ∧ t.dev.inc = s.thatch.incs + 1 ∧ t.dev.remap0 = s.thatch.enabled 0 ∧ t.dev.remap1 = s.thatch.enabled 1
      ∧ t.thatch.running = bs.take (sigOff bs) ∧ t.thatch.keys = s.thatch.keys ∧ t.thatch.erase = false
      ∧ (∀ die k, die < 2 → k < 8 * (s.thatch.enabled die).length → let c := 16 * (2048 * die + k)
          (t.ctx c).st = .issuing ∧ (t.ctx c).priv = true ∧ (t.ctx c).slot = 15 ∧ (t.ctx c).pc = BitVec.ofNat 64 r.entry &&& ~~~3#64)
      ∧ (∀ c, c % 16 ≠ 0 → (t.ctx c).st = .stopped)
      ∧ (r.addr + r.size ≤ 2 ^ 34 * s.thatch.hch.toNat → r.addr + r.size ≤ hbmBytes → Memory.read t.mem r.addr r.size = (bs.drop r.off).take r.size)))) ∧
  (∀ s : State, s.thatch.alarmed = true → happens .deviceReset .deviceReset s (fun t => t = { s with ev := .deviceReset })) ∧
  (∀ (s : State) (die n r addr : Nat) (bs : List Byte) (cls : List ClusterId), Tab.find s.thatch.images r = some (addr, bs, cls) → let cl := 256 * die + n
    happens .bootTreeSend (.bootTreeSend die n r) s (fun t => t.mem = s.mem
      ∧ (t.cluster cl).image = (if cl ∈ cls then imagePut (s.cluster cl).image addr bs else (s.cluster cl).image)
      ∧ (let time (m : Nat) : Nat := (bs.length + 127) / 128 + 10 + 2 * s.dist cl (256 * die + m)
         let a := 2 * n + 1
         (a < s.nClusters die → dueIn t (time a) (.bootTreeSend die a r)) ∧ (a + 1 < s.nClusters die → dueIn t (time a + time (a + 1)) (.bootTreeSend die (a + 1) r))
         ∧ (∀ j signed, s.nClusters die ≤ a → s.sending = false → s.thatch.load = some (j, signed) → s.thatch.waiting = [] → t.thatch.busy = false ∧ t.thatch.code = 0
            ∧ Tab.find t.thatch.loaded j.toNat = some signed)))) ∧
  (∀ (s : State) (root pa : Nat) (j : BitVec 4) (bs : List Byte), let e := Ev.chipForward root pa j bs none
    (s.thatch.alarmed = true → happens .chipForward e s (fun t => t = { s with ev := e })) ∧
    (s.thatch.alarmed = false → s.hbmReady pa bs.length = false → happens .chipForward e s (fun t => dueIn t 1 e ∧ t.mem = s.mem ∧ t.lines = s.lines)) ∧
    (s.thatch.alarmed = false → s.hbmReady pa bs.length = true → s.hbmLen ≤ pa →
      (s.thatch.busy = false → happens .chipForward e s (fun t => dueNow t (.tcmdLoad root (BitVec.ofNat 64 pa) (j.setWidth 64 ||| 0x10)))) ∧
      (s.thatch.busy = true → happens .chipForward e s (fun t => t.thatch.waiting = s.thatch.waiting ++ [(root, BitVec.ofNat 64 pa, j.setWidth 64 ||| 0x10)])))) ∧
  (∀ (s : State) (root : Nat) (a b : W64), let e := Ev.tcmdLoad root a b
    let bs := s.boxAt a.toNat
    let j : BitVec 4 := b.setWidth 4
    (s.thatch.busy = true → s.thatch.cmd = none → happens .tcmdLoad e s (fun t => t = { s with ev := e })) ∧
    (s.thatch.busy = false → s.thatch.cmd = none → s.thatch.waiting = [] → s.thatch.erased = true → happens .tcmdLoad e s (fun t => cmdEnded s t 1 9)) ∧
    (thatchIdle s → (s.boxReady a.toNat && s.loadReady j bs) = true →
      (s.loadCode j bs ≠ 0 → happens .tcmdLoad e s (fun t => cmdEnded s t 1 (s.loadCode j bs) ∧ t.mem = s.mem ∧ t.thatch.loaded = s.thatch.loaded)) ∧
      (s.loadCode j bs = 0 → s.rolesHere bs 0 = [] → s.rolesHere bs 1 = [] → happens .tcmdLoad e s (fun t =>
        cmdEnded s t 1 0 ∧ Tab.find t.thatch.loaded j.toNat = some (bs.take (sigOff bs)) ∧ t.mem = s.mem)) ∧
      (∀ r, s.loadCode j bs = 0 → s.rolesHere bs 0 = [] → s.rolesHere bs 1 = [r] → happens .tcmdLoad e s (fun t => t.thatch.busy = true
        ∧ Tab.find t.thatch.images r = some ((roleOf bs r).addr, imageOf bs r, s.roleClusters bs r) ∧ dueNow t (.bootTreeSend 0 0 r) ∧ dueNow t (.bootTreeSend 1 0 r))) ∧
      (b.getLsbD 4 = true → s.loadCode j bs ≠ 0 → ∀ c ∈ s.forwardTo root, s.chipGone c = false → happens .tcmdLoad e s (fun t => goesByLink s t (4096 * s.dev.chip.toNat) c (.forward root a.toNat j bs)))) ∧
    (thatchIdle s → (s.boxReady a.toNat && s.loadReady j bs) = false → happens .tcmdLoad e s (fun t => t.thatch.busy = true ∧ dueIn t 1 e ∧ t.mem = s.mem)))

/-- R462, R463, R468 to R470, R473: ATTEST, ENROLL and FWUPD; the security alarm and what it clears; the thermal events. -/
def Sys2Proof.Stated.CommandsAlarmsAndHeat : Prop :=
  (∀ (s : State) (a : W64), let pa := a.toNat
    let th := s.thatch
    let bad (n : Nat) : Prop := pa % 8 ≠ 0 ∨ s.hbmLen < pa + n
    thatchIdle s →
    (s.hbmReady pa 32 = true →
      (bad 32 → happens .tcmdAttest (.tcmdAttest a) s (fun t => cmdEnded s t 2 1 ∧ t.mem = s.mem)) ∧
      (¬ bad 32 → happens .tcmdAttest (.tcmdAttest a) s (fun t => cmdEnded s t 2 0 ∧ t.mem = s.mem ∧ ∀ i, i < 32 → Tab.get 0 t.thatch.resp i = (s.hbmRead pa 32).getD i 0))) ∧
    (s.hbmReady pa 5421 = true → let bs := s.hbmRead pa 5421
      (bad 5421 → happens .tcmdEnroll (.tcmdEnroll a) s (fun t => cmdEnded s t 3 1 ∧ t.thatch.keys = th.keys)) ∧
      (¬ bad 5421 → th.enrollCode bs ≠ 0 → happens .tcmdEnroll (.tcmdEnroll a) s (fun t => cmdEnded s t 3 (th.enrollCode bs) ∧ t.thatch.keys = th.keys)) ∧
      (¬ bad 5421 → th.enrollCode bs = 0 → Config.flashOk s.draws = true → happens .tcmdEnroll (.tcmdEnroll a) s (fun t => cmdEnded s t 3 0
        ∧ Tab.find t.thatch.keys (leAt bs 0 1) = some ((bs.drop 8).take 1984))) ∧
      (¬ bad 5421 → th.enrollCode bs = 0 → Config.flashOk s.draws = false → happens .tcmdEnroll (.tcmdEnroll a) s (fun t => cmdEnded s t 3 12))) ∧
    (s.boxReady pa = true → let bs := s.boxAt pa
      (bad (boxLen bs) → happens .tcmdFwupd (.tcmdFwupd a) s (fun t => cmdEnded s t 4 1 ∧ t.thatch.sel = th.sel ∧ t.thatch.fwA = th.fwA ∧ t.thatch.fwB = th.fwB)) ∧
      (¬ bad (boxLen bs) → firmwareCode bs ≠ 0 → happens .tcmdFwupd (.tcmdFwupd a) s (fun t => cmdEnded s t 4 (firmwareCode bs) ∧ t.thatch.sel = th.sel ∧ t.thatch.fwA = th.fwA
        ∧ t.thatch.fwB = th.fwB)) ∧
      (¬ bad (boxLen bs) → firmwareCode bs = 0 → Config.flashOk s.draws = true → happens .tcmdFwupd (.tcmdFwupd a) s (fun t => cmdEnded s t 4 0 ∧ t.thatch.sel = !th.fwb
        ∧ (if th.fwb then t.thatch.fwA = bs ∧ t.thatch.fwB = th.fwB else t.thatch.fwB = bs ∧ t.thatch.fwA = th.fwA))) ∧
      (¬ bad (boxLen bs) → firmwareCode bs = 0 → Config.flashOk s.draws = false → happens .tcmdFwupd (.tcmdFwupd a) s (fun t => cmdEnded s t 4 12 ∧ t.thatch.sel = th.sel
        ∧ (if th.fwb then t.thatch.fwB = th.fwB else t.thatch.fwA = th.fwA))))) ∧
  (∀ (s : State) (w : BitVec 3), let th := s.thatch
    (w ≠ 0 → th.alarmed = false → th.alarm ||| w ≠ th.alarm → onlyGrains s → happens .securityAlarm (.securityAlarm w) s (fun t => t.thatch.alarmed = true ∧ t.thatch.hold = true
      ∧ t.thatch.alarm = th.alarm ||| w ∧ t.thatch.busy = false ∧ (th.busy = true → t.thatch.code = 7) ∧ (∀ c, (t.ctx c).st = .stopped)
      ∧ (∀ x ∈ t.todo ++ t.agenda, ∃ ev, x.act = .ev ev ∧ ∀ l, ev ≠ .bundleDispatch l) ∧ dueIn t 0 (.securityAlarm 0))) ∧
    (w ≠ 0 → th.alarmed = true → happens .securityAlarm (.securityAlarm w) s (fun t => t = { s with ev := .securityAlarm w, thatch := { th with alarm := th.alarm ||| w } })) ∧
    (th.alarmed = true → happens .securityAlarm (.securityAlarm 0) s (fun t => t.mem = [] ∧ t.lines = [] ∧ t.cores = [] ∧ t.ctxs = [] ∧ t.clusters = [] ∧ t.looms = []
      ∧ t.slices = [] ∧ t.agenda = [] ∧ t.thatch.alarmed = true ∧ t.thatch.keys = (if th.erase then [] else th.keys) ∧ t.thatch.erased = (th.erased || th.erase)))) ∧
  (∀ (s : State) (tj : BitVec 16), let th := s.thatch
    (th.warn = false → happens .thermalWarn (.thermalWarn tj) s (fun t => t.thatch = { th with warn := true, tj := tj } ∧ woken s t 0 0x7E410001 ∧ woken s t 2048 0x7E410001
      ∧ t.mem = s.mem)) ∧
    (th.warn = true → happens .thermalWarn (.thermalWarn tj) s (fun t => t = { s with ev := .thermalWarn tj, thatch := { th with tj := tj } })) ∧
    (th.hold = false → onlyGrains s → happens .thermalTrip (.thermalTrip tj) s (fun t => t.thatch.trip = true ∧ t.thatch.tj = tj ∧ t.thatch.hold = true
      ∧ (∀ c, (t.ctx c).st = .stopped) ∧ t.mem = s.mem)))

/-- R447: the three commands of SLCTL for a job slot: END; PRE and RESTORE of a slot whose one gang holds one cluster. -/
def Sys2Proof.Stated.SlotCommandsComplete : Prop :=
  ∀ (s : State) (j : BitVec 4), s.answers = true → s.dev.slctl.length = 16 →
    happens .slctlEnd (.slctlEnd j) s (fun t => t.slState j = 4 ∧ dueNow t (.gangEnd (some j) 0 7 0) ∧ t.ctxs = s.ctxs ∧ t.mem = s.mem) ∧
    (∀ g x, s.dev.gangs = [(g, x)] → x.slot = j →
      (∀ cl, s.slState j = 0 → x.pre = 0 → x.want = [] → x.cls = [cl] → x.rick = false → happens .slctlPre (.slctlPre j) s (fun t => t.slState j = 1 ∧ (t.gang g).pre = 2
        ∧ dueIn t (20 + 2 * s.dist (256 * x.die) cl + (if 256 * x.die / 256 = cl / 256 then 0 else 60)) (.preemptRequestArrival g cl none) ∧ t.ctxs = s.ctxs ∧ t.mem = s.mem)) ∧
      (s.slState j = 2 → x.pre = 2 → (∀ cl ∈ x.cls, cl ∈ x.savedCl) → happens .slctlRestore (.slctlRestore j) s (fun t => t.slState j = 3 ∧ (t.gang g).restoring = true
        ∧ dueIn t 1 (.clusterRestore g) ∧ t.ctxs = s.ctxs ∧ t.mem = s.mem)))

/-- R447, R459 to R473: start-up, commands, alarms and heat, and the commands of SLCTL. -/
def Obligations.StartUpCommandsAndHealth : Prop := StartUpAndLoad ∧ CommandsAlarmsAndHeat ∧ SlotCommandsComplete

/-! The machine as a whole: reset, decoding, and what a step is (chapters 2, 4, 7). -/

/-- R22, R35, R66, R143, R298, R399, R406, R415 to R417, R442, R447: what reset leaves of the values that the spec gives: every context
Stopped with GSR, CMASK, counters and trap state at their reset values, every word full, nothing lent, every Loom stopped. Memory that
nothing has written reads zero by the model's choice (log entry 2). -/
def Obligations.ResetValues : Prop :=
  (∀ c, let x := State.reset.ctx c
    x.st = .stopped ∧ x.ocls = 0 ∧ x.ferc = 0x10 ∧ x.pfmt = 0 ∧ x.pp = false ∧ x.tmask = 0x03E0 ∧ x.btmo = 0 ∧ x.last = 0 ∧ x.pfail = 0 ∧ x.tepc = 0 ∧ x.tia = 0
      ∧ x.tval = 0 ∧ (∀ n, n < 16 → x.evc.nth n = {}) ∧ x.pend = [] ∧ x.gang = none) ∧
  (∀ k, let x := State.reset.core k
    x.stslot = 0xF ∧ x.stvec = 0 ∧ x.stepc = 0 ∧ x.inh = false ∧ x.eie = false ∧ x.wdPre = 0x40 ∧ x.wdWait = 0 ∧ x.wkcnt = 0 ∧ x.wkval = 0 ∧ x.slots = 0
      ∧ x.areap = false ∧ x.cecnt = 0 ∧ x.trapQ = []) ∧
  (∀ cl, let x := State.reset.cluster cl
    x.mon.min = 0xFFFFFFFF ∧ x.mon.max = 0 ∧ x.mon.cnt = 0 ∧ x.bpEn = false ∧ x.bpN = 0 ∧ x.bpBase = 0 ∧ x.svarea = 0
      ∧ ∀ e, (x.bolt e).st = .free ∧ (x.bolt e).gen = 0) ∧
  (∀ l, (State.reset.loom l).st = .stopped ∧ (State.reset.loom l).k.lfValid = false ∧ (State.reset.loom l).ck.armed = false) ∧
  (State.reset.dev.guard = 0x07D0 ∧ State.reset.dev.lead = 0x186A0 ∧ State.reset.dev.chip = 0 ∧ State.reset.dev.dom = 0 ∧ State.reset.dev.sync = false
    ∧ (∀ j, j < 16 → State.reset.dev.asroot.getD j (true, 0) = (false, 0)) ∧ (∀ j, State.reset.slState j = 0) ∧ ∀ pa, State.reset.lentAway pa = false) ∧
  (∀ w, State.reset.isEmpty w = false) ∧ (∀ a, Memory.byte State.reset.mem a = 0) ∧ State.reset.MemoryCanonical ∧ State.reset.thatch.ready = false

/-- R71 to R85: reading back the word and lent byte of any well-formed instruction that has a word gives that instruction, every operand at
every value as it was; of rows that share one word, the first (log entry 6). -/
def Obligations.EveryInstructionReadsBack : Prop :=
  ∀ i p, wellFormed i = true → encode i = some p → readBack p = some (coreRow i)

/-- R71 to R85: a word that decodes is the word of the instruction it decodes to, every bit of it, and no word is both a grain instruction
and a slot operation. -/
def Obligations.EveryDecodedWordIsItsEncoding : Prop :=
  (∀ w i, decodeWord w = some i → wellFormed i = true ∧ encode i = some (w, 0)) ∧
  (∀ w lend i, decodeSlot w lend = some i → wellFormed i = true ∧ encode i = some (w, lend)) ∧
  (∀ w lend i, decodeWord w = some i → decodeSlot w lend = none)

/-- R71 to R85: words written out from the spec's encodings decode to their instructions, and words with a field that must be zero set, or
of no row, to none. -/
def Obligations.WordsDecode : Prop :=
  [decodeWord 0x05CD0001, decodeWord 0x27FFFFC0, decodeWord 0x2BD80000, decodeWord 0x283C0001, decodeWord 0x20000010, decodeWord 0x38C48000
    , decodeWord 0x4CC00003, decodeWord 0x14448C01, decodeWord 0x62280003, decodeWord 0x1D00ABCD, decodeWord 0x44000410, decodeWord 0x05CD0401, decodeWord 0]
  = [some (.sub 7 3 4), some (.jal 15 0x3FFFC0), some (.jalr 15 6), some (.ret 15), some (.beq 0 0 0x10), some (.fadd 3 1 2), some (.csrr 3 3), some (.crc 1 1 2 3)
    , some (.fence 4 5 3), some (.hset 4 0 0xABCD), some (.fmt 0x410), none, none]

/-- R21, R30, R33, R78, R140: when the next entry of work is a context's issue slot and the word at PC stands in its core's instruction
cache, the step performs the instruction that the word decodes to, or takes the illegal-instruction trap. An entry that names an
instruction or an event performs it. With no work due the cycle hands out its slots or ends. -/
def Obligations.AStepRunsTheDecodedInstruction : Prop :=
  (∀ (s : State) (e : Entry) (rest : List Entry), s.todo = e :: rest →
    (∀ i, e.act = .run i → step s = exec i { s with todo := rest, cur := e.who, stage := e.stage }) ∧
    (∀ v i, e.act = .ev v → v.instr = some i → step s = exec i { s with todo := rest, ev := v }) ∧
    (e.act = .issue → let c := e.who
      let x := s.ctx c
      let k := s.core (coreOf c)
      (x.st ≠ .issuing → step s = .next { s with todo := rest }) ∧
      (∀ pa t d, x.st = .issuing → k.frozen s.cycle = false → x.late = [] → x.uerr = none → (c % 16 ≠ 0 ∨ s.pendingEvent (coreOf c) = false ∨ k.eie = false ∨ k.inh = true) →
        s.look c x.pc .x = .hit pa t → Tab.find k.icache (lineOf pa) = some d →
        let w : W32 := d.extractLsb' (32 * (pa / 4 % 32)) 32
        let s1 : State := { s with todo := rest, cur := c, stage := 0 }
        (∀ i, decodeWord w = some i → step s = exec (s1.refine i) s1) ∧
        (decodeWord w = none → step s = exec .illegalInstruction { s1 with ev := .illegalInstruction w })))) ∧
  (∀ (s : State) (e : Entry) (rest : List Entry), s.todo = [] → s.agenda = e :: rest →
    (e.due < s.cycle ∨ e.due = s.cycle ∧ (e.ord < 100 ∨ s.slotted = true) →
      (∀ i, e.act = .run i → step s = exec i { s with agenda := rest, cur := e.who, stage := e.stage }) ∧
      (∀ v i, e.act = .ev v → v.instr = some i → step s = exec i { s with agenda := rest, ev := v })) ∧
    (s.cycle < e.due → s.slotted = true → ∃ t, step s = .next t ∧ t.cycle = s.cycle + 1 ∧ t.slotted = false ∧ t.mem = s.mem ∧ t.ctxs = s.ctxs)) ∧
  (∀ s : State, s.todo = [] → s.slotted = false → (∀ e rest, s.agenda = e :: rest → s.cycle < e.due) → ∃ t, step s = .next t ∧ t.cycle = s.cycle ∧ t.slotted = true
    ∧ t.mem = s.mem ∧ t.ctxs = s.ctxs
    ∧ (s.thatch.hold = false → ∀ c x, Tab.find s.ctxs c = some x → s.twin c = none → c % 16 = s.turn (dieOf c) → x.st = .issuing → x.readyAt ≤ s.cycle → { who := c, act := .issue } ∈ t.todo))

/-- R1, R34: the machine always goes on: from every state a step answers a next state, since every instruction and event of the table has
its effect; no state ends in a fault or a refusal. -/
def Obligations.EveryStepGoesOn : Prop := ∀ s : State, s.GoesOn

/-- R290, R298: every step keeps memory in its one form: addresses strictly rise and no listed byte is one that an unlisted address
reads as (the form is the model's own, log entry 2), so that equal memories are equal data after every step. -/
def Obligations.EveryStepKeepsMemoryCanonical : Prop := ∀ s t : State, s.MemoryCanonical → step s = .next t → t.MemoryCanonical
end

