-- ==== Sys2Proof/Laws/Tab.lean ====
section
/-!
SUPPORT. What a sparse table holds after a write, an erasure or a change of its values.
-/

namespace Sys2Proof

theorem Tab.get_set_same {α : Type} (d : α) (t : Tab α) (i : Nat) (x : α) : Tab.get d (Tab.set t i x) i = x := by
  induction t with
  | nil => simp [Tab.set, Tab.get]
  | cons p t ih =>
    obtain ⟨k, v⟩ := p
    simp only [Tab.set]
    split
    · simp [Tab.get]
    · split
      · simp [Tab.get]
      · simp [Tab.get, *]

theorem Tab.get_set_other {α : Type} (d : α) (t : Tab α) (i j : Nat) (x : α) (h : j ≠ i) :
    Tab.get d (Tab.set t i x) j = Tab.get d t j := by
  induction t with
  | nil => simp [Tab.set, Tab.get, h]
  | cons p t ih =>
    obtain ⟨k, v⟩ := p
    simp only [Tab.set]
    split
    · simp [Tab.get, h]
    · split
      · next _ e => simp [Tab.get, h, ← e]
      · simp only [Tab.get, ih]

theorem Tab.set_set {α : Type} (t : Tab α) (i : Nat) (x y : α) : Tab.set (Tab.set t i x) i y = Tab.set t i y := by
  induction t with
  | nil => simp [Tab.set]
  | cons p t ih =>
    obtain ⟨k, v⟩ := p
    simp only [Tab.set]
    split
    · simp [Tab.set]
    · split
      · simp [Tab.set]
      · simp [Tab.set, *]

theorem Tab.find_set_same {α : Type} (t : Tab α) (i : Nat) (x : α) : Tab.find (Tab.set t i x) i = some x := by
  induction t with
  | nil => simp [Tab.set, Tab.find]
  | cons p t ih =>
    obtain ⟨k, v⟩ := p
    simp only [Tab.set]
    split
    · simp [Tab.find]
    · split
      · simp [Tab.find]
      · simp [Tab.find, *]

theorem Tab.find_set_other {α : Type} (t : Tab α) (i j : Nat) (x : α) (h : j ≠ i) :
    Tab.find (Tab.set t i x) j = Tab.find t j := by
  induction t with
  | nil => simp [Tab.set, Tab.find, h]
  | cons p t ih =>
    obtain ⟨k, v⟩ := p
    simp only [Tab.set]
    split
    · simp [Tab.find, h]
    · split
      · next _ e => simp [Tab.find, h, ← e]
      · simp only [Tab.find, ih]

theorem Tab.get_erase_other {α : Type} (d : α) (t : Tab α) (i j : Nat) (h : j ≠ i) :
    Tab.get d (Tab.erase t i) j = Tab.get d t j := by
  induction t with
  | nil => rfl
  | cons p t ih =>
    obtain ⟨k, v⟩ := p
    simp only [Tab.erase]
    split
    · next e => simp [Tab.get, h, ← e]
    · simp only [Tab.get, ih]

theorem Tab.get_mapVal {α : Type} (f : α → α) (d : α) (t : Tab α) (i : Nat) (h : f d = d) :
    Tab.get d (Tab.mapVal f t) i = f (Tab.get d t i) := by
  induction t with
  | nil => simp [Tab.mapVal, Tab.get, h]
  | cons p t ih =>
    obtain ⟨k, v⟩ := p
    simp only [Tab.mapVal, Tab.get, ih]
    split <;> rfl

theorem Tab.get_eq_find {α : Type} (d : α) (t : Tab α) (i : Nat) : Tab.get d t i = (Tab.find t i).getD d := by
  induction t with
  | nil => rfl
  | cons p t ih =>
    obtain ⟨k, v⟩ := p
    simp only [Tab.get, Tab.find, ih]
    split <;> rfl

end Sys2Proof
end

