-- ==== Sys2Proof/Laws/State.lean ====
section
/-!
SUPPORT. What each named update of the state leaves in each field of State, so that no proof unfolds a record update; and
what an update of one unit leaves of the others.
-/

namespace Sys2Proof.Machine

/-! setCtx -/

@[simp] theorem State.setCtx_cycle (s : State) (c : CtxId) (x : Ctx) : (s.setCtx c x).cycle = s.cycle := rfl
@[simp] theorem State.setCtx_phase0 (s : State) (c : CtxId) (x : Ctx) : (s.setCtx c x).phase0 = s.phase0 := rfl
@[simp] theorem State.setCtx_phase1 (s : State) (c : CtxId) (x : Ctx) : (s.setCtx c x).phase1 = s.phase1 := rfl
@[simp] theorem State.setCtx_slotted (s : State) (c : CtxId) (x : Ctx) : (s.setCtx c x).slotted = s.slotted := rfl
@[simp] theorem State.setCtx_todo (s : State) (c : CtxId) (x : Ctx) : (s.setCtx c x).todo = s.todo := rfl
@[simp] theorem State.setCtx_agenda (s : State) (c : CtxId) (x : Ctx) : (s.setCtx c x).agenda = s.agenda := rfl
@[simp] theorem State.setCtx_fresh (s : State) (c : CtxId) (x : Ctx) : (s.setCtx c x).fresh = s.fresh := rfl
@[simp] theorem State.setCtx_draws (s : State) (c : CtxId) (x : Ctx) : (s.setCtx c x).draws = s.draws := rfl
@[simp] theorem State.setCtx_cur (s : State) (c : CtxId) (x : Ctx) : (s.setCtx c x).cur = s.cur := rfl
@[simp] theorem State.setCtx_stage (s : State) (c : CtxId) (x : Ctx) : (s.setCtx c x).stage = s.stage := rfl
@[simp] theorem State.setCtx_ev (s : State) (c : CtxId) (x : Ctx) : (s.setCtx c x).ev = s.ev := rfl
@[simp] theorem State.setCtx_ctxs (s : State) (c : CtxId) (x : Ctx) : (s.setCtx c x).ctxs = Tab.set s.ctxs c x := rfl
@[simp] theorem State.setCtx_cores (s : State) (c : CtxId) (x : Ctx) : (s.setCtx c x).cores = s.cores := rfl
@[simp] theorem State.setCtx_clusters (s : State) (c : CtxId) (x : Ctx) : (s.setCtx c x).clusters = s.clusters := rfl
@[simp] theorem State.setCtx_looms (s : State) (c : CtxId) (x : Ctx) : (s.setCtx c x).looms = s.looms := rfl
@[simp] theorem State.setCtx_slices (s : State) (c : CtxId) (x : Ctx) : (s.setCtx c x).slices = s.slices := rfl
@[simp] theorem State.setCtx_lines (s : State) (c : CtxId) (x : Ctx) : (s.setCtx c x).lines = s.lines := rfl
@[simp] theorem State.setCtx_mem (s : State) (c : CtxId) (x : Ctx) : (s.setCtx c x).mem = s.mem := rfl
@[simp] theorem State.setCtx_empties (s : State) (c : CtxId) (x : Ctx) : (s.setCtx c x).empties = s.empties := rfl
@[simp] theorem State.setCtx_dev (s : State) (c : CtxId) (x : Ctx) : (s.setCtx c x).dev = s.dev := rfl
@[simp] theorem State.setCtx_thatch (s : State) (c : CtxId) (x : Ctx) : (s.setCtx c x).thatch = s.thatch := rfl
@[simp] theorem State.setCtx_ranges (s : State) (c : CtxId) (x : Ctx) : (s.setCtx c x).ranges = s.ranges := rfl
@[simp] theorem State.setCtx_sent (s : State) (c : CtxId) (x : Ctx) : (s.setCtx c x).sent = s.sent := rfl
@[simp] theorem State.setCtx_links (s : State) (c : CtxId) (x : Ctx) : (s.setCtx c x).links = s.links := rfl
@[simp] theorem State.setCtx_orphans (s : State) (c : CtxId) (x : Ctx) : (s.setCtx c x).orphans = s.orphans := rfl
@[simp] theorem State.setCtx_out (s : State) (c : CtxId) (x : Ctx) : (s.setCtx c x).out = s.out := rfl

/-! setCore -/

@[simp] theorem State.setCore_cycle (s : State) (k : CoreId) (x : Core) : (s.setCore k x).cycle = s.cycle := rfl
@[simp] theorem State.setCore_phase0 (s : State) (k : CoreId) (x : Core) : (s.setCore k x).phase0 = s.phase0 := rfl
@[simp] theorem State.setCore_phase1 (s : State) (k : CoreId) (x : Core) : (s.setCore k x).phase1 = s.phase1 := rfl
@[simp] theorem State.setCore_slotted (s : State) (k : CoreId) (x : Core) : (s.setCore k x).slotted = s.slotted := rfl
@[simp] theorem State.setCore_todo (s : State) (k : CoreId) (x : Core) : (s.setCore k x).todo = s.todo := rfl
@[simp] theorem State.setCore_agenda (s : State) (k : CoreId) (x : Core) : (s.setCore k x).agenda = s.agenda := rfl
@[simp] theorem State.setCore_fresh (s : State) (k : CoreId) (x : Core) : (s.setCore k x).fresh = s.fresh := rfl
@[simp] theorem State.setCore_draws (s : State) (k : CoreId) (x : Core) : (s.setCore k x).draws = s.draws := rfl
@[simp] theorem State.setCore_cur (s : State) (k : CoreId) (x : Core) : (s.setCore k x).cur = s.cur := rfl
@[simp] theorem State.setCore_stage (s : State) (k : CoreId) (x : Core) : (s.setCore k x).stage = s.stage := rfl
@[simp] theorem State.setCore_ev (s : State) (k : CoreId) (x : Core) : (s.setCore k x).ev = s.ev := rfl
@[simp] theorem State.setCore_ctxs (s : State) (k : CoreId) (x : Core) : (s.setCore k x).ctxs = s.ctxs := rfl
@[simp] theorem State.setCore_cores (s : State) (k : CoreId) (x : Core) : (s.setCore k x).cores = Tab.set s.cores k x := rfl
@[simp] theorem State.setCore_clusters (s : State) (k : CoreId) (x : Core) : (s.setCore k x).clusters = s.clusters := rfl
@[simp] theorem State.setCore_looms (s : State) (k : CoreId) (x : Core) : (s.setCore k x).looms = s.looms := rfl
@[simp] theorem State.setCore_slices (s : State) (k : CoreId) (x : Core) : (s.setCore k x).slices = s.slices := rfl
@[simp] theorem State.setCore_lines (s : State) (k : CoreId) (x : Core) : (s.setCore k x).lines = s.lines := rfl
@[simp] theorem State.setCore_mem (s : State) (k : CoreId) (x : Core) : (s.setCore k x).mem = s.mem := rfl
@[simp] theorem State.setCore_empties (s : State) (k : CoreId) (x : Core) : (s.setCore k x).empties = s.empties := rfl
@[simp] theorem State.setCore_dev (s : State) (k : CoreId) (x : Core) : (s.setCore k x).dev = s.dev := rfl
@[simp] theorem State.setCore_thatch (s : State) (k : CoreId) (x : Core) : (s.setCore k x).thatch = s.thatch := rfl
@[simp] theorem State.setCore_ranges (s : State) (k : CoreId) (x : Core) : (s.setCore k x).ranges = s.ranges := rfl
@[simp] theorem State.setCore_sent (s : State) (k : CoreId) (x : Core) : (s.setCore k x).sent = s.sent := rfl
@[simp] theorem State.setCore_links (s : State) (k : CoreId) (x : Core) : (s.setCore k x).links = s.links := rfl
@[simp] theorem State.setCore_orphans (s : State) (k : CoreId) (x : Core) : (s.setCore k x).orphans = s.orphans := rfl
@[simp] theorem State.setCore_out (s : State) (k : CoreId) (x : Core) : (s.setCore k x).out = s.out := rfl

/-! setCluster -/

@[simp] theorem State.setCluster_cycle (s : State) (k : ClusterId) (x : Cluster) : (s.setCluster k x).cycle = s.cycle := rfl
@[simp] theorem State.setCluster_phase0 (s : State) (k : ClusterId) (x : Cluster) : (s.setCluster k x).phase0 = s.phase0 := rfl
@[simp] theorem State.setCluster_phase1 (s : State) (k : ClusterId) (x : Cluster) : (s.setCluster k x).phase1 = s.phase1 := rfl
@[simp] theorem State.setCluster_slotted (s : State) (k : ClusterId) (x : Cluster) : (s.setCluster k x).slotted = s.slotted := rfl
@[simp] theorem State.setCluster_todo (s : State) (k : ClusterId) (x : Cluster) : (s.setCluster k x).todo = s.todo := rfl
@[simp] theorem State.setCluster_agenda (s : State) (k : ClusterId) (x : Cluster) : (s.setCluster k x).agenda = s.agenda := rfl
@[simp] theorem State.setCluster_fresh (s : State) (k : ClusterId) (x : Cluster) : (s.setCluster k x).fresh = s.fresh := rfl
@[simp] theorem State.setCluster_draws (s : State) (k : ClusterId) (x : Cluster) : (s.setCluster k x).draws = s.draws := rfl
@[simp] theorem State.setCluster_cur (s : State) (k : ClusterId) (x : Cluster) : (s.setCluster k x).cur = s.cur := rfl
@[simp] theorem State.setCluster_stage (s : State) (k : ClusterId) (x : Cluster) : (s.setCluster k x).stage = s.stage := rfl
@[simp] theorem State.setCluster_ev (s : State) (k : ClusterId) (x : Cluster) : (s.setCluster k x).ev = s.ev := rfl
@[simp] theorem State.setCluster_ctxs (s : State) (k : ClusterId) (x : Cluster) : (s.setCluster k x).ctxs = s.ctxs := rfl
@[simp] theorem State.setCluster_cores (s : State) (k : ClusterId) (x : Cluster) : (s.setCluster k x).cores = s.cores := rfl
@[simp] theorem State.setCluster_clusters (s : State) (k : ClusterId) (x : Cluster) : (s.setCluster k x).clusters = Tab.set s.clusters k x := rfl
@[simp] theorem State.setCluster_looms (s : State) (k : ClusterId) (x : Cluster) : (s.setCluster k x).looms = s.looms := rfl
@[simp] theorem State.setCluster_slices (s : State) (k : ClusterId) (x : Cluster) : (s.setCluster k x).slices = s.slices := rfl
@[simp] theorem State.setCluster_lines (s : State) (k : ClusterId) (x : Cluster) : (s.setCluster k x).lines = s.lines := rfl
@[simp] theorem State.setCluster_mem (s : State) (k : ClusterId) (x : Cluster) : (s.setCluster k x).mem = s.mem := rfl
@[simp] theorem State.setCluster_empties (s : State) (k : ClusterId) (x : Cluster) : (s.setCluster k x).empties = s.empties := rfl
@[simp] theorem State.setCluster_dev (s : State) (k : ClusterId) (x : Cluster) : (s.setCluster k x).dev = s.dev := rfl
@[simp] theorem State.setCluster_thatch (s : State) (k : ClusterId) (x : Cluster) : (s.setCluster k x).thatch = s.thatch := rfl
@[simp] theorem State.setCluster_ranges (s : State) (k : ClusterId) (x : Cluster) : (s.setCluster k x).ranges = s.ranges := rfl
@[simp] theorem State.setCluster_sent (s : State) (k : ClusterId) (x : Cluster) : (s.setCluster k x).sent = s.sent := rfl
@[simp] theorem State.setCluster_links (s : State) (k : ClusterId) (x : Cluster) : (s.setCluster k x).links = s.links := rfl
@[simp] theorem State.setCluster_orphans (s : State) (k : ClusterId) (x : Cluster) : (s.setCluster k x).orphans = s.orphans := rfl
@[simp] theorem State.setCluster_out (s : State) (k : ClusterId) (x : Cluster) : (s.setCluster k x).out = s.out := rfl

/-! setLoom -/

@[simp] theorem State.setLoom_cycle (s : State) (k : ClusterId) (x : Loom) : (s.setLoom k x).cycle = s.cycle := rfl
@[simp] theorem State.setLoom_phase0 (s : State) (k : ClusterId) (x : Loom) : (s.setLoom k x).phase0 = s.phase0 := rfl
@[simp] theorem State.setLoom_phase1 (s : State) (k : ClusterId) (x : Loom) : (s.setLoom k x).phase1 = s.phase1 := rfl
@[simp] theorem State.setLoom_slotted (s : State) (k : ClusterId) (x : Loom) : (s.setLoom k x).slotted = s.slotted := rfl
@[simp] theorem State.setLoom_todo (s : State) (k : ClusterId) (x : Loom) : (s.setLoom k x).todo = s.todo := rfl
@[simp] theorem State.setLoom_agenda (s : State) (k : ClusterId) (x : Loom) : (s.setLoom k x).agenda = s.agenda := rfl
@[simp] theorem State.setLoom_fresh (s : State) (k : ClusterId) (x : Loom) : (s.setLoom k x).fresh = s.fresh := rfl
@[simp] theorem State.setLoom_draws (s : State) (k : ClusterId) (x : Loom) : (s.setLoom k x).draws = s.draws := rfl
@[simp] theorem State.setLoom_cur (s : State) (k : ClusterId) (x : Loom) : (s.setLoom k x).cur = s.cur := rfl
@[simp] theorem State.setLoom_stage (s : State) (k : ClusterId) (x : Loom) : (s.setLoom k x).stage = s.stage := rfl
@[simp] theorem State.setLoom_ev (s : State) (k : ClusterId) (x : Loom) : (s.setLoom k x).ev = s.ev := rfl
@[simp] theorem State.setLoom_ctxs (s : State) (k : ClusterId) (x : Loom) : (s.setLoom k x).ctxs = s.ctxs := rfl
@[simp] theorem State.setLoom_cores (s : State) (k : ClusterId) (x : Loom) : (s.setLoom k x).cores = s.cores := rfl
@[simp] theorem State.setLoom_clusters (s : State) (k : ClusterId) (x : Loom) : (s.setLoom k x).clusters = s.clusters := rfl
@[simp] theorem State.setLoom_looms (s : State) (k : ClusterId) (x : Loom) : (s.setLoom k x).looms = Tab.set s.looms k x := rfl
@[simp] theorem State.setLoom_slices (s : State) (k : ClusterId) (x : Loom) : (s.setLoom k x).slices = s.slices := rfl
@[simp] theorem State.setLoom_lines (s : State) (k : ClusterId) (x : Loom) : (s.setLoom k x).lines = s.lines := rfl
@[simp] theorem State.setLoom_mem (s : State) (k : ClusterId) (x : Loom) : (s.setLoom k x).mem = s.mem := rfl
@[simp] theorem State.setLoom_empties (s : State) (k : ClusterId) (x : Loom) : (s.setLoom k x).empties = s.empties := rfl
@[simp] theorem State.setLoom_dev (s : State) (k : ClusterId) (x : Loom) : (s.setLoom k x).dev = s.dev := rfl
@[simp] theorem State.setLoom_thatch (s : State) (k : ClusterId) (x : Loom) : (s.setLoom k x).thatch = s.thatch := rfl
@[simp] theorem State.setLoom_ranges (s : State) (k : ClusterId) (x : Loom) : (s.setLoom k x).ranges = s.ranges := rfl
@[simp] theorem State.setLoom_sent (s : State) (k : ClusterId) (x : Loom) : (s.setLoom k x).sent = s.sent := rfl
@[simp] theorem State.setLoom_links (s : State) (k : ClusterId) (x : Loom) : (s.setLoom k x).links = s.links := rfl
@[simp] theorem State.setLoom_orphans (s : State) (k : ClusterId) (x : Loom) : (s.setLoom k x).orphans = s.orphans := rfl
@[simp] theorem State.setLoom_out (s : State) (k : ClusterId) (x : Loom) : (s.setLoom k x).out = s.out := rfl

/-! setSlice -/

@[simp] theorem State.setSlice_cycle (s : State) (k : SliceId) (x : Slice) : (s.setSlice k x).cycle = s.cycle := rfl
@[simp] theorem State.setSlice_phase0 (s : State) (k : SliceId) (x : Slice) : (s.setSlice k x).phase0 = s.phase0 := rfl
@[simp] theorem State.setSlice_phase1 (s : State) (k : SliceId) (x : Slice) : (s.setSlice k x).phase1 = s.phase1 := rfl
@[simp] theorem State.setSlice_slotted (s : State) (k : SliceId) (x : Slice) : (s.setSlice k x).slotted = s.slotted := rfl
@[simp] theorem State.setSlice_todo (s : State) (k : SliceId) (x : Slice) : (s.setSlice k x).todo = s.todo := rfl
@[simp] theorem State.setSlice_agenda (s : State) (k : SliceId) (x : Slice) : (s.setSlice k x).agenda = s.agenda := rfl
@[simp] theorem State.setSlice_fresh (s : State) (k : SliceId) (x : Slice) : (s.setSlice k x).fresh = s.fresh := rfl
@[simp] theorem State.setSlice_draws (s : State) (k : SliceId) (x : Slice) : (s.setSlice k x).draws = s.draws := rfl
@[simp] theorem State.setSlice_cur (s : State) (k : SliceId) (x : Slice) : (s.setSlice k x).cur = s.cur := rfl
@[simp] theorem State.setSlice_stage (s : State) (k : SliceId) (x : Slice) : (s.setSlice k x).stage = s.stage := rfl
@[simp] theorem State.setSlice_ev (s : State) (k : SliceId) (x : Slice) : (s.setSlice k x).ev = s.ev := rfl
@[simp] theorem State.setSlice_ctxs (s : State) (k : SliceId) (x : Slice) : (s.setSlice k x).ctxs = s.ctxs := rfl
@[simp] theorem State.setSlice_cores (s : State) (k : SliceId) (x : Slice) : (s.setSlice k x).cores = s.cores := rfl
@[simp] theorem State.setSlice_clusters (s : State) (k : SliceId) (x : Slice) : (s.setSlice k x).clusters = s.clusters := rfl
@[simp] theorem State.setSlice_looms (s : State) (k : SliceId) (x : Slice) : (s.setSlice k x).looms = s.looms := rfl
@[simp] theorem State.setSlice_slices (s : State) (k : SliceId) (x : Slice) : (s.setSlice k x).slices = Tab.set s.slices k x := rfl
@[simp] theorem State.setSlice_lines (s : State) (k : SliceId) (x : Slice) : (s.setSlice k x).lines = s.lines := rfl
@[simp] theorem State.setSlice_mem (s : State) (k : SliceId) (x : Slice) : (s.setSlice k x).mem = s.mem := rfl
@[simp] theorem State.setSlice_empties (s : State) (k : SliceId) (x : Slice) : (s.setSlice k x).empties = s.empties := rfl
@[simp] theorem State.setSlice_dev (s : State) (k : SliceId) (x : Slice) : (s.setSlice k x).dev = s.dev := rfl
@[simp] theorem State.setSlice_thatch (s : State) (k : SliceId) (x : Slice) : (s.setSlice k x).thatch = s.thatch := rfl
@[simp] theorem State.setSlice_ranges (s : State) (k : SliceId) (x : Slice) : (s.setSlice k x).ranges = s.ranges := rfl
@[simp] theorem State.setSlice_sent (s : State) (k : SliceId) (x : Slice) : (s.setSlice k x).sent = s.sent := rfl
@[simp] theorem State.setSlice_links (s : State) (k : SliceId) (x : Slice) : (s.setSlice k x).links = s.links := rfl
@[simp] theorem State.setSlice_orphans (s : State) (k : SliceId) (x : Slice) : (s.setSlice k x).orphans = s.orphans := rfl
@[simp] theorem State.setSlice_out (s : State) (k : SliceId) (x : Slice) : (s.setSlice k x).out = s.out := rfl

/-! setLine -/

@[simp] theorem State.setLine_cycle (s : State) (n : Nat) (x : Line) : (s.setLine n x).cycle = s.cycle := rfl
@[simp] theorem State.setLine_phase0 (s : State) (n : Nat) (x : Line) : (s.setLine n x).phase0 = s.phase0 := rfl
@[simp] theorem State.setLine_phase1 (s : State) (n : Nat) (x : Line) : (s.setLine n x).phase1 = s.phase1 := rfl
@[simp] theorem State.setLine_slotted (s : State) (n : Nat) (x : Line) : (s.setLine n x).slotted = s.slotted := rfl
@[simp] theorem State.setLine_todo (s : State) (n : Nat) (x : Line) : (s.setLine n x).todo = s.todo := rfl
@[simp] theorem State.setLine_agenda (s : State) (n : Nat) (x : Line) : (s.setLine n x).agenda = s.agenda := rfl
@[simp] theorem State.setLine_fresh (s : State) (n : Nat) (x : Line) : (s.setLine n x).fresh = s.fresh := rfl
@[simp] theorem State.setLine_draws (s : State) (n : Nat) (x : Line) : (s.setLine n x).draws = s.draws := rfl
@[simp] theorem State.setLine_cur (s : State) (n : Nat) (x : Line) : (s.setLine n x).cur = s.cur := rfl
@[simp] theorem State.setLine_stage (s : State) (n : Nat) (x : Line) : (s.setLine n x).stage = s.stage := rfl
@[simp] theorem State.setLine_ev (s : State) (n : Nat) (x : Line) : (s.setLine n x).ev = s.ev := rfl
@[simp] theorem State.setLine_ctxs (s : State) (n : Nat) (x : Line) : (s.setLine n x).ctxs = s.ctxs := rfl
@[simp] theorem State.setLine_cores (s : State) (n : Nat) (x : Line) : (s.setLine n x).cores = s.cores := rfl
@[simp] theorem State.setLine_clusters (s : State) (n : Nat) (x : Line) : (s.setLine n x).clusters = s.clusters := rfl
@[simp] theorem State.setLine_looms (s : State) (n : Nat) (x : Line) : (s.setLine n x).looms = s.looms := rfl
@[simp] theorem State.setLine_slices (s : State) (n : Nat) (x : Line) : (s.setLine n x).slices = s.slices := rfl
@[simp] theorem State.setLine_lines (s : State) (n : Nat) (x : Line) : (s.setLine n x).lines = Tab.set s.lines n x := rfl
@[simp] theorem State.setLine_mem (s : State) (n : Nat) (x : Line) : (s.setLine n x).mem = s.mem := rfl
@[simp] theorem State.setLine_empties (s : State) (n : Nat) (x : Line) : (s.setLine n x).empties = s.empties := rfl
@[simp] theorem State.setLine_dev (s : State) (n : Nat) (x : Line) : (s.setLine n x).dev = s.dev := rfl
@[simp] theorem State.setLine_thatch (s : State) (n : Nat) (x : Line) : (s.setLine n x).thatch = s.thatch := rfl
@[simp] theorem State.setLine_ranges (s : State) (n : Nat) (x : Line) : (s.setLine n x).ranges = s.ranges := rfl
@[simp] theorem State.setLine_sent (s : State) (n : Nat) (x : Line) : (s.setLine n x).sent = s.sent := rfl
@[simp] theorem State.setLine_links (s : State) (n : Nat) (x : Line) : (s.setLine n x).links = s.links := rfl
@[simp] theorem State.setLine_orphans (s : State) (n : Nat) (x : Line) : (s.setLine n x).orphans = s.orphans := rfl
@[simp] theorem State.setLine_out (s : State) (n : Nat) (x : Line) : (s.setLine n x).out = s.out := rfl

/-! setMe -/

@[simp] theorem State.setMe_cycle (s : State) (x : Ctx) : (s.setMe x).cycle = s.cycle := rfl
@[simp] theorem State.setMe_phase0 (s : State) (x : Ctx) : (s.setMe x).phase0 = s.phase0 := rfl
@[simp] theorem State.setMe_phase1 (s : State) (x : Ctx) : (s.setMe x).phase1 = s.phase1 := rfl
@[simp] theorem State.setMe_slotted (s : State) (x : Ctx) : (s.setMe x).slotted = s.slotted := rfl
@[simp] theorem State.setMe_todo (s : State) (x : Ctx) : (s.setMe x).todo = s.todo := rfl
@[simp] theorem State.setMe_agenda (s : State) (x : Ctx) : (s.setMe x).agenda = s.agenda := rfl
@[simp] theorem State.setMe_fresh (s : State) (x : Ctx) : (s.setMe x).fresh = s.fresh := rfl
@[simp] theorem State.setMe_draws (s : State) (x : Ctx) : (s.setMe x).draws = s.draws := rfl
@[simp] theorem State.setMe_cur (s : State) (x : Ctx) : (s.setMe x).cur = s.cur := rfl
@[simp] theorem State.setMe_stage (s : State) (x : Ctx) : (s.setMe x).stage = s.stage := rfl
@[simp] theorem State.setMe_ev (s : State) (x : Ctx) : (s.setMe x).ev = s.ev := rfl
@[simp] theorem State.setMe_ctxs (s : State) (x : Ctx) : (s.setMe x).ctxs = Tab.set s.ctxs s.cur x := rfl
@[simp] theorem State.setMe_cores (s : State) (x : Ctx) : (s.setMe x).cores = s.cores := rfl
@[simp] theorem State.setMe_clusters (s : State) (x : Ctx) : (s.setMe x).clusters = s.clusters := rfl
@[simp] theorem State.setMe_looms (s : State) (x : Ctx) : (s.setMe x).looms = s.looms := rfl
@[simp] theorem State.setMe_slices (s : State) (x : Ctx) : (s.setMe x).slices = s.slices := rfl
@[simp] theorem State.setMe_lines (s : State) (x : Ctx) : (s.setMe x).lines = s.lines := rfl
@[simp] theorem State.setMe_mem (s : State) (x : Ctx) : (s.setMe x).mem = s.mem := rfl
@[simp] theorem State.setMe_empties (s : State) (x : Ctx) : (s.setMe x).empties = s.empties := rfl
@[simp] theorem State.setMe_dev (s : State) (x : Ctx) : (s.setMe x).dev = s.dev := rfl
@[simp] theorem State.setMe_thatch (s : State) (x : Ctx) : (s.setMe x).thatch = s.thatch := rfl
@[simp] theorem State.setMe_ranges (s : State) (x : Ctx) : (s.setMe x).ranges = s.ranges := rfl
@[simp] theorem State.setMe_sent (s : State) (x : Ctx) : (s.setMe x).sent = s.sent := rfl
@[simp] theorem State.setMe_links (s : State) (x : Ctx) : (s.setMe x).links = s.links := rfl
@[simp] theorem State.setMe_orphans (s : State) (x : Ctx) : (s.setMe x).orphans = s.orphans := rfl
@[simp] theorem State.setMe_out (s : State) (x : Ctx) : (s.setMe x).out = s.out := rfl

/-! put -/

@[simp] theorem State.put_cycle (s : State) (d : BitVec 4) (v : W64) : (s.put d v).cycle = s.cycle := rfl
@[simp] theorem State.put_phase0 (s : State) (d : BitVec 4) (v : W64) : (s.put d v).phase0 = s.phase0 := rfl
@[simp] theorem State.put_phase1 (s : State) (d : BitVec 4) (v : W64) : (s.put d v).phase1 = s.phase1 := rfl
@[simp] theorem State.put_slotted (s : State) (d : BitVec 4) (v : W64) : (s.put d v).slotted = s.slotted := rfl
@[simp] theorem State.put_todo (s : State) (d : BitVec 4) (v : W64) : (s.put d v).todo = s.todo := rfl
@[simp] theorem State.put_agenda (s : State) (d : BitVec 4) (v : W64) : (s.put d v).agenda = s.agenda := rfl
@[simp] theorem State.put_fresh (s : State) (d : BitVec 4) (v : W64) : (s.put d v).fresh = s.fresh := rfl
@[simp] theorem State.put_draws (s : State) (d : BitVec 4) (v : W64) : (s.put d v).draws = s.draws := rfl
@[simp] theorem State.put_cur (s : State) (d : BitVec 4) (v : W64) : (s.put d v).cur = s.cur := rfl
@[simp] theorem State.put_stage (s : State) (d : BitVec 4) (v : W64) : (s.put d v).stage = s.stage := rfl
@[simp] theorem State.put_ev (s : State) (d : BitVec 4) (v : W64) : (s.put d v).ev = s.ev := rfl
@[simp] theorem State.put_ctxs (s : State) (d : BitVec 4) (v : W64) : (s.put d v).ctxs = Tab.set s.ctxs s.cur ((s.me.wr d v).adv) := rfl
@[simp] theorem State.put_cores (s : State) (d : BitVec 4) (v : W64) : (s.put d v).cores = s.cores := rfl
@[simp] theorem State.put_clusters (s : State) (d : BitVec 4) (v : W64) : (s.put d v).clusters = s.clusters := rfl
@[simp] theorem State.put_looms (s : State) (d : BitVec 4) (v : W64) : (s.put d v).looms = s.looms := rfl
@[simp] theorem State.put_slices (s : State) (d : BitVec 4) (v : W64) : (s.put d v).slices = s.slices := rfl
@[simp] theorem State.put_lines (s : State) (d : BitVec 4) (v : W64) : (s.put d v).lines = s.lines := rfl
@[simp] theorem State.put_mem (s : State) (d : BitVec 4) (v : W64) : (s.put d v).mem = s.mem := rfl
@[simp] theorem State.put_empties (s : State) (d : BitVec 4) (v : W64) : (s.put d v).empties = s.empties := rfl
@[simp] theorem State.put_dev (s : State) (d : BitVec 4) (v : W64) : (s.put d v).dev = s.dev := rfl
@[simp] theorem State.put_thatch (s : State) (d : BitVec 4) (v : W64) : (s.put d v).thatch = s.thatch := rfl
@[simp] theorem State.put_ranges (s : State) (d : BitVec 4) (v : W64) : (s.put d v).ranges = s.ranges := rfl
@[simp] theorem State.put_sent (s : State) (d : BitVec 4) (v : W64) : (s.put d v).sent = s.sent := rfl
@[simp] theorem State.put_links (s : State) (d : BitVec 4) (v : W64) : (s.put d v).links = s.links := rfl
@[simp] theorem State.put_orphans (s : State) (d : BitVec 4) (v : W64) : (s.put d v).orphans = s.orphans := rfl
@[simp] theorem State.put_out (s : State) (d : BitVec 4) (v : W64) : (s.put d v).out = s.out := rfl

/-! setGang -/

@[simp] theorem State.setGang_cycle (s : State) (g : Nat) (x : Gang) : (s.setGang g x).cycle = s.cycle := rfl
@[simp] theorem State.setGang_phase0 (s : State) (g : Nat) (x : Gang) : (s.setGang g x).phase0 = s.phase0 := rfl
@[simp] theorem State.setGang_phase1 (s : State) (g : Nat) (x : Gang) : (s.setGang g x).phase1 = s.phase1 := rfl
@[simp] theorem State.setGang_slotted (s : State) (g : Nat) (x : Gang) : (s.setGang g x).slotted = s.slotted := rfl
@[simp] theorem State.setGang_todo (s : State) (g : Nat) (x : Gang) : (s.setGang g x).todo = s.todo := rfl
@[simp] theorem State.setGang_agenda (s : State) (g : Nat) (x : Gang) : (s.setGang g x).agenda = s.agenda := rfl
@[simp] theorem State.setGang_fresh (s : State) (g : Nat) (x : Gang) : (s.setGang g x).fresh = s.fresh := rfl
@[simp] theorem State.setGang_draws (s : State) (g : Nat) (x : Gang) : (s.setGang g x).draws = s.draws := rfl
@[simp] theorem State.setGang_cur (s : State) (g : Nat) (x : Gang) : (s.setGang g x).cur = s.cur := rfl
@[simp] theorem State.setGang_stage (s : State) (g : Nat) (x : Gang) : (s.setGang g x).stage = s.stage := rfl
@[simp] theorem State.setGang_ev (s : State) (g : Nat) (x : Gang) : (s.setGang g x).ev = s.ev := rfl
@[simp] theorem State.setGang_ctxs (s : State) (g : Nat) (x : Gang) : (s.setGang g x).ctxs = s.ctxs := rfl
@[simp] theorem State.setGang_cores (s : State) (g : Nat) (x : Gang) : (s.setGang g x).cores = s.cores := rfl
@[simp] theorem State.setGang_clusters (s : State) (g : Nat) (x : Gang) : (s.setGang g x).clusters = s.clusters := rfl
@[simp] theorem State.setGang_looms (s : State) (g : Nat) (x : Gang) : (s.setGang g x).looms = s.looms := rfl
@[simp] theorem State.setGang_slices (s : State) (g : Nat) (x : Gang) : (s.setGang g x).slices = s.slices := rfl
@[simp] theorem State.setGang_lines (s : State) (g : Nat) (x : Gang) : (s.setGang g x).lines = s.lines := rfl
@[simp] theorem State.setGang_mem (s : State) (g : Nat) (x : Gang) : (s.setGang g x).mem = s.mem := rfl
@[simp] theorem State.setGang_empties (s : State) (g : Nat) (x : Gang) : (s.setGang g x).empties = s.empties := rfl
@[simp] theorem State.setGang_dev (s : State) (g : Nat) (x : Gang) : (s.setGang g x).dev = { s.dev with gangs := Tab.set s.dev.gangs g x } := rfl
@[simp] theorem State.setGang_thatch (s : State) (g : Nat) (x : Gang) : (s.setGang g x).thatch = s.thatch := rfl
@[simp] theorem State.setGang_ranges (s : State) (g : Nat) (x : Gang) : (s.setGang g x).ranges = s.ranges := rfl
@[simp] theorem State.setGang_sent (s : State) (g : Nat) (x : Gang) : (s.setGang g x).sent = s.sent := rfl
@[simp] theorem State.setGang_links (s : State) (g : Nat) (x : Gang) : (s.setGang g x).links = s.links := rfl
@[simp] theorem State.setGang_orphans (s : State) (g : Nat) (x : Gang) : (s.setGang g x).orphans = s.orphans := rfl
@[simp] theorem State.setGang_out (s : State) (g : Nat) (x : Gang) : (s.setGang g x).out = s.out := rfl

/-! tick1 -/

@[simp] theorem State.tick1_cycle (s : State) : (s.tick1).cycle = s.cycle := rfl
@[simp] theorem State.tick1_phase0 (s : State) : (s.tick1).phase0 = s.phase0 := rfl
@[simp] theorem State.tick1_phase1 (s : State) : (s.tick1).phase1 = s.phase1 := rfl
@[simp] theorem State.tick1_slotted (s : State) : (s.tick1).slotted = s.slotted := rfl
@[simp] theorem State.tick1_todo (s : State) : (s.tick1).todo = s.todo := rfl
@[simp] theorem State.tick1_agenda (s : State) : (s.tick1).agenda = s.agenda := rfl
@[simp] theorem State.tick1_fresh (s : State) : (s.tick1).fresh = s.fresh + 1 := rfl
@[simp] theorem State.tick1_draws (s : State) : (s.tick1).draws = s.draws := rfl
@[simp] theorem State.tick1_cur (s : State) : (s.tick1).cur = s.cur := rfl
@[simp] theorem State.tick1_stage (s : State) : (s.tick1).stage = s.stage := rfl
@[simp] theorem State.tick1_ev (s : State) : (s.tick1).ev = s.ev := rfl
@[simp] theorem State.tick1_ctxs (s : State) : (s.tick1).ctxs = s.ctxs := rfl
@[simp] theorem State.tick1_cores (s : State) : (s.tick1).cores = s.cores := rfl
@[simp] theorem State.tick1_clusters (s : State) : (s.tick1).clusters = s.clusters := rfl
@[simp] theorem State.tick1_looms (s : State) : (s.tick1).looms = s.looms := rfl
@[simp] theorem State.tick1_slices (s : State) : (s.tick1).slices = s.slices := rfl
@[simp] theorem State.tick1_lines (s : State) : (s.tick1).lines = s.lines := rfl
@[simp] theorem State.tick1_mem (s : State) : (s.tick1).mem = s.mem := rfl
@[simp] theorem State.tick1_empties (s : State) : (s.tick1).empties = s.empties := rfl
@[simp] theorem State.tick1_dev (s : State) : (s.tick1).dev = s.dev := rfl
@[simp] theorem State.tick1_thatch (s : State) : (s.tick1).thatch = s.thatch := rfl
@[simp] theorem State.tick1_ranges (s : State) : (s.tick1).ranges = s.ranges := rfl
@[simp] theorem State.tick1_sent (s : State) : (s.tick1).sent = s.sent := rfl
@[simp] theorem State.tick1_links (s : State) : (s.tick1).links = s.links := rfl
@[simp] theorem State.tick1_orphans (s : State) : (s.tick1).orphans = s.orphans := rfl
@[simp] theorem State.tick1_out (s : State) : (s.tick1).out = s.out := rfl

/-! now -/

@[simp] theorem State.now_cycle (s : State) (e : Ev) : (s.now e).cycle = s.cycle := rfl
@[simp] theorem State.now_phase0 (s : State) (e : Ev) : (s.now e).phase0 = s.phase0 := rfl
@[simp] theorem State.now_phase1 (s : State) (e : Ev) : (s.now e).phase1 = s.phase1 := rfl
@[simp] theorem State.now_slotted (s : State) (e : Ev) : (s.now e).slotted = s.slotted := rfl
@[simp] theorem State.now_todo (s : State) (e : Ev) : (s.now e).todo = { act := .ev e } :: s.todo := rfl
@[simp] theorem State.now_agenda (s : State) (e : Ev) : (s.now e).agenda = s.agenda := rfl
@[simp] theorem State.now_fresh (s : State) (e : Ev) : (s.now e).fresh = s.fresh := rfl
@[simp] theorem State.now_draws (s : State) (e : Ev) : (s.now e).draws = s.draws := rfl
@[simp] theorem State.now_cur (s : State) (e : Ev) : (s.now e).cur = s.cur := rfl
@[simp] theorem State.now_stage (s : State) (e : Ev) : (s.now e).stage = s.stage := rfl
@[simp] theorem State.now_ev (s : State) (e : Ev) : (s.now e).ev = s.ev := rfl
@[simp] theorem State.now_ctxs (s : State) (e : Ev) : (s.now e).ctxs = s.ctxs := rfl
@[simp] theorem State.now_cores (s : State) (e : Ev) : (s.now e).cores = s.cores := rfl
@[simp] theorem State.now_clusters (s : State) (e : Ev) : (s.now e).clusters = s.clusters := rfl
@[simp] theorem State.now_looms (s : State) (e : Ev) : (s.now e).looms = s.looms := rfl
@[simp] theorem State.now_slices (s : State) (e : Ev) : (s.now e).slices = s.slices := rfl
@[simp] theorem State.now_lines (s : State) (e : Ev) : (s.now e).lines = s.lines := rfl
@[simp] theorem State.now_mem (s : State) (e : Ev) : (s.now e).mem = s.mem := rfl
@[simp] theorem State.now_empties (s : State) (e : Ev) : (s.now e).empties = s.empties := rfl
@[simp] theorem State.now_dev (s : State) (e : Ev) : (s.now e).dev = s.dev := rfl
@[simp] theorem State.now_thatch (s : State) (e : Ev) : (s.now e).thatch = s.thatch := rfl
@[simp] theorem State.now_ranges (s : State) (e : Ev) : (s.now e).ranges = s.ranges := rfl
@[simp] theorem State.now_sent (s : State) (e : Ev) : (s.now e).sent = s.sent := rfl
@[simp] theorem State.now_links (s : State) (e : Ev) : (s.now e).links = s.links := rfl
@[simp] theorem State.now_orphans (s : State) (e : Ev) : (s.now e).orphans = s.orphans := rfl
@[simp] theorem State.now_out (s : State) (e : Ev) : (s.now e).out = s.out := rfl

/-! soon -/

@[simp] theorem State.soon_cycle (s : State) (e : Ev) : (s.soon e).cycle = s.cycle := rfl
@[simp] theorem State.soon_phase0 (s : State) (e : Ev) : (s.soon e).phase0 = s.phase0 := rfl
@[simp] theorem State.soon_phase1 (s : State) (e : Ev) : (s.soon e).phase1 = s.phase1 := rfl
@[simp] theorem State.soon_slotted (s : State) (e : Ev) : (s.soon e).slotted = s.slotted := rfl
@[simp] theorem State.soon_todo (s : State) (e : Ev) : (s.soon e).todo = s.todo ++ [{ act := .ev e }] := rfl
@[simp] theorem State.soon_agenda (s : State) (e : Ev) : (s.soon e).agenda = s.agenda := rfl
@[simp] theorem State.soon_fresh (s : State) (e : Ev) : (s.soon e).fresh = s.fresh := rfl
@[simp] theorem State.soon_draws (s : State) (e : Ev) : (s.soon e).draws = s.draws := rfl
@[simp] theorem State.soon_cur (s : State) (e : Ev) : (s.soon e).cur = s.cur := rfl
@[simp] theorem State.soon_stage (s : State) (e : Ev) : (s.soon e).stage = s.stage := rfl
@[simp] theorem State.soon_ev (s : State) (e : Ev) : (s.soon e).ev = s.ev := rfl
@[simp] theorem State.soon_ctxs (s : State) (e : Ev) : (s.soon e).ctxs = s.ctxs := rfl
@[simp] theorem State.soon_cores (s : State) (e : Ev) : (s.soon e).cores = s.cores := rfl
@[simp] theorem State.soon_clusters (s : State) (e : Ev) : (s.soon e).clusters = s.clusters := rfl
@[simp] theorem State.soon_looms (s : State) (e : Ev) : (s.soon e).looms = s.looms := rfl
@[simp] theorem State.soon_slices (s : State) (e : Ev) : (s.soon e).slices = s.slices := rfl
@[simp] theorem State.soon_lines (s : State) (e : Ev) : (s.soon e).lines = s.lines := rfl
@[simp] theorem State.soon_mem (s : State) (e : Ev) : (s.soon e).mem = s.mem := rfl
@[simp] theorem State.soon_empties (s : State) (e : Ev) : (s.soon e).empties = s.empties := rfl
@[simp] theorem State.soon_dev (s : State) (e : Ev) : (s.soon e).dev = s.dev := rfl
@[simp] theorem State.soon_thatch (s : State) (e : Ev) : (s.soon e).thatch = s.thatch := rfl
@[simp] theorem State.soon_ranges (s : State) (e : Ev) : (s.soon e).ranges = s.ranges := rfl
@[simp] theorem State.soon_sent (s : State) (e : Ev) : (s.soon e).sent = s.sent := rfl
@[simp] theorem State.soon_links (s : State) (e : Ev) : (s.soon e).links = s.links := rfl
@[simp] theorem State.soon_orphans (s : State) (e : Ev) : (s.soon e).orphans = s.orphans := rfl
@[simp] theorem State.soon_out (s : State) (e : Ev) : (s.soon e).out = s.out := rfl

/-! nowFor -/

@[simp] theorem State.nowFor_cycle (s : State) (c : CtxId) (n : Nat) (i : Instr) : (s.nowFor c n i).cycle = s.cycle := rfl
@[simp] theorem State.nowFor_phase0 (s : State) (c : CtxId) (n : Nat) (i : Instr) : (s.nowFor c n i).phase0 = s.phase0 := rfl
@[simp] theorem State.nowFor_phase1 (s : State) (c : CtxId) (n : Nat) (i : Instr) : (s.nowFor c n i).phase1 = s.phase1 := rfl
@[simp] theorem State.nowFor_slotted (s : State) (c : CtxId) (n : Nat) (i : Instr) : (s.nowFor c n i).slotted = s.slotted := rfl
@[simp] theorem State.nowFor_todo (s : State) (c : CtxId) (n : Nat) (i : Instr) : (s.nowFor c n i).todo = { who := c, stage := n, act := .run i } :: s.todo := rfl
@[simp] theorem State.nowFor_agenda (s : State) (c : CtxId) (n : Nat) (i : Instr) : (s.nowFor c n i).agenda = s.agenda := rfl
@[simp] theorem State.nowFor_fresh (s : State) (c : CtxId) (n : Nat) (i : Instr) : (s.nowFor c n i).fresh = s.fresh := rfl
@[simp] theorem State.nowFor_draws (s : State) (c : CtxId) (n : Nat) (i : Instr) : (s.nowFor c n i).draws = s.draws := rfl
@[simp] theorem State.nowFor_cur (s : State) (c : CtxId) (n : Nat) (i : Instr) : (s.nowFor c n i).cur = s.cur := rfl
@[simp] theorem State.nowFor_stage (s : State) (c : CtxId) (n : Nat) (i : Instr) : (s.nowFor c n i).stage = s.stage := rfl
@[simp] theorem State.nowFor_ev (s : State) (c : CtxId) (n : Nat) (i : Instr) : (s.nowFor c n i).ev = s.ev := rfl
@[simp] theorem State.nowFor_ctxs (s : State) (c : CtxId) (n : Nat) (i : Instr) : (s.nowFor c n i).ctxs = s.ctxs := rfl
@[simp] theorem State.nowFor_cores (s : State) (c : CtxId) (n : Nat) (i : Instr) : (s.nowFor c n i).cores = s.cores := rfl
@[simp] theorem State.nowFor_clusters (s : State) (c : CtxId) (n : Nat) (i : Instr) : (s.nowFor c n i).clusters = s.clusters := rfl
@[simp] theorem State.nowFor_looms (s : State) (c : CtxId) (n : Nat) (i : Instr) : (s.nowFor c n i).looms = s.looms := rfl
@[simp] theorem State.nowFor_slices (s : State) (c : CtxId) (n : Nat) (i : Instr) : (s.nowFor c n i).slices = s.slices := rfl
@[simp] theorem State.nowFor_lines (s : State) (c : CtxId) (n : Nat) (i : Instr) : (s.nowFor c n i).lines = s.lines := rfl
@[simp] theorem State.nowFor_mem (s : State) (c : CtxId) (n : Nat) (i : Instr) : (s.nowFor c n i).mem = s.mem := rfl
@[simp] theorem State.nowFor_empties (s : State) (c : CtxId) (n : Nat) (i : Instr) : (s.nowFor c n i).empties = s.empties := rfl
@[simp] theorem State.nowFor_dev (s : State) (c : CtxId) (n : Nat) (i : Instr) : (s.nowFor c n i).dev = s.dev := rfl
@[simp] theorem State.nowFor_thatch (s : State) (c : CtxId) (n : Nat) (i : Instr) : (s.nowFor c n i).thatch = s.thatch := rfl
@[simp] theorem State.nowFor_ranges (s : State) (c : CtxId) (n : Nat) (i : Instr) : (s.nowFor c n i).ranges = s.ranges := rfl
@[simp] theorem State.nowFor_sent (s : State) (c : CtxId) (n : Nat) (i : Instr) : (s.nowFor c n i).sent = s.sent := rfl
@[simp] theorem State.nowFor_links (s : State) (c : CtxId) (n : Nat) (i : Instr) : (s.nowFor c n i).links = s.links := rfl
@[simp] theorem State.nowFor_orphans (s : State) (c : CtxId) (n : Nat) (i : Instr) : (s.nowFor c n i).orphans = s.orphans := rfl
@[simp] theorem State.nowFor_out (s : State) (c : CtxId) (n : Nat) (i : Instr) : (s.nowFor c n i).out = s.out := rfl

/-! eventAt -/

@[simp] theorem State.eventAt_cycle (s : State) (t o : Nat) (e : Ev) : (s.eventAt t o e).cycle = s.cycle := rfl
@[simp] theorem State.eventAt_phase0 (s : State) (t o : Nat) (e : Ev) : (s.eventAt t o e).phase0 = s.phase0 := rfl
@[simp] theorem State.eventAt_phase1 (s : State) (t o : Nat) (e : Ev) : (s.eventAt t o e).phase1 = s.phase1 := rfl
@[simp] theorem State.eventAt_slotted (s : State) (t o : Nat) (e : Ev) : (s.eventAt t o e).slotted = s.slotted := rfl
@[simp] theorem State.eventAt_todo (s : State) (t o : Nat) (e : Ev) : (s.eventAt t o e).todo = s.todo := rfl
@[simp] theorem State.eventAt_agenda (s : State) (t o : Nat) (e : Ev) : (s.eventAt t o e).agenda = insertEntry { due := t, ord := o, seq := s.fresh, act := .ev e } s.agenda := rfl
@[simp] theorem State.eventAt_fresh (s : State) (t o : Nat) (e : Ev) : (s.eventAt t o e).fresh = s.fresh + 1 := rfl
@[simp] theorem State.eventAt_draws (s : State) (t o : Nat) (e : Ev) : (s.eventAt t o e).draws = s.draws := rfl
@[simp] theorem State.eventAt_cur (s : State) (t o : Nat) (e : Ev) : (s.eventAt t o e).cur = s.cur := rfl
@[simp] theorem State.eventAt_stage (s : State) (t o : Nat) (e : Ev) : (s.eventAt t o e).stage = s.stage := rfl
@[simp] theorem State.eventAt_ev (s : State) (t o : Nat) (e : Ev) : (s.eventAt t o e).ev = s.ev := rfl
@[simp] theorem State.eventAt_ctxs (s : State) (t o : Nat) (e : Ev) : (s.eventAt t o e).ctxs = s.ctxs := rfl
@[simp] theorem State.eventAt_cores (s : State) (t o : Nat) (e : Ev) : (s.eventAt t o e).cores = s.cores := rfl
@[simp] theorem State.eventAt_clusters (s : State) (t o : Nat) (e : Ev) : (s.eventAt t o e).clusters = s.clusters := rfl
@[simp] theorem State.eventAt_looms (s : State) (t o : Nat) (e : Ev) : (s.eventAt t o e).looms = s.looms := rfl
@[simp] theorem State.eventAt_slices (s : State) (t o : Nat) (e : Ev) : (s.eventAt t o e).slices = s.slices := rfl
@[simp] theorem State.eventAt_lines (s : State) (t o : Nat) (e : Ev) : (s.eventAt t o e).lines = s.lines := rfl
@[simp] theorem State.eventAt_mem (s : State) (t o : Nat) (e : Ev) : (s.eventAt t o e).mem = s.mem := rfl
@[simp] theorem State.eventAt_empties (s : State) (t o : Nat) (e : Ev) : (s.eventAt t o e).empties = s.empties := rfl
@[simp] theorem State.eventAt_dev (s : State) (t o : Nat) (e : Ev) : (s.eventAt t o e).dev = s.dev := rfl
@[simp] theorem State.eventAt_thatch (s : State) (t o : Nat) (e : Ev) : (s.eventAt t o e).thatch = s.thatch := rfl
@[simp] theorem State.eventAt_ranges (s : State) (t o : Nat) (e : Ev) : (s.eventAt t o e).ranges = s.ranges := rfl
@[simp] theorem State.eventAt_sent (s : State) (t o : Nat) (e : Ev) : (s.eventAt t o e).sent = s.sent := rfl
@[simp] theorem State.eventAt_links (s : State) (t o : Nat) (e : Ev) : (s.eventAt t o e).links = s.links := rfl
@[simp] theorem State.eventAt_orphans (s : State) (t o : Nat) (e : Ev) : (s.eventAt t o e).orphans = s.orphans := rfl
@[simp] theorem State.eventAt_out (s : State) (t o : Nat) (e : Ev) : (s.eventAt t o e).out = s.out := rfl

/-! later -/

@[simp] theorem State.later_cycle (s : State) (t o : Nat) (e : Ev) : (s.later t o e).cycle = s.cycle := rfl
@[simp] theorem State.later_phase0 (s : State) (t o : Nat) (e : Ev) : (s.later t o e).phase0 = s.phase0 := rfl
@[simp] theorem State.later_phase1 (s : State) (t o : Nat) (e : Ev) : (s.later t o e).phase1 = s.phase1 := rfl
@[simp] theorem State.later_slotted (s : State) (t o : Nat) (e : Ev) : (s.later t o e).slotted = s.slotted := rfl
@[simp] theorem State.later_todo (s : State) (t o : Nat) (e : Ev) : (s.later t o e).todo = s.todo := rfl
@[simp] theorem State.later_agenda (s : State) (t o : Nat) (e : Ev) : (s.later t o e).agenda = insertEntry { due := s.cycle + t, ord := o, seq := s.fresh, act := .ev e } s.agenda := rfl
@[simp] theorem State.later_fresh (s : State) (t o : Nat) (e : Ev) : (s.later t o e).fresh = s.fresh + 1 := rfl
@[simp] theorem State.later_draws (s : State) (t o : Nat) (e : Ev) : (s.later t o e).draws = s.draws := rfl
@[simp] theorem State.later_cur (s : State) (t o : Nat) (e : Ev) : (s.later t o e).cur = s.cur := rfl
@[simp] theorem State.later_stage (s : State) (t o : Nat) (e : Ev) : (s.later t o e).stage = s.stage := rfl
@[simp] theorem State.later_ev (s : State) (t o : Nat) (e : Ev) : (s.later t o e).ev = s.ev := rfl
@[simp] theorem State.later_ctxs (s : State) (t o : Nat) (e : Ev) : (s.later t o e).ctxs = s.ctxs := rfl
@[simp] theorem State.later_cores (s : State) (t o : Nat) (e : Ev) : (s.later t o e).cores = s.cores := rfl
@[simp] theorem State.later_clusters (s : State) (t o : Nat) (e : Ev) : (s.later t o e).clusters = s.clusters := rfl
@[simp] theorem State.later_looms (s : State) (t o : Nat) (e : Ev) : (s.later t o e).looms = s.looms := rfl
@[simp] theorem State.later_slices (s : State) (t o : Nat) (e : Ev) : (s.later t o e).slices = s.slices := rfl
@[simp] theorem State.later_lines (s : State) (t o : Nat) (e : Ev) : (s.later t o e).lines = s.lines := rfl
@[simp] theorem State.later_mem (s : State) (t o : Nat) (e : Ev) : (s.later t o e).mem = s.mem := rfl
@[simp] theorem State.later_empties (s : State) (t o : Nat) (e : Ev) : (s.later t o e).empties = s.empties := rfl
@[simp] theorem State.later_dev (s : State) (t o : Nat) (e : Ev) : (s.later t o e).dev = s.dev := rfl
@[simp] theorem State.later_thatch (s : State) (t o : Nat) (e : Ev) : (s.later t o e).thatch = s.thatch := rfl
@[simp] theorem State.later_ranges (s : State) (t o : Nat) (e : Ev) : (s.later t o e).ranges = s.ranges := rfl
@[simp] theorem State.later_sent (s : State) (t o : Nat) (e : Ev) : (s.later t o e).sent = s.sent := rfl
@[simp] theorem State.later_links (s : State) (t o : Nat) (e : Ev) : (s.later t o e).links = s.links := rfl
@[simp] theorem State.later_orphans (s : State) (t o : Nat) (e : Ev) : (s.later t o e).orphans = s.orphans := rfl
@[simp] theorem State.later_out (s : State) (t o : Nat) (e : Ev) : (s.later t o e).out = s.out := rfl

/-! schedule -/

@[simp] theorem State.schedule_cycle (s : State) (t o : Nat) (c : CtxId) (n : Nat) (i : Instr) : (s.schedule t o c n i).cycle = s.cycle := rfl
@[simp] theorem State.schedule_phase0 (s : State) (t o : Nat) (c : CtxId) (n : Nat) (i : Instr) : (s.schedule t o c n i).phase0 = s.phase0 := rfl
@[simp] theorem State.schedule_phase1 (s : State) (t o : Nat) (c : CtxId) (n : Nat) (i : Instr) : (s.schedule t o c n i).phase1 = s.phase1 := rfl
@[simp] theorem State.schedule_slotted (s : State) (t o : Nat) (c : CtxId) (n : Nat) (i : Instr) : (s.schedule t o c n i).slotted = s.slotted := rfl
@[simp] theorem State.schedule_todo (s : State) (t o : Nat) (c : CtxId) (n : Nat) (i : Instr) : (s.schedule t o c n i).todo = s.todo := rfl
@[simp] theorem State.schedule_agenda (s : State) (t o : Nat) (c : CtxId) (n : Nat) (i : Instr) : (s.schedule t o c n i).agenda = insertEntry { due := t, ord := o, seq := s.fresh, who := c, stage := n, act := .run i } s.agenda := rfl
@[simp] theorem State.schedule_fresh (s : State) (t o : Nat) (c : CtxId) (n : Nat) (i : Instr) : (s.schedule t o c n i).fresh = s.fresh + 1 := rfl
@[simp] theorem State.schedule_draws (s : State) (t o : Nat) (c : CtxId) (n : Nat) (i : Instr) : (s.schedule t o c n i).draws = s.draws := rfl
@[simp] theorem State.schedule_cur (s : State) (t o : Nat) (c : CtxId) (n : Nat) (i : Instr) : (s.schedule t o c n i).cur = s.cur := rfl
@[simp] theorem State.schedule_stage (s : State) (t o : Nat) (c : CtxId) (n : Nat) (i : Instr) : (s.schedule t o c n i).stage = s.stage := rfl
@[simp] theorem State.schedule_ev (s : State) (t o : Nat) (c : CtxId) (n : Nat) (i : Instr) : (s.schedule t o c n i).ev = s.ev := rfl
@[simp] theorem State.schedule_ctxs (s : State) (t o : Nat) (c : CtxId) (n : Nat) (i : Instr) : (s.schedule t o c n i).ctxs = s.ctxs := rfl
@[simp] theorem State.schedule_cores (s : State) (t o : Nat) (c : CtxId) (n : Nat) (i : Instr) : (s.schedule t o c n i).cores = s.cores := rfl
@[simp] theorem State.schedule_clusters (s : State) (t o : Nat) (c : CtxId) (n : Nat) (i : Instr) : (s.schedule t o c n i).clusters = s.clusters := rfl
@[simp] theorem State.schedule_looms (s : State) (t o : Nat) (c : CtxId) (n : Nat) (i : Instr) : (s.schedule t o c n i).looms = s.looms := rfl
@[simp] theorem State.schedule_slices (s : State) (t o : Nat) (c : CtxId) (n : Nat) (i : Instr) : (s.schedule t o c n i).slices = s.slices := rfl
@[simp] theorem State.schedule_lines (s : State) (t o : Nat) (c : CtxId) (n : Nat) (i : Instr) : (s.schedule t o c n i).lines = s.lines := rfl
@[simp] theorem State.schedule_mem (s : State) (t o : Nat) (c : CtxId) (n : Nat) (i : Instr) : (s.schedule t o c n i).mem = s.mem := rfl
@[simp] theorem State.schedule_empties (s : State) (t o : Nat) (c : CtxId) (n : Nat) (i : Instr) : (s.schedule t o c n i).empties = s.empties := rfl
@[simp] theorem State.schedule_dev (s : State) (t o : Nat) (c : CtxId) (n : Nat) (i : Instr) : (s.schedule t o c n i).dev = s.dev := rfl
@[simp] theorem State.schedule_thatch (s : State) (t o : Nat) (c : CtxId) (n : Nat) (i : Instr) : (s.schedule t o c n i).thatch = s.thatch := rfl
@[simp] theorem State.schedule_ranges (s : State) (t o : Nat) (c : CtxId) (n : Nat) (i : Instr) : (s.schedule t o c n i).ranges = s.ranges := rfl
@[simp] theorem State.schedule_sent (s : State) (t o : Nat) (c : CtxId) (n : Nat) (i : Instr) : (s.schedule t o c n i).sent = s.sent := rfl
@[simp] theorem State.schedule_links (s : State) (t o : Nat) (c : CtxId) (n : Nat) (i : Instr) : (s.schedule t o c n i).links = s.links := rfl
@[simp] theorem State.schedule_orphans (s : State) (t o : Nat) (c : CtxId) (n : Nat) (i : Instr) : (s.schedule t o c n i).orphans = s.orphans := rfl
@[simp] theorem State.schedule_out (s : State) (t o : Nat) (c : CtxId) (n : Nat) (i : Instr) : (s.schedule t o c n i).out = s.out := rfl

/-! send -/

@[simp] theorem State.send_cycle (s : State) (m : OutMsg) : (s.send m).cycle = s.cycle := rfl
@[simp] theorem State.send_phase0 (s : State) (m : OutMsg) : (s.send m).phase0 = s.phase0 := rfl
@[simp] theorem State.send_phase1 (s : State) (m : OutMsg) : (s.send m).phase1 = s.phase1 := rfl
@[simp] theorem State.send_slotted (s : State) (m : OutMsg) : (s.send m).slotted = s.slotted := rfl
@[simp] theorem State.send_todo (s : State) (m : OutMsg) : (s.send m).todo = s.todo := rfl
@[simp] theorem State.send_agenda (s : State) (m : OutMsg) : (s.send m).agenda = s.agenda := rfl
@[simp] theorem State.send_fresh (s : State) (m : OutMsg) : (s.send m).fresh = s.fresh := rfl
@[simp] theorem State.send_draws (s : State) (m : OutMsg) : (s.send m).draws = s.draws := rfl
@[simp] theorem State.send_cur (s : State) (m : OutMsg) : (s.send m).cur = s.cur := rfl
@[simp] theorem State.send_stage (s : State) (m : OutMsg) : (s.send m).stage = s.stage := rfl
@[simp] theorem State.send_ev (s : State) (m : OutMsg) : (s.send m).ev = s.ev := rfl
@[simp] theorem State.send_ctxs (s : State) (m : OutMsg) : (s.send m).ctxs = s.ctxs := rfl
@[simp] theorem State.send_cores (s : State) (m : OutMsg) : (s.send m).cores = s.cores := rfl
@[simp] theorem State.send_clusters (s : State) (m : OutMsg) : (s.send m).clusters = s.clusters := rfl
@[simp] theorem State.send_looms (s : State) (m : OutMsg) : (s.send m).looms = s.looms := rfl
@[simp] theorem State.send_slices (s : State) (m : OutMsg) : (s.send m).slices = s.slices := rfl
@[simp] theorem State.send_lines (s : State) (m : OutMsg) : (s.send m).lines = s.lines := rfl
@[simp] theorem State.send_mem (s : State) (m : OutMsg) : (s.send m).mem = s.mem := rfl
@[simp] theorem State.send_empties (s : State) (m : OutMsg) : (s.send m).empties = s.empties := rfl
@[simp] theorem State.send_dev (s : State) (m : OutMsg) : (s.send m).dev = s.dev := rfl
@[simp] theorem State.send_thatch (s : State) (m : OutMsg) : (s.send m).thatch = s.thatch := rfl
@[simp] theorem State.send_ranges (s : State) (m : OutMsg) : (s.send m).ranges = s.ranges := rfl
@[simp] theorem State.send_sent (s : State) (m : OutMsg) : (s.send m).sent = s.sent := rfl
@[simp] theorem State.send_links (s : State) (m : OutMsg) : (s.send m).links = s.links := rfl
@[simp] theorem State.send_orphans (s : State) (m : OutMsg) : (s.send m).orphans = s.orphans := rfl
@[simp] theorem State.send_out (s : State) (m : OutMsg) : (s.send m).out = s.out ++ [m] := rfl

/-! unschedule -/

@[simp] theorem State.unschedule_cycle (s : State) (p : Entry → Bool) : (s.unschedule p).cycle = s.cycle := rfl
@[simp] theorem State.unschedule_phase0 (s : State) (p : Entry → Bool) : (s.unschedule p).phase0 = s.phase0 := rfl
@[simp] theorem State.unschedule_phase1 (s : State) (p : Entry → Bool) : (s.unschedule p).phase1 = s.phase1 := rfl
@[simp] theorem State.unschedule_slotted (s : State) (p : Entry → Bool) : (s.unschedule p).slotted = s.slotted := rfl
@[simp] theorem State.unschedule_todo (s : State) (p : Entry → Bool) : (s.unschedule p).todo = s.todo := rfl
@[simp] theorem State.unschedule_agenda (s : State) (p : Entry → Bool) : (s.unschedule p).agenda = s.agenda.filter (fun e => !p e) := rfl
@[simp] theorem State.unschedule_fresh (s : State) (p : Entry → Bool) : (s.unschedule p).fresh = s.fresh := rfl
@[simp] theorem State.unschedule_draws (s : State) (p : Entry → Bool) : (s.unschedule p).draws = s.draws := rfl
@[simp] theorem State.unschedule_cur (s : State) (p : Entry → Bool) : (s.unschedule p).cur = s.cur := rfl
@[simp] theorem State.unschedule_stage (s : State) (p : Entry → Bool) : (s.unschedule p).stage = s.stage := rfl
@[simp] theorem State.unschedule_ev (s : State) (p : Entry → Bool) : (s.unschedule p).ev = s.ev := rfl
@[simp] theorem State.unschedule_ctxs (s : State) (p : Entry → Bool) : (s.unschedule p).ctxs = s.ctxs := rfl
@[simp] theorem State.unschedule_cores (s : State) (p : Entry → Bool) : (s.unschedule p).cores = s.cores := rfl
@[simp] theorem State.unschedule_clusters (s : State) (p : Entry → Bool) : (s.unschedule p).clusters = s.clusters := rfl
@[simp] theorem State.unschedule_looms (s : State) (p : Entry → Bool) : (s.unschedule p).looms = s.looms := rfl
@[simp] theorem State.unschedule_slices (s : State) (p : Entry → Bool) : (s.unschedule p).slices = s.slices := rfl
@[simp] theorem State.unschedule_lines (s : State) (p : Entry → Bool) : (s.unschedule p).lines = s.lines := rfl
@[simp] theorem State.unschedule_mem (s : State) (p : Entry → Bool) : (s.unschedule p).mem = s.mem := rfl
@[simp] theorem State.unschedule_empties (s : State) (p : Entry → Bool) : (s.unschedule p).empties = s.empties := rfl
@[simp] theorem State.unschedule_dev (s : State) (p : Entry → Bool) : (s.unschedule p).dev = s.dev := rfl
@[simp] theorem State.unschedule_thatch (s : State) (p : Entry → Bool) : (s.unschedule p).thatch = s.thatch := rfl
@[simp] theorem State.unschedule_ranges (s : State) (p : Entry → Bool) : (s.unschedule p).ranges = s.ranges := rfl
@[simp] theorem State.unschedule_sent (s : State) (p : Entry → Bool) : (s.unschedule p).sent = s.sent := rfl
@[simp] theorem State.unschedule_links (s : State) (p : Entry → Bool) : (s.unschedule p).links = s.links := rfl
@[simp] theorem State.unschedule_orphans (s : State) (p : Entry → Bool) : (s.unschedule p).orphans = s.orphans := rfl
@[simp] theorem State.unschedule_out (s : State) (p : Entry → Bool) : (s.unschedule p).out = s.out := rfl

/-! setEmpty -/

@[simp] theorem State.setEmpty_cycle (s : State) (w : Nat) (e : Bool) : (s.setEmpty w e).cycle = s.cycle := rfl
@[simp] theorem State.setEmpty_phase0 (s : State) (w : Nat) (e : Bool) : (s.setEmpty w e).phase0 = s.phase0 := rfl
@[simp] theorem State.setEmpty_phase1 (s : State) (w : Nat) (e : Bool) : (s.setEmpty w e).phase1 = s.phase1 := rfl
@[simp] theorem State.setEmpty_slotted (s : State) (w : Nat) (e : Bool) : (s.setEmpty w e).slotted = s.slotted := rfl
@[simp] theorem State.setEmpty_todo (s : State) (w : Nat) (e : Bool) : (s.setEmpty w e).todo = s.todo := rfl
@[simp] theorem State.setEmpty_agenda (s : State) (w : Nat) (e : Bool) : (s.setEmpty w e).agenda = s.agenda := rfl
@[simp] theorem State.setEmpty_fresh (s : State) (w : Nat) (e : Bool) : (s.setEmpty w e).fresh = s.fresh := rfl
@[simp] theorem State.setEmpty_draws (s : State) (w : Nat) (e : Bool) : (s.setEmpty w e).draws = s.draws := rfl
@[simp] theorem State.setEmpty_cur (s : State) (w : Nat) (e : Bool) : (s.setEmpty w e).cur = s.cur := rfl
@[simp] theorem State.setEmpty_stage (s : State) (w : Nat) (e : Bool) : (s.setEmpty w e).stage = s.stage := rfl
@[simp] theorem State.setEmpty_ev (s : State) (w : Nat) (e : Bool) : (s.setEmpty w e).ev = s.ev := rfl
@[simp] theorem State.setEmpty_ctxs (s : State) (w : Nat) (e : Bool) : (s.setEmpty w e).ctxs = s.ctxs := rfl
@[simp] theorem State.setEmpty_cores (s : State) (w : Nat) (e : Bool) : (s.setEmpty w e).cores = s.cores := rfl
@[simp] theorem State.setEmpty_clusters (s : State) (w : Nat) (e : Bool) : (s.setEmpty w e).clusters = s.clusters := rfl
@[simp] theorem State.setEmpty_looms (s : State) (w : Nat) (e : Bool) : (s.setEmpty w e).looms = s.looms := rfl
@[simp] theorem State.setEmpty_slices (s : State) (w : Nat) (e : Bool) : (s.setEmpty w e).slices = s.slices := rfl
@[simp] theorem State.setEmpty_lines (s : State) (w : Nat) (e : Bool) : (s.setEmpty w e).lines = s.lines := rfl
@[simp] theorem State.setEmpty_mem (s : State) (w : Nat) (e : Bool) : (s.setEmpty w e).mem = s.mem := rfl
@[simp] theorem State.setEmpty_empties (s : State) (w : Nat) (e : Bool) : (s.setEmpty w e).empties = if e then insertNat w s.empties else s.empties.filter (· != w) := rfl
@[simp] theorem State.setEmpty_dev (s : State) (w : Nat) (e : Bool) : (s.setEmpty w e).dev = s.dev := rfl
@[simp] theorem State.setEmpty_thatch (s : State) (w : Nat) (e : Bool) : (s.setEmpty w e).thatch = s.thatch := rfl
@[simp] theorem State.setEmpty_ranges (s : State) (w : Nat) (e : Bool) : (s.setEmpty w e).ranges = s.ranges := rfl
@[simp] theorem State.setEmpty_sent (s : State) (w : Nat) (e : Bool) : (s.setEmpty w e).sent = s.sent := rfl
@[simp] theorem State.setEmpty_links (s : State) (w : Nat) (e : Bool) : (s.setEmpty w e).links = s.links := rfl
@[simp] theorem State.setEmpty_orphans (s : State) (w : Nat) (e : Bool) : (s.setEmpty w e).orphans = s.orphans := rfl
@[simp] theorem State.setEmpty_out (s : State) (w : Nat) (e : Bool) : (s.setEmpty w e).out = s.out := rfl

/-! wake -/

@[simp] theorem State.wake_cycle (s : State) (c : CtxId) : (s.wake c).cycle = s.cycle := rfl
@[simp] theorem State.wake_phase0 (s : State) (c : CtxId) : (s.wake c).phase0 = s.phase0 := rfl
@[simp] theorem State.wake_phase1 (s : State) (c : CtxId) : (s.wake c).phase1 = s.phase1 := rfl
@[simp] theorem State.wake_slotted (s : State) (c : CtxId) : (s.wake c).slotted = s.slotted := rfl
@[simp] theorem State.wake_todo (s : State) (c : CtxId) : (s.wake c).todo = s.todo := rfl
@[simp] theorem State.wake_agenda (s : State) (c : CtxId) : (s.wake c).agenda = s.agenda := rfl
@[simp] theorem State.wake_fresh (s : State) (c : CtxId) : (s.wake c).fresh = s.fresh := rfl
@[simp] theorem State.wake_draws (s : State) (c : CtxId) : (s.wake c).draws = s.draws := rfl
@[simp] theorem State.wake_cur (s : State) (c : CtxId) : (s.wake c).cur = s.cur := rfl
@[simp] theorem State.wake_stage (s : State) (c : CtxId) : (s.wake c).stage = s.stage := rfl
@[simp] theorem State.wake_ev (s : State) (c : CtxId) : (s.wake c).ev = s.ev := rfl
@[simp] theorem State.wake_ctxs (s : State) (c : CtxId) : (s.wake c).ctxs = Tab.set s.ctxs c { s.ctx c with st := .issuing, why := .none, readyAt := s.cycle + 1 } := rfl
@[simp] theorem State.wake_cores (s : State) (c : CtxId) : (s.wake c).cores = s.cores := rfl
@[simp] theorem State.wake_clusters (s : State) (c : CtxId) : (s.wake c).clusters = s.clusters := rfl
@[simp] theorem State.wake_looms (s : State) (c : CtxId) : (s.wake c).looms = s.looms := rfl
@[simp] theorem State.wake_slices (s : State) (c : CtxId) : (s.wake c).slices = s.slices := rfl
@[simp] theorem State.wake_lines (s : State) (c : CtxId) : (s.wake c).lines = s.lines := rfl
@[simp] theorem State.wake_mem (s : State) (c : CtxId) : (s.wake c).mem = s.mem := rfl
@[simp] theorem State.wake_empties (s : State) (c : CtxId) : (s.wake c).empties = s.empties := rfl
@[simp] theorem State.wake_dev (s : State) (c : CtxId) : (s.wake c).dev = s.dev := rfl
@[simp] theorem State.wake_thatch (s : State) (c : CtxId) : (s.wake c).thatch = s.thatch := rfl
@[simp] theorem State.wake_ranges (s : State) (c : CtxId) : (s.wake c).ranges = s.ranges := rfl
@[simp] theorem State.wake_sent (s : State) (c : CtxId) : (s.wake c).sent = s.sent := rfl
@[simp] theorem State.wake_links (s : State) (c : CtxId) : (s.wake c).links = s.links := rfl
@[simp] theorem State.wake_orphans (s : State) (c : CtxId) : (s.wake c).orphans = s.orphans := rfl
@[simp] theorem State.wake_out (s : State) (c : CtxId) : (s.wake c).out = s.out := rfl

/-! park -/

@[simp] theorem State.park_cycle (s : State) (c : CtxId) (st : CtxState) (w : Why) : (s.park c st w).cycle = s.cycle := rfl
@[simp] theorem State.park_phase0 (s : State) (c : CtxId) (st : CtxState) (w : Why) : (s.park c st w).phase0 = s.phase0 := rfl
@[simp] theorem State.park_phase1 (s : State) (c : CtxId) (st : CtxState) (w : Why) : (s.park c st w).phase1 = s.phase1 := rfl
@[simp] theorem State.park_slotted (s : State) (c : CtxId) (st : CtxState) (w : Why) : (s.park c st w).slotted = s.slotted := rfl
@[simp] theorem State.park_todo (s : State) (c : CtxId) (st : CtxState) (w : Why) : (s.park c st w).todo = s.todo := rfl
@[simp] theorem State.park_agenda (s : State) (c : CtxId) (st : CtxState) (w : Why) : (s.park c st w).agenda = s.agenda := rfl
@[simp] theorem State.park_fresh (s : State) (c : CtxId) (st : CtxState) (w : Why) : (s.park c st w).fresh = s.fresh := rfl
@[simp] theorem State.park_draws (s : State) (c : CtxId) (st : CtxState) (w : Why) : (s.park c st w).draws = s.draws := rfl
@[simp] theorem State.park_cur (s : State) (c : CtxId) (st : CtxState) (w : Why) : (s.park c st w).cur = s.cur := rfl
@[simp] theorem State.park_stage (s : State) (c : CtxId) (st : CtxState) (w : Why) : (s.park c st w).stage = s.stage := rfl
@[simp] theorem State.park_ev (s : State) (c : CtxId) (st : CtxState) (w : Why) : (s.park c st w).ev = s.ev := rfl
@[simp] theorem State.park_ctxs (s : State) (c : CtxId) (st : CtxState) (w : Why) : (s.park c st w).ctxs = Tab.set s.ctxs c { s.ctx c with st := st, why := w, epoch := (s.ctx c).epoch + 1 } := rfl
@[simp] theorem State.park_cores (s : State) (c : CtxId) (st : CtxState) (w : Why) : (s.park c st w).cores = s.cores := rfl
@[simp] theorem State.park_clusters (s : State) (c : CtxId) (st : CtxState) (w : Why) : (s.park c st w).clusters = s.clusters := rfl
@[simp] theorem State.park_looms (s : State) (c : CtxId) (st : CtxState) (w : Why) : (s.park c st w).looms = s.looms := rfl
@[simp] theorem State.park_slices (s : State) (c : CtxId) (st : CtxState) (w : Why) : (s.park c st w).slices = s.slices := rfl
@[simp] theorem State.park_lines (s : State) (c : CtxId) (st : CtxState) (w : Why) : (s.park c st w).lines = s.lines := rfl
@[simp] theorem State.park_mem (s : State) (c : CtxId) (st : CtxState) (w : Why) : (s.park c st w).mem = s.mem := rfl
@[simp] theorem State.park_empties (s : State) (c : CtxId) (st : CtxState) (w : Why) : (s.park c st w).empties = s.empties := rfl
@[simp] theorem State.park_dev (s : State) (c : CtxId) (st : CtxState) (w : Why) : (s.park c st w).dev = s.dev := rfl
@[simp] theorem State.park_thatch (s : State) (c : CtxId) (st : CtxState) (w : Why) : (s.park c st w).thatch = s.thatch := rfl
@[simp] theorem State.park_ranges (s : State) (c : CtxId) (st : CtxState) (w : Why) : (s.park c st w).ranges = s.ranges := rfl
@[simp] theorem State.park_sent (s : State) (c : CtxId) (st : CtxState) (w : Why) : (s.park c st w).sent = s.sent := rfl
@[simp] theorem State.park_links (s : State) (c : CtxId) (st : CtxState) (w : Why) : (s.park c st w).links = s.links := rfl
@[simp] theorem State.park_orphans (s : State) (c : CtxId) (st : CtxState) (w : Why) : (s.park c st w).orphans = s.orphans := rfl
@[simp] theorem State.park_out (s : State) (c : CtxId) (st : CtxState) (w : Why) : (s.park c st w).out = s.out := rfl

/-! One unit after an update of a unit. -/

@[simp] theorem State.ctx_setCtx (s : State) (k : CtxId) (x : Ctx) : (s.setCtx k x).ctx k = x := Tab.get_set_same _ _ _ _
theorem State.ctx_setCtx_ne (s : State) (k j : CtxId) (x : Ctx) (h : j ≠ k) : (s.setCtx k x).ctx j = s.ctx j := Tab.get_set_other _ _ _ _ _ h
@[simp] theorem State.core_setCtx (s : State) (k : CtxId) (x : Ctx) (j : CoreId) : (s.setCtx k x).core j = s.core j := rfl
@[simp] theorem State.cluster_setCtx (s : State) (k : CtxId) (x : Ctx) (j : ClusterId) : (s.setCtx k x).cluster j = s.cluster j := rfl
@[simp] theorem State.loom_setCtx (s : State) (k : CtxId) (x : Ctx) (j : ClusterId) : (s.setCtx k x).loom j = s.loom j := rfl
@[simp] theorem State.slice_setCtx (s : State) (k : CtxId) (x : Ctx) (j : SliceId) : (s.setCtx k x).slice j = s.slice j := rfl
@[simp] theorem State.line_setCtx (s : State) (k : CtxId) (x : Ctx) (j : Nat) : (s.setCtx k x).line j = s.line j := rfl
@[simp] theorem State.core_setCore (s : State) (k : CoreId) (x : Core) : (s.setCore k x).core k = x := Tab.get_set_same _ _ _ _
theorem State.core_setCore_ne (s : State) (k j : CoreId) (x : Core) (h : j ≠ k) : (s.setCore k x).core j = s.core j := Tab.get_set_other _ _ _ _ _ h
@[simp] theorem State.ctx_setCore (s : State) (k : CoreId) (x : Core) (j : CtxId) : (s.setCore k x).ctx j = s.ctx j := rfl
@[simp] theorem State.cluster_setCore (s : State) (k : CoreId) (x : Core) (j : ClusterId) : (s.setCore k x).cluster j = s.cluster j := rfl
@[simp] theorem State.loom_setCore (s : State) (k : CoreId) (x : Core) (j : ClusterId) : (s.setCore k x).loom j = s.loom j := rfl
@[simp] theorem State.slice_setCore (s : State) (k : CoreId) (x : Core) (j : SliceId) : (s.setCore k x).slice j = s.slice j := rfl
@[simp] theorem State.line_setCore (s : State) (k : CoreId) (x : Core) (j : Nat) : (s.setCore k x).line j = s.line j := rfl
@[simp] theorem State.cluster_setCluster (s : State) (k : ClusterId) (x : Cluster) : (s.setCluster k x).cluster k = x := Tab.get_set_same _ _ _ _
theorem State.cluster_setCluster_ne (s : State) (k j : ClusterId) (x : Cluster) (h : j ≠ k) : (s.setCluster k x).cluster j = s.cluster j := Tab.get_set_other _ _ _ _ _ h
@[simp] theorem State.ctx_setCluster (s : State) (k : ClusterId) (x : Cluster) (j : CtxId) : (s.setCluster k x).ctx j = s.ctx j := rfl
@[simp] theorem State.core_setCluster (s : State) (k : ClusterId) (x : Cluster) (j : CoreId) : (s.setCluster k x).core j = s.core j := rfl
@[simp] theorem State.loom_setCluster (s : State) (k : ClusterId) (x : Cluster) (j : ClusterId) : (s.setCluster k x).loom j = s.loom j := rfl
@[simp] theorem State.slice_setCluster (s : State) (k : ClusterId) (x : Cluster) (j : SliceId) : (s.setCluster k x).slice j = s.slice j := rfl
@[simp] theorem State.line_setCluster (s : State) (k : ClusterId) (x : Cluster) (j : Nat) : (s.setCluster k x).line j = s.line j := rfl
@[simp] theorem State.loom_setLoom (s : State) (k : ClusterId) (x : Loom) : (s.setLoom k x).loom k = x := Tab.get_set_same _ _ _ _
theorem State.loom_setLoom_ne (s : State) (k j : ClusterId) (x : Loom) (h : j ≠ k) : (s.setLoom k x).loom j = s.loom j := Tab.get_set_other _ _ _ _ _ h
@[simp] theorem State.ctx_setLoom (s : State) (k : ClusterId) (x : Loom) (j : CtxId) : (s.setLoom k x).ctx j = s.ctx j := rfl
@[simp] theorem State.core_setLoom (s : State) (k : ClusterId) (x : Loom) (j : CoreId) : (s.setLoom k x).core j = s.core j := rfl
@[simp] theorem State.cluster_setLoom (s : State) (k : ClusterId) (x : Loom) (j : ClusterId) : (s.setLoom k x).cluster j = s.cluster j := rfl
@[simp] theorem State.slice_setLoom (s : State) (k : ClusterId) (x : Loom) (j : SliceId) : (s.setLoom k x).slice j = s.slice j := rfl
@[simp] theorem State.line_setLoom (s : State) (k : ClusterId) (x : Loom) (j : Nat) : (s.setLoom k x).line j = s.line j := rfl
@[simp] theorem State.slice_setSlice (s : State) (k : SliceId) (x : Slice) : (s.setSlice k x).slice k = x := Tab.get_set_same _ _ _ _
theorem State.slice_setSlice_ne (s : State) (k j : SliceId) (x : Slice) (h : j ≠ k) : (s.setSlice k x).slice j = s.slice j := Tab.get_set_other _ _ _ _ _ h
@[simp] theorem State.ctx_setSlice (s : State) (k : SliceId) (x : Slice) (j : CtxId) : (s.setSlice k x).ctx j = s.ctx j := rfl
@[simp] theorem State.core_setSlice (s : State) (k : SliceId) (x : Slice) (j : CoreId) : (s.setSlice k x).core j = s.core j := rfl
@[simp] theorem State.cluster_setSlice (s : State) (k : SliceId) (x : Slice) (j : ClusterId) : (s.setSlice k x).cluster j = s.cluster j := rfl
@[simp] theorem State.loom_setSlice (s : State) (k : SliceId) (x : Slice) (j : ClusterId) : (s.setSlice k x).loom j = s.loom j := rfl
@[simp] theorem State.line_setSlice (s : State) (k : SliceId) (x : Slice) (j : Nat) : (s.setSlice k x).line j = s.line j := rfl
@[simp] theorem State.line_setLine (s : State) (k : Nat) (x : Line) : (s.setLine k x).line k = x := Tab.get_set_same _ _ _ _
theorem State.line_setLine_ne (s : State) (k j : Nat) (x : Line) (h : j ≠ k) : (s.setLine k x).line j = s.line j := Tab.get_set_other _ _ _ _ _ h
@[simp] theorem State.ctx_setLine (s : State) (k : Nat) (x : Line) (j : CtxId) : (s.setLine k x).ctx j = s.ctx j := rfl
@[simp] theorem State.core_setLine (s : State) (k : Nat) (x : Line) (j : CoreId) : (s.setLine k x).core j = s.core j := rfl
@[simp] theorem State.cluster_setLine (s : State) (k : Nat) (x : Line) (j : ClusterId) : (s.setLine k x).cluster j = s.cluster j := rfl
@[simp] theorem State.loom_setLine (s : State) (k : Nat) (x : Line) (j : ClusterId) : (s.setLine k x).loom j = s.loom j := rfl
@[simp] theorem State.slice_setLine (s : State) (k : Nat) (x : Line) (j : SliceId) : (s.setLine k x).slice j = s.slice j := rfl
@[simp] theorem State.setCtx_setCtx (s : State) (k : CtxId) (x y : Ctx) : (s.setCtx k x).setCtx k y = s.setCtx k y := by
  simp only [State.setCtx, Tab.set_set]
@[simp] theorem State.setCore_setCore (s : State) (k : CoreId) (x y : Core) : (s.setCore k x).setCore k y = s.setCore k y := by
  simp only [State.setCore, Tab.set_set]
@[simp] theorem State.setCluster_setCluster (s : State) (k : ClusterId) (x y : Cluster) : (s.setCluster k x).setCluster k y = s.setCluster k y := by
  simp only [State.setCluster, Tab.set_set]
@[simp] theorem State.setLoom_setLoom (s : State) (k : ClusterId) (x y : Loom) : (s.setLoom k x).setLoom k y = s.setLoom k y := by
  simp only [State.setLoom, Tab.set_set]
@[simp] theorem State.setSlice_setSlice (s : State) (k : SliceId) (x y : Slice) : (s.setSlice k x).setSlice k y = s.setSlice k y := by
  simp only [State.setSlice, Tab.set_set]
@[simp] theorem State.setLine_setLine (s : State) (k : Nat) (x y : Line) : (s.setLine k x).setLine k y = s.setLine k y := by
  simp only [State.setLine, Tab.set_set]
@[simp] theorem State.ctx_setMe_cur (s : State) (x : Ctx) : (s.setMe x).ctx s.cur = x := Tab.get_set_same _ _ _ _
@[simp] theorem State.me_setMe (s : State) (x : Ctx) : (s.setMe x).me = x := Tab.get_set_same _ _ _ _
@[simp] theorem State.me_put (s : State) (d : BitVec 4) (v : W64) : (s.put d v).me = (s.me.wr d v).adv := Tab.get_set_same _ _ _ _
@[simp] theorem State.gang_setGang (s : State) (g : Nat) (x : Gang) : (s.setGang g x).gang g = x := Tab.get_set_same _ _ _ _
@[simp] theorem State.ctx_setGang (s : State) (g : Nat) (x : Gang) (j : CtxId) : (s.setGang g x).ctx j = s.ctx j := rfl
@[simp] theorem State.ctx_tick1 (s : State) (j : CtxId) : (s.tick1).ctx j = s.ctx j := rfl
@[simp] theorem State.ctx_now (s : State) (e : Ev) (j : CtxId) : (s.now e).ctx j = s.ctx j := rfl
@[simp] theorem State.ctx_soon (s : State) (e : Ev) (j : CtxId) : (s.soon e).ctx j = s.ctx j := rfl
@[simp] theorem State.ctx_nowFor (s : State) (c : CtxId) (n : Nat) (i : Instr) (j : CtxId) : (s.nowFor c n i).ctx j = s.ctx j := rfl
@[simp] theorem State.ctx_eventAt (s : State) (t o : Nat) (e : Ev) (j : CtxId) : (s.eventAt t o e).ctx j = s.ctx j := rfl
@[simp] theorem State.ctx_later (s : State) (t o : Nat) (e : Ev) (j : CtxId) : (s.later t o e).ctx j = s.ctx j := rfl
@[simp] theorem State.ctx_schedule (s : State) (t o : Nat) (c : CtxId) (n : Nat) (i : Instr) (j : CtxId) : (s.schedule t o c n i).ctx j = s.ctx j := rfl
@[simp] theorem State.ctx_send (s : State) (m : OutMsg) (j : CtxId) : (s.send m).ctx j = s.ctx j := rfl
@[simp] theorem State.ctx_unschedule (s : State) (p : Entry → Bool) (j : CtxId) : (s.unschedule p).ctx j = s.ctx j := rfl
@[simp] theorem State.ctx_setEmpty (s : State) (w : Nat) (e : Bool) (j : CtxId) : (s.setEmpty w e).ctx j = s.ctx j := rfl
@[simp] theorem State.core_setMe (s : State) (x : Ctx) (j : CoreId) : (s.setMe x).core j = s.core j := rfl
@[simp] theorem State.core_put (s : State) (d : BitVec 4) (v : W64) (j : CoreId) : (s.put d v).core j = s.core j := rfl
@[simp] theorem State.core_setGang (s : State) (g : Nat) (x : Gang) (j : CoreId) : (s.setGang g x).core j = s.core j := rfl
@[simp] theorem State.core_tick1 (s : State) (j : CoreId) : (s.tick1).core j = s.core j := rfl
@[simp] theorem State.core_now (s : State) (e : Ev) (j : CoreId) : (s.now e).core j = s.core j := rfl
@[simp] theorem State.core_soon (s : State) (e : Ev) (j : CoreId) : (s.soon e).core j = s.core j := rfl
@[simp] theorem State.core_nowFor (s : State) (c : CtxId) (n : Nat) (i : Instr) (j : CoreId) : (s.nowFor c n i).core j = s.core j := rfl
@[simp] theorem State.core_eventAt (s : State) (t o : Nat) (e : Ev) (j : CoreId) : (s.eventAt t o e).core j = s.core j := rfl
@[simp] theorem State.core_later (s : State) (t o : Nat) (e : Ev) (j : CoreId) : (s.later t o e).core j = s.core j := rfl
@[simp] theorem State.core_schedule (s : State) (t o : Nat) (c : CtxId) (n : Nat) (i : Instr) (j : CoreId) : (s.schedule t o c n i).core j = s.core j := rfl
@[simp] theorem State.core_send (s : State) (m : OutMsg) (j : CoreId) : (s.send m).core j = s.core j := rfl
@[simp] theorem State.core_unschedule (s : State) (p : Entry → Bool) (j : CoreId) : (s.unschedule p).core j = s.core j := rfl
@[simp] theorem State.core_setEmpty (s : State) (w : Nat) (e : Bool) (j : CoreId) : (s.setEmpty w e).core j = s.core j := rfl
@[simp] theorem State.core_wake (s : State) (c : CtxId) (j : CoreId) : (s.wake c).core j = s.core j := rfl
@[simp] theorem State.core_park (s : State) (c : CtxId) (st : CtxState) (w : Why) (j : CoreId) : (s.park c st w).core j = s.core j := rfl
@[simp] theorem State.cluster_setMe (s : State) (x : Ctx) (j : ClusterId) : (s.setMe x).cluster j = s.cluster j := rfl
@[simp] theorem State.cluster_put (s : State) (d : BitVec 4) (v : W64) (j : ClusterId) : (s.put d v).cluster j = s.cluster j := rfl
@[simp] theorem State.cluster_setGang (s : State) (g : Nat) (x : Gang) (j : ClusterId) : (s.setGang g x).cluster j = s.cluster j := rfl
@[simp] theorem State.cluster_tick1 (s : State) (j : ClusterId) : (s.tick1).cluster j = s.cluster j := rfl
@[simp] theorem State.cluster_now (s : State) (e : Ev) (j : ClusterId) : (s.now e).cluster j = s.cluster j := rfl
@[simp] theorem State.cluster_soon (s : State) (e : Ev) (j : ClusterId) : (s.soon e).cluster j = s.cluster j := rfl
@[simp] theorem State.cluster_nowFor (s : State) (c : CtxId) (n : Nat) (i : Instr) (j : ClusterId) : (s.nowFor c n i).cluster j = s.cluster j := rfl
@[simp] theorem State.cluster_eventAt (s : State) (t o : Nat) (e : Ev) (j : ClusterId) : (s.eventAt t o e).cluster j = s.cluster j := rfl
@[simp] theorem State.cluster_later (s : State) (t o : Nat) (e : Ev) (j : ClusterId) : (s.later t o e).cluster j = s.cluster j := rfl
@[simp] theorem State.cluster_schedule (s : State) (t o : Nat) (c : CtxId) (n : Nat) (i : Instr) (j : ClusterId) : (s.schedule t o c n i).cluster j = s.cluster j := rfl
@[simp] theorem State.cluster_send (s : State) (m : OutMsg) (j : ClusterId) : (s.send m).cluster j = s.cluster j := rfl
@[simp] theorem State.cluster_unschedule (s : State) (p : Entry → Bool) (j : ClusterId) : (s.unschedule p).cluster j = s.cluster j := rfl
@[simp] theorem State.cluster_setEmpty (s : State) (w : Nat) (e : Bool) (j : ClusterId) : (s.setEmpty w e).cluster j = s.cluster j := rfl
@[simp] theorem State.cluster_wake (s : State) (c : CtxId) (j : ClusterId) : (s.wake c).cluster j = s.cluster j := rfl
@[simp] theorem State.cluster_park (s : State) (c : CtxId) (st : CtxState) (w : Why) (j : ClusterId) : (s.park c st w).cluster j = s.cluster j := rfl
@[simp] theorem State.loom_setMe (s : State) (x : Ctx) (j : ClusterId) : (s.setMe x).loom j = s.loom j := rfl
@[simp] theorem State.loom_put (s : State) (d : BitVec 4) (v : W64) (j : ClusterId) : (s.put d v).loom j = s.loom j := rfl
@[simp] theorem State.loom_setGang (s : State) (g : Nat) (x : Gang) (j : ClusterId) : (s.setGang g x).loom j = s.loom j := rfl
@[simp] theorem State.loom_tick1 (s : State) (j : ClusterId) : (s.tick1).loom j = s.loom j := rfl
@[simp] theorem State.loom_now (s : State) (e : Ev) (j : ClusterId) : (s.now e).loom j = s.loom j := rfl
@[simp] theorem State.loom_soon (s : State) (e : Ev) (j : ClusterId) : (s.soon e).loom j = s.loom j := rfl
@[simp] theorem State.loom_nowFor (s : State) (c : CtxId) (n : Nat) (i : Instr) (j : ClusterId) : (s.nowFor c n i).loom j = s.loom j := rfl
@[simp] theorem State.loom_eventAt (s : State) (t o : Nat) (e : Ev) (j : ClusterId) : (s.eventAt t o e).loom j = s.loom j := rfl
@[simp] theorem State.loom_later (s : State) (t o : Nat) (e : Ev) (j : ClusterId) : (s.later t o e).loom j = s.loom j := rfl
@[simp] theorem State.loom_schedule (s : State) (t o : Nat) (c : CtxId) (n : Nat) (i : Instr) (j : ClusterId) : (s.schedule t o c n i).loom j = s.loom j := rfl
@[simp] theorem State.loom_send (s : State) (m : OutMsg) (j : ClusterId) : (s.send m).loom j = s.loom j := rfl
@[simp] theorem State.loom_unschedule (s : State) (p : Entry → Bool) (j : ClusterId) : (s.unschedule p).loom j = s.loom j := rfl
@[simp] theorem State.loom_setEmpty (s : State) (w : Nat) (e : Bool) (j : ClusterId) : (s.setEmpty w e).loom j = s.loom j := rfl
@[simp] theorem State.loom_wake (s : State) (c : CtxId) (j : ClusterId) : (s.wake c).loom j = s.loom j := rfl
@[simp] theorem State.loom_park (s : State) (c : CtxId) (st : CtxState) (w : Why) (j : ClusterId) : (s.park c st w).loom j = s.loom j := rfl
@[simp] theorem State.slice_setMe (s : State) (x : Ctx) (j : SliceId) : (s.setMe x).slice j = s.slice j := rfl
@[simp] theorem State.slice_put (s : State) (d : BitVec 4) (v : W64) (j : SliceId) : (s.put d v).slice j = s.slice j := rfl
@[simp] theorem State.slice_setGang (s : State) (g : Nat) (x : Gang) (j : SliceId) : (s.setGang g x).slice j = s.slice j := rfl
@[simp] theorem State.slice_tick1 (s : State) (j : SliceId) : (s.tick1).slice j = s.slice j := rfl
@[simp] theorem State.slice_now (s : State) (e : Ev) (j : SliceId) : (s.now e).slice j = s.slice j := rfl
@[simp] theorem State.slice_soon (s : State) (e : Ev) (j : SliceId) : (s.soon e).slice j = s.slice j := rfl
@[simp] theorem State.slice_nowFor (s : State) (c : CtxId) (n : Nat) (i : Instr) (j : SliceId) : (s.nowFor c n i).slice j = s.slice j := rfl
@[simp] theorem State.slice_eventAt (s : State) (t o : Nat) (e : Ev) (j : SliceId) : (s.eventAt t o e).slice j = s.slice j := rfl
@[simp] theorem State.slice_later (s : State) (t o : Nat) (e : Ev) (j : SliceId) : (s.later t o e).slice j = s.slice j := rfl
@[simp] theorem State.slice_schedule (s : State) (t o : Nat) (c : CtxId) (n : Nat) (i : Instr) (j : SliceId) : (s.schedule t o c n i).slice j = s.slice j := rfl
@[simp] theorem State.slice_send (s : State) (m : OutMsg) (j : SliceId) : (s.send m).slice j = s.slice j := rfl
@[simp] theorem State.slice_unschedule (s : State) (p : Entry → Bool) (j : SliceId) : (s.unschedule p).slice j = s.slice j := rfl
@[simp] theorem State.slice_setEmpty (s : State) (w : Nat) (e : Bool) (j : SliceId) : (s.setEmpty w e).slice j = s.slice j := rfl
@[simp] theorem State.slice_wake (s : State) (c : CtxId) (j : SliceId) : (s.wake c).slice j = s.slice j := rfl
@[simp] theorem State.slice_park (s : State) (c : CtxId) (st : CtxState) (w : Why) (j : SliceId) : (s.park c st w).slice j = s.slice j := rfl
@[simp] theorem State.line_setMe (s : State) (x : Ctx) (j : Nat) : (s.setMe x).line j = s.line j := rfl
@[simp] theorem State.line_put (s : State) (d : BitVec 4) (v : W64) (j : Nat) : (s.put d v).line j = s.line j := rfl
@[simp] theorem State.line_setGang (s : State) (g : Nat) (x : Gang) (j : Nat) : (s.setGang g x).line j = s.line j := rfl
@[simp] theorem State.line_tick1 (s : State) (j : Nat) : (s.tick1).line j = s.line j := rfl
@[simp] theorem State.line_now (s : State) (e : Ev) (j : Nat) : (s.now e).line j = s.line j := rfl
@[simp] theorem State.line_soon (s : State) (e : Ev) (j : Nat) : (s.soon e).line j = s.line j := rfl
@[simp] theorem State.line_nowFor (s : State) (c : CtxId) (n : Nat) (i : Instr) (j : Nat) : (s.nowFor c n i).line j = s.line j := rfl
@[simp] theorem State.line_eventAt (s : State) (t o : Nat) (e : Ev) (j : Nat) : (s.eventAt t o e).line j = s.line j := rfl
@[simp] theorem State.line_later (s : State) (t o : Nat) (e : Ev) (j : Nat) : (s.later t o e).line j = s.line j := rfl
@[simp] theorem State.line_schedule (s : State) (t o : Nat) (c : CtxId) (n : Nat) (i : Instr) (j : Nat) : (s.schedule t o c n i).line j = s.line j := rfl
@[simp] theorem State.line_send (s : State) (m : OutMsg) (j : Nat) : (s.send m).line j = s.line j := rfl
@[simp] theorem State.line_unschedule (s : State) (p : Entry → Bool) (j : Nat) : (s.unschedule p).line j = s.line j := rfl
@[simp] theorem State.line_setEmpty (s : State) (w : Nat) (e : Bool) (j : Nat) : (s.setEmpty w e).line j = s.line j := rfl
@[simp] theorem State.line_wake (s : State) (c : CtxId) (j : Nat) : (s.wake c).line j = s.line j := rfl
@[simp] theorem State.line_park (s : State) (c : CtxId) (st : CtxState) (w : Why) (j : Nat) : (s.park c st w).line j = s.line j := rfl

end Sys2Proof.Machine
end

