-- ==== Sys2Proof/Laws/Frames.lean ====
section
/-!
SUPPORT. What the operations that several families share leave alone: memory and the gangs under a reservation's end, a trap, a
return from one, a discarded context, a started one and a freed bolt; and what an agenda holds after an insertion.
-/

namespace Sys2Proof.Machine

/-- The agenda after an insertion holds the new entry and the old ones. -/
theorem mem_insertEntry (e x : Entry) (l : List Entry) : e ∈ insertEntry x l ↔ e = x ∨ e ∈ l := by
  induction l with
  | nil => simp [insertEntry]
  | cons a t ih =>
    rw [insertEntry]
    split
    · simp only [List.mem_cons, ih, or_left_comm]
    · simp only [List.mem_cons]

/-- What every step of a fold keeps, the fold keeps. -/
theorem foldl_keeps {α β : Type} (P : β → Prop) (f : β → α → β) (h : ∀ b a, P b → P (f b a)) (l : List α) :
    ∀ b, P b → P (l.foldl f b) := by
  induction l with
  | nil => exact fun _ h => h
  | cons a t ih => exact fun b hb => ih _ (h b a hb)

/-- A waiting reservation that is looked at again changes no context, core, memory or device register. -/
theorem State.retryLr_frame (s : State) (k : SliceId) :
    (s.retryLr k).ctxs = s.ctxs ∧ (s.retryLr k).cores = s.cores ∧ (s.retryLr k).mem = s.mem ∧ (s.retryLr k).dev = s.dev := by
  unfold State.retryLr
  generalize (s.slice k).lrWait = l
  induction l generalizing s with
  | nil => simp
  | cons a t ih => simpa using ih (s.soon _)

/-- Ending a context's reservation changes no other context, no core, no memory and no device register. -/
theorem State.dropResv_frame (s : State) (c : CtxId) :
    (s.dropResv c).ctxs = (if (s.ctx c).resv = none then s.ctxs else Tab.set s.ctxs c { s.ctx c with resv := none })
      ∧ (s.dropResv c).cores = s.cores ∧ (s.dropResv c).mem = s.mem ∧ (s.dropResv c).dev = s.dev := by
  unfold State.dropResv
  cases h : (s.ctx c).resv with
  | none => simp
  | some v =>
    simp only [reduceCtorEq, if_false]
    have key := foldl_keeps (fun u : State => u.ctxs = s.ctxs ∧ u.cores = s.cores ∧ u.mem = s.mem ∧ u.dev = s.dev)
      (fun s (x : Nat × Slice) => if x.2.resv.any (fun r => r.who == c) then
        (s.setSlice x.1 { x.2 with resv := x.2.resv.filter (fun r => r.who != c) }).retryLr x.1 else s)
      (by
        intro b a hb
        dsimp only
        split
        · have := State.retryLr_frame (b.setSlice a.1 { a.2 with resv := a.2.resv.filter (fun r => r.who != c) }) a.1
          simp_all
        · exact hb) s.slices s ⟨rfl, rfl, rfl, rfl⟩
    revert key
    generalize List.foldl _ s s.slices = w
    rintro ⟨h1, h2, h3, h4⟩
    have h5 : w.ctx c = s.ctx c := by unfold State.ctx; rw [h1]
    exact ⟨by simp only [State.setCtx_ctxs, h5, h1], h2, h3, h4⟩

/-- After its reservation has ended a context holds none, and is otherwise as before. -/
theorem State.ctx_dropResv (s : State) (c : CtxId) : (s.dropResv c).ctx c = { s.ctx c with resv := none } := by
  have h := (s.dropResv_frame c).1
  unfold State.ctx at h ⊢
  rw [h]
  split
  · rename_i h1
    generalize Tab.get {} s.ctxs c = x at *
    cases x
    simp at h1
    subst h1
    rfl
  · rw [Tab.get_set_same]

/-- A fold whose steps write no memory writes none. -/
theorem State.foldl_mem {α : Type} (f : State → α → State) (h : ∀ s a, (f s a).mem = s.mem) (l : List α) (s : State) :
    (l.foldl f s).mem = s.mem :=
  foldl_keeps (fun u : State => u.mem = s.mem) f (fun b a hb => (h b a).trans hb) l s rfl
/-- A fold whose steps change no gang changes none. -/
theorem State.foldl_gangs {α : Type} (f : State → α → State) (h : ∀ s a, (f s a).dev.gangs = s.dev.gangs) (l : List α) (s : State) :
    (l.foldl f s).dev.gangs = s.dev.gangs :=
  foldl_keeps (fun u : State => u.dev.gangs = s.dev.gangs) f (fun b a hb => (h b a).trans hb) l s rfl

@[simp] theorem State.retryAdmission_mem (s : State) (d : Nat) : (s.retryAdmission d).mem = s.mem := by
  unfold State.retryAdmission
  apply State.foldl_mem
  intro u x
  dsimp only
  split <;> rfl
@[simp] theorem State.retryAdmission_gangs (s : State) (d : Nat) : (s.retryAdmission d).dev.gangs = s.dev.gangs := by
  unfold State.retryAdmission
  apply State.foldl_gangs
  intro u x
  dsimp only
  split <;> rfl
@[simp] theorem State.dropResv_mem (s : State) (c : CtxId) : (s.dropResv c).mem = s.mem := (s.dropResv_frame c).2.2.1
@[simp] theorem State.dropResv_dev (s : State) (c : CtxId) : (s.dropResv c).dev = s.dev := (s.dropResv_frame c).2.2.2
@[simp] theorem State.discard_mem (s : State) (c : CtxId) : (s.discard c).mem = s.mem := by simp [State.discard]
@[simp] theorem State.discard_gangs (s : State) (c : CtxId) : (s.discard c).dev.gangs = s.dev.gangs := by simp [State.discard]

@[simp] theorem State.stewardEvent_mem (s : State) (k : CoreId) : (s.stewardEvent k).mem = s.mem := by
  unfold State.stewardEvent
  dsimp only
  split
  · rfl
  · split
    · simp [State.wake]
    · rfl
  · rfl
@[simp] theorem State.enterTrapEntry_mem (s : State) (k : CoreId) (epc : W64) : (s.enterTrapEntry k epc).mem = s.mem := by
  simp [State.enterTrapEntry]
/-- A double trap writes no memory. -/
@[simp] theorem State.doubleTrap_mem (s : State) (k : CoreId) : (s.doubleTrap k).mem = s.mem := by
  unfold State.doubleTrap
  generalize hl : coreCtxs k = l
  have h := State.foldl_mem State.discard State.discard_mem l s
  dsimp only
  generalize List.foldl State.discard s l = u at *
  rw [State.foldl_mem]
  · exact h
  · intro _ _
    rfl
@[simp] theorem State.trapOne_mem (s : State) (c : CtxId) (t : TrapRec) : (s.trapOne c t).mem = s.mem := by
  unfold State.trapOne
  dsimp only
  split
  · split <;> simp
  · simp
/-- Taking a trap writes no memory. -/
@[simp] theorem State.takeTrap_mem (s : State) (c : CtxId) (t : TrapRec) : (s.takeTrap c t).mem = s.mem := by
  unfold State.takeTrap
  split
  · simp
  · simp
/-- A trap of the present context writes no memory. -/
@[simp] theorem State.trapMe_mem (s : State) (cause cls : BitVec 8) (tval : W64) : (s.trapMe cause cls tval).mem = s.mem := by
  simp [State.trapMe]
/-- A grain resumed from a trap writes no memory. -/
@[simp] theorem State.resume_mem (s : State) (c : CtxId) (pc : W64) : (s.resume c pc).mem = s.mem := by
  unfold State.resume
  dsimp only
  split <;> simp [State.keepEvent]
/-- The return from the trap entry writes no memory. -/
@[simp] theorem State.sret_mem (s : State) : s.sret.mem = s.mem := by
  unfold State.sret
  dsimp only
  repeat' split
  all_goals simp
/-- The end of a grain writes no memory. -/
@[simp] theorem State.endCtx_mem (s : State) (c : CtxId) : (s.endCtx c).mem = s.mem := by
  unfold State.endCtx
  dsimp only
  repeat' split
  all_goals simp

@[simp] theorem State.wakeBwaits_mem (s : State) (cl : ClusterId) (h : BitVec 32) : (s.wakeBwaits cl h).mem = s.mem := by
  unfold State.wakeBwaits
  dsimp only
  rw [State.foldl_mem]
  · rfl
  · intro _ _
    rfl
@[simp] theorem State.wakeBwaits_gangs (s : State) (cl : ClusterId) (h : BitVec 32) : (s.wakeBwaits cl h).dev.gangs = s.dev.gangs := by
  unfold State.wakeBwaits
  dsimp only
  rw [State.foldl_gangs]
  · rfl
  · intro _ _
    rfl
/-- Freeing a bolt writes no memory and changes no gang. -/
theorem State.dropBolt_frame (s : State) (cl e : Nat) : (s.dropBolt cl e).mem = s.mem ∧ (s.dropBolt cl e).dev.gangs = s.dev.gangs :=
  ⟨State.wakeBwaits_mem _ _ _, State.wakeBwaits_gangs _ _ _⟩

/-- Starting a context writes no memory and changes no core, no agenda and no time. -/
theorem State.startCtx_frame (s : State) (c : CtxId) (x : Ctx) :
    (s.startCtx c x).mem = s.mem ∧ (s.startCtx c x).cores = s.cores ∧ (s.startCtx c x).agenda = s.agenda
      ∧ (s.startCtx c x).cycle = s.cycle := by
  unfold State.startCtx
  dsimp only
  split <;> simp

/-- Dropping a core's leases writes no memory. -/
@[simp] theorem State.dropStale_mem (s : State) (k : CoreId) : (s.dropStale k).mem = s.mem := rfl

/-- A slot whose command may end keeps its gangs. -/
@[simp] theorem State.checkSlot_gangs (s : State) (j : BitVec 4) : (s.checkSlot j).dev.gangs = s.dev.gangs := by
  unfold State.checkSlot
  dsimp only
  repeat' split
  all_goals rfl

end Sys2Proof.Machine
end

