-- ==== Sys2Proof/Laws/Memory.lean ====
section
/-!
SUPPORT. Memory: a write keeps the canonical form, a byte written reads back, and every other byte reads as before.
-/

namespace Sys2Proof.Machine

/-- Cells are rising and none lies below a bound. -/
def Memory.risesFrom : Nat → List Host.Cell → Prop
  | _, [] => True
  | n, c :: t => n ≤ c.1 ∧ Memory.risesFrom (c.1 + 1) t

theorem Memory.risesFrom_mono {n m : Nat} (h : m ≤ n) : ∀ {l : List Host.Cell}, Memory.risesFrom n l → Memory.risesFrom m l
  | [], _ => trivial
  | _ :: _, hl => ⟨Nat.le_trans h hl.1, hl.2⟩

theorem Memory.sorted_cons {c : Host.Cell} : ∀ {t : List Host.Cell}, Memory.sorted (c :: t) = true ↔ Memory.risesFrom (c.1 + 1) t
  | [] => by simp [Memory.sorted, Memory.risesFrom]
  | d :: t => by
    simp only [Memory.sorted, Bool.and_eq_true, decide_eq_true_eq, Memory.risesFrom, Memory.sorted_cons (c := d) (t := t)]
    exact Iff.rfl

theorem Memory.sorted_iff : ∀ {l : List Host.Cell}, Memory.sorted l = true ↔ Memory.risesFrom 0 l
  | [] => by simp [Memory.sorted, Memory.risesFrom]
  | c :: t => by simp [Memory.sorted_cons, Memory.risesFrom]

theorem Memory.risesFrom_filter (p : Host.Cell → Bool) : ∀ {n : Nat} {l : List Host.Cell}, Memory.risesFrom n l → Memory.risesFrom n (l.filter p)
  | _, [], _ => trivial
  | _, c :: t, h => by
    rw [List.filter_cons]
    split
    · exact ⟨h.1, Memory.risesFrom_filter p h.2⟩
    · exact Memory.risesFrom_mono (by have := h.1; omega) (Memory.risesFrom_filter p h.2)

theorem Memory.risesFrom_append {m : Nat} : ∀ {n : Nat} {l r : List Host.Cell},
    Memory.risesFrom n l → (∀ c ∈ l, c.1 < m) → n ≤ m → Memory.risesFrom m r → Memory.risesFrom n (l ++ r)
  | _, [], _, _, _, hn, hr => Memory.risesFrom_mono hn hr
  | _, c :: _, _, hl, hb, _, hr =>
    ⟨hl.1, Memory.risesFrom_append hl.2 (fun d hd => hb d (List.mem_cons_of_mem _ hd)) (hb c List.mem_cons_self) hr⟩

theorem Memory.risesFrom_above : ∀ {n m : Nat} {l : List Host.Cell}, Memory.risesFrom n l → (∀ c ∈ l, m ≤ c.1) → Memory.risesFrom m l
  | _, _, [], _, _ => trivial
  | _, _, c :: _, h, hm => ⟨hm c List.mem_cons_self, h.2⟩

theorem Memory.cells_rises : ∀ (a : Nat) (bs : List Byte), Memory.risesFrom a (Memory.cells a bs)
  | _, [] => trivial
  | a, b :: t => by
    rw [Memory.cells]
    split
    · exact Memory.risesFrom_mono (Nat.le_succ a) (Memory.cells_rises (a + 1) t)
    · exact ⟨Nat.le_refl a, Memory.cells_rises (a + 1) t⟩

theorem Memory.cells_below : ∀ (a : Nat) (bs : List Byte), ∀ c ∈ Memory.cells a bs, c.1 < a + bs.length
  | _, [], _, h => by cases h
  | a, b :: t, c, h => by
    have ih := Memory.cells_below (a + 1) t c
    rw [Memory.cells] at h
    simp only [List.length_cons]
    split at h
    · have := ih h; omega
    · rcases List.mem_cons.mp h with rfl | h
      · simp
      · have := ih h; omega

theorem Memory.cells_nonzero : ∀ (a : Nat) (bs : List Byte), Memory.noZero (Memory.cells a bs) = true
  | _, [] => rfl
  | a, b :: t => by
    have ih := Memory.cells_nonzero (a + 1) t
    rw [Memory.cells]
    split
    · exact ih
    · next h => simp only [Memory.noZero, List.all_cons, Bool.and_eq_true]; exact ⟨by simpa using h, ih⟩

/-- A write keeps the canonical form of memory. -/
theorem Memory.write_wf {m : List Host.Cell} (a : Nat) (bs : List Byte) (h : Memory.wf m = true) : Memory.wf (Memory.write m a bs) = true := by
  simp only [Memory.wf, Bool.and_eq_true, Memory.sorted_iff] at h ⊢
  refine ⟨?_, ?_⟩
  · refine Memory.risesFrom_append (m := a) (Memory.risesFrom_filter _ h.1) (by simp) (Nat.zero_le a) ?_
    refine Memory.risesFrom_append (m := a + bs.length) (Memory.cells_rises a bs) (Memory.cells_below a bs) (by omega) ?_
    exact Memory.risesFrom_above (Memory.risesFrom_filter _ h.1) (by simp)
  · have hf : ∀ p : Host.Cell → Bool, Memory.noZero (m.filter p) = true := by
      intro p
      simp only [Memory.noZero, List.all_eq_true] at h ⊢
      exact fun c hc => h.2 c (List.mem_filter.mp hc).1
    have e : ∀ l r : List Host.Cell, Memory.noZero (l ++ r) = (Memory.noZero l && Memory.noZero r) := fun _ _ => List.all_append
    rw [Memory.write, e, e, hf, hf, Memory.cells_nonzero]
    rfl

theorem Memory.noZero_filter {m : List Host.Cell} (p : Host.Cell → Bool) (h : Memory.noZero m = true) : Memory.noZero (m.filter p) = true := by
  simp only [Memory.noZero, List.all_eq_true] at h ⊢
  exact fun c hc => h c (List.mem_filter.mp hc).1

/-- A range taken from memory is in the canonical form. -/
theorem Memory.span_wf {m : List Host.Cell} (lo hi : Nat) (h : Memory.wf m = true) : Memory.wf (Memory.span m lo hi) = true := by
  simp only [Memory.wf, Bool.and_eq_true, Memory.sorted_iff] at h ⊢
  exact ⟨Memory.risesFrom_filter _ h.1, Memory.noZero_filter _ h.2⟩

/-- Putting a range back keeps the canonical form. -/
theorem Memory.splice_wf {m : List Host.Cell} (lo hi : Nat) (l : List Host.Cell) (hlo : lo ≤ hi) (h : Memory.wf m = true) :
    Memory.wf (Memory.splice m lo hi l) = true := by
  have mid : ∃ x, (if Memory.wf l = true then Memory.span l lo hi else []) = x ∧ Memory.risesFrom lo x ∧ (∀ c ∈ x, c.1 < hi) ∧ Memory.noZero x = true := by
    refine ⟨_, rfl, ?_⟩
    split
    · next hl =>
      simp only [Memory.wf, Bool.and_eq_true, Memory.sorted_iff] at hl
      exact ⟨Memory.risesFrom_above (Memory.risesFrom_filter _ hl.1) (by simp +contextual [Memory.span]), by simp +contextual [Memory.span], Memory.noZero_filter _ hl.2⟩
    · exact ⟨trivial, by simp, rfl⟩
  obtain ⟨x, hx, hr, hb, hz⟩ := mid
  simp only [Memory.wf, Bool.and_eq_true, Memory.sorted_iff] at h ⊢
  rw [Memory.splice, hx]
  have e : ∀ l r : List Host.Cell, Memory.noZero (l ++ r) = (Memory.noZero l && Memory.noZero r) := fun _ _ => List.all_append
  refine ⟨?_, by rw [e, e, Memory.noZero_filter _ h.2, Memory.noZero_filter _ h.2, hz]; rfl⟩
  refine Memory.risesFrom_append (m := lo) (Memory.risesFrom_filter _ h.1) (by simp) (Nat.zero_le lo) ?_
  exact Memory.risesFrom_append (m := hi) hr hb hlo (Memory.risesFrom_above (Memory.risesFrom_filter _ h.1) (by simp))

theorem Memory.byte_append (l r : List Host.Cell) (a : Nat) :
    Memory.byte (l ++ r) a = if l.any (fun c => a = c.1) then Memory.byte l a else Memory.byte r a := by
  induction l with
  | nil => simp
  | cons c t ih =>
    obtain ⟨k, v⟩ := c
    simp only [Memory.byte, List.cons_append, Tab.get, List.any_cons] at ih ⊢
    by_cases h : a = k
    · simp [h]
    · simp only [h, if_false, decide_false, Bool.false_or, ih]

theorem Memory.byte_unlisted {l : List Host.Cell} {a : Nat} (h : ∀ c ∈ l, c.1 ≠ a) : Memory.byte l a = 0 := by
  induction l with
  | nil => rfl
  | cons c t ih =>
    obtain ⟨k, v⟩ := c
    have hk : ¬ a = k := fun e => h (k, v) List.mem_cons_self e.symm
    simp only [Memory.byte, Tab.get, hk, if_false] at ih ⊢
    exact ih (fun d hd => h d (List.mem_cons_of_mem _ hd))

theorem Memory.byte_filter (p : Nat → Bool) (m : List Host.Cell) (a : Nat) :
    Memory.byte (m.filter (fun c => p c.1)) a = if p a then Memory.byte m a else 0 := by
  induction m with
  | nil => simp [Memory.byte, Tab.get]
  | cons c t ih =>
    obtain ⟨k, v⟩ := c
    rw [List.filter_cons]
    by_cases h : a = k
    · subst h
      split
      · next hp => simp_all [Memory.byte, Tab.get]
      · next hp => simp only [Bool.not_eq_true] at hp; simp only [ih, hp, Bool.false_eq_true, if_false]
    · split
      · simp only [Memory.byte, Tab.get, h, if_false] at ih ⊢; exact ih
      · simp only [Memory.byte, Tab.get, h, if_false] at ih ⊢; exact ih

theorem Memory.byte_cells : ∀ (bs : List Byte) (a b : Nat), a ≤ b → Memory.byte (Memory.cells a bs) b = bs.getD (b - a) 0
  | [], a, b, _ => by simp [Memory.cells, Memory.byte, Tab.get]
  | x :: t, a, b, h => by
    rw [Memory.cells]
    by_cases e : b = a
    · subst e
      simp only [Nat.sub_self, List.getD_cons_zero]
      split
      · next hx =>
        rw [Memory.byte_unlisted, hx]
        intro c hc
        have h1 := Memory.cells_rises (b + 1) t
        have : ∀ {n : Nat} {l : List Host.Cell}, Memory.risesFrom n l → ∀ c ∈ l, n ≤ c.1 := by
          intro n l
          induction l generalizing n with
          | nil => intro _ c hc; cases hc
          | cons d t ih =>
            intro hr c hc
            rcases List.mem_cons.mp hc with rfl | hc
            · exact hr.1
            · have := ih hr.2 c hc; have := hr.1; omega
        have := this h1 c hc; omega
      · simp [Memory.byte, Tab.get]
    · have hb : a + 1 ≤ b := by omega
      have ih := Memory.byte_cells t (a + 1) b hb
      have hi : b - a = (b - (a + 1)) + 1 := by omega
      rw [hi, List.getD_cons_succ]
      split
      · exact ih
      · simp only [Memory.byte, Tab.get, e, if_false] at ih ⊢; exact ih

/-- A byte after a write: the byte written, or the byte that stood there. -/
theorem Memory.byte_write (m : List Host.Cell) (a : Nat) (bs : List Byte) (b : Nat) :
    Memory.byte (Memory.write m a bs) b = if a ≤ b ∧ b < a + bs.length then bs.getD (b - a) 0 else Memory.byte m b := by
  have low : Memory.byte (m.filter (fun c => c.1 < a)) b = if b < a then Memory.byte m b else 0 := by
    simpa using Memory.byte_filter (fun n => decide (n < a)) m b
  have high : Memory.byte (m.filter (fun c => a + bs.length ≤ c.1)) b = if a + bs.length ≤ b then Memory.byte m b else 0 := by
    simpa using Memory.byte_filter (fun n => decide (a + bs.length ≤ n)) m b
  have none_of : ∀ {l : List Host.Cell}, ¬ (l.any (fun c => b = c.1)) = true → ∀ c ∈ l, c.1 ≠ b := by
    intro l hl c hc e
    exact hl (List.any_eq_true.mpr ⟨c, hc, by simp [e]⟩)
  have some_of : ∀ {l : List Host.Cell}, (l.any (fun c => b = c.1)) = true → ∃ c ∈ l, c.1 = b := by
    intro l hl
    obtain ⟨c, hc, e⟩ := List.any_eq_true.mp hl
    exact ⟨c, hc, by simpa using (by simpa using e : b = c.1).symm⟩
  have rises : ∀ {n : Nat} {l : List Host.Cell}, Memory.risesFrom n l → ∀ c ∈ l, n ≤ c.1 := by
    intro n l
    induction l generalizing n with
    | nil => intro _ c hc; cases hc
    | cons d t ih =>
      intro hr c hc
      rcases List.mem_cons.mp hc with rfl | hc
      · exact hr.1
      · have := ih hr.2 c hc; have := hr.1; omega
  rw [Memory.write, Memory.byte_append, Memory.byte_append, low, high]
  split
  · next h1 =>
    obtain ⟨c, hc, e⟩ := some_of h1
    have : b < a := by have := (List.mem_filter.mp hc).2; simp at this; omega
    rw [if_pos this, if_neg (by omega)]
  · next h1 =>
    split
    · next h2 =>
      obtain ⟨c, hc, e⟩ := some_of h2
      have h3 := Memory.cells_below a bs c hc
      have h4 := rises (Memory.cells_rises a bs) c hc
      rw [if_pos ⟨by omega, by omega⟩, Memory.byte_cells _ _ _ (by omega)]
    · next h2 =>
      by_cases hlt : b < a
      · have : Memory.byte m b = 0 := by
          have h5 := Memory.byte_unlisted (none_of h1)
          rw [low, if_pos hlt] at h5
          exact h5
        rw [if_neg (by omega), if_neg (by omega), this]
      · by_cases hge : a + bs.length ≤ b
        · rw [if_pos hge, if_neg (by omega)]
        · have h6 := Memory.byte_unlisted (none_of h2)
          rw [Memory.byte_cells _ _ _ (by omega)] at h6
          rw [if_neg (by omega), if_pos (by omega), h6]

/-- A read of n bytes gives each byte as it stands. -/
theorem Memory.read_eq (m : List Host.Cell) (a n : Nat) : Memory.read m a n = (List.range n).map (fun i => Memory.byte m (a + i)) := by
  rw [Memory.read]
  apply List.map_congr_left
  intro i hi
  have h := Memory.byte_filter (fun k => decide (a ≤ k) && decide (k < a + n)) m (a + i)
  have hlt : i < n := List.mem_range.mp hi
  simp only [Nat.le_add_right, decide_true, Bool.true_and, Nat.add_lt_add_iff_left, hlt, if_true] at h
  exact h

/-- The bytes written read back. -/
theorem Memory.read_write (m : List Host.Cell) (a : Nat) (bs : List Byte) : Memory.read (Memory.write m a bs) a bs.length = bs := by
  rw [Memory.read_eq]
  apply List.ext_getElem
  · simp
  · intro i h1 h2
    rw [List.getElem_map, List.getElem_range, Memory.byte_write, if_pos ⟨by omega, by omega⟩, Nat.add_sub_cancel_left]
    simp [List.getD_eq_getElem?_getD, h2]

/-- Putting a line back into HBM4 keeps memory canonical. -/
theorem State.putHbm_wf (s : State) (n : Nat) (d : LineData) (fe : BitVec 16) (h : Memory.wf s.mem = true) :
    Memory.wf (s.putHbm n d fe).mem = true := Memory.write_wf _ _ h

/-- A write at the point of an address keeps memory canonical. -/
theorem State.pointWrite_wf (s : State) (pa : Nat) (bs : List Byte) (h : Memory.wf s.mem = true) :
    Memory.wf (s.pointWrite pa bs).mem = true := by
  unfold State.pointWrite
  split
  · exact h
  · exact Memory.write_wf _ _ h

end Sys2Proof.Machine
end

