-- ==== Sys2Proof/Laws/Ops.lean ====
section
/-!
SUPPORT. What the shared operations of the grain machine do, said once: register reads and writes, the prefix check, event
counters, waiting and waking, and the taking of a trap.
-/

namespace Sys2Proof.Machine

/-! Registers (R20, R27). -/

theorem Ctx.wr_zero (x : Ctx) (v : W64) : x.wr 0 v = x := by simp [Ctx.wr]

theorem Ctx.wr_of_ne (x : Ctx) (d : BitVec 4) (v : W64) (h : d ≠ 0) :
    x.wr d v = { x with g := x.g.set d.toNat v, dead := x.dead &&& ~~~(1#16 <<< d.toNat) } := by
  unfold Ctx.wr; rw [if_neg h]

/-- g0 reads zero. -/
@[simp] theorem Ctx.rd_zero (x : Ctx) : x.rd 0#4 = 0#64 := by simp [Ctx.rd]

/-- One bit of a set from which another bit has been taken. -/
theorem getLsbD_clear (m : BitVec 16) (d r : BitVec 4) :
    (m &&& ~~~(1#16 <<< d.toNat)).getLsbD r.toNat = (decide (r ≠ d) && m.getLsbD r.toNat) := by
  have hr := r.isLt
  have hd := d.isLt
  by_cases h : r = d
  · subst h
    simp
  · have hn : r.toNat ≠ d.toNat := fun e => h (BitVec.eq_of_toNat_eq e)
    have hc : r.toNat < d.toNat ∨ ¬ r.toNat - d.toNat = 0 := by omega
    have h16 : r.toNat < 16 := by omega
    simp [h, h16]
    exact fun _ => hc

/-- The register just written reads the value written; g0 reads zero. -/
theorem Ctx.rd_wr_same (x : Ctx) (d : BitVec 4) (v : W64) : (x.wr d v).rd d = if d = 0 then 0 else v := by
  by_cases h : d = 0
  · subst h; simp [Ctx.rd]
  · rw [Ctx.wr_of_ne x d v h, Ctx.rd, if_neg h, if_neg]
    · exact Vector.getElem_set_self _
    · rintro (e | e)
      · exact h e
      · simp at e

/-- Every other register reads as before. -/
theorem Ctx.rd_wr_other (x : Ctx) (d r : BitVec 4) (v : W64) (h : r ≠ d) : (x.wr d v).rd r = x.rd r := by
  by_cases h0 : d = 0
  · rw [h0, Ctx.wr_zero]
  · have hn : d.toNat ≠ r.toNat := fun e => h (BitVec.eq_of_toNat_eq e.symm)
    rw [Ctx.wr_of_ne x d v h0]
    simp only [Ctx.rd, getLsbD_clear, h, decide_true, Bool.true_and, ne_eq, not_false_eq_true, Vector.getElem_set_ne _ _ hn]

/-- Every other register is as dead or live as before. -/
theorem Ctx.dead_wr_other (x : Ctx) (d r : BitVec 4) (v : W64) (h : r ≠ d) :
    (x.wr d v).dead.getLsbD r.toNat = x.dead.getLsbD r.toNat := by
  by_cases h0 : d = 0
  · rw [h0, Ctx.wr_zero]
  · rw [Ctx.wr_of_ne x d v h0]; show (_ &&& ~~~_ : BitVec 16).getLsbD _ = _; rw [getLsbD_clear]; simp [h]

/-- A register written is live. -/
theorem Ctx.dead_wr_same (x : Ctx) (d : BitVec 4) (v : W64) (h : d ≠ 0) : (x.wr d v).dead.getLsbD d.toNat = false := by
  rw [Ctx.wr_of_ne x d v h]; simp

/-- A register write changes nothing but registers and their dead marks. -/
theorem Ctx.wr_frame (x : Ctx) (d : BitVec 4) (v : W64) : ∃ g de, x.wr d v = { x with g := g, dead := de } := by
  by_cases h : d = 0
  · exact ⟨x.g, x.dead, by rw [h, Ctx.wr_zero]⟩
  · exact ⟨_, _, Ctx.wr_of_ne x d v h⟩

/-! The prefix check (R80, R98). -/

theorem State.plain_of_clear (s : State) (i : Instr) (f : State → State) (h : s.me.pp = false) : s.plain i f = f s := by
  simp [State.plain, h]

theorem State.plain_of_pending (s : State) (i : Instr) (f : State → State) (h : s.me.pp = true) : s.plain i f = s.trapPfx i := by
  simp [State.plain, h]

/-- A format-sensitive instruction whose payload is accepted writes its result, consumes the prefix and counts (R80, R117). -/
theorem State.fsens_accepted (s : State) (i : Instr) (k : Accept) (dflt : Nat) (d : BitVec 4) (f : BitVec 12 → Rnd → W64 × Conds)
    (h : s.me.pp = true → k.ok (s.me.payload dflt) = true) :
    s.fsens i k dflt d f =
      ((s.setMe { (s.me.wr d (f (s.me.payload dflt) (plRnd (s.me.payload dflt) ((s.rd d).toNat % 65536))).1).adv with pp := false }).count
        s.cur (f (s.me.payload dflt) (plRnd (s.me.payload dflt) ((s.rd d).toNat % 65536))).2) := by
  unfold State.fsens
  rw [if_neg]
  · rfl
  · rintro ⟨h1, h2⟩
    simp [h h1] at h2

/-- One whose pending payload is not accepted traps (R80). -/
theorem State.fsens_refused (s : State) (i : Instr) (k : Accept) (dflt : Nat) (d : BitVec 4) (f : BitVec 12 → Rnd → W64 × Conds)
    (h : s.me.pp = true) (hk : k.ok s.me.pfmt = false) : s.fsens i k dflt d f = s.trapPfx i := by
  have hp : s.me.payload dflt = s.me.pfmt := by simp [Ctx.payload, h]
  unfold State.fsens
  rw [if_pos]
  rw [hp]
  exact ⟨h, by simp [hk]⟩

/-! Event counters (R66, R67). -/

/-- An increment that fits adds; one that does not leaves the greatest count and sets SAT. -/
theorem Evc.add_eq (e : Evc) (n : Nat) :
    (e.add n).count.toNat = min (e.count.toNat + n) 0xFFFFFFFF ∧ (e.add n).sat = (e.sat || decide (0xFFFFFFFF < e.count.toNat + n)) := by
  unfold Evc.add
  split
  · next h =>
    refine ⟨?_, ?_⟩
    · simp only [BitVec.toNat_ofNat]; rw [Nat.mod_eq_of_lt (by omega), Nat.min_eq_left h]
    · have : ¬ 0xFFFFFFFF < e.count.toNat + n := by omega
      simp [this]
  · next h =>
    refine ⟨?_, ?_⟩
    · rw [Nat.min_eq_right (by omega)]; rfl
    · have : 0xFFFFFFFF < e.count.toNat + n := by omega
      simp [this]

theorem EvcSet.bump_zero (x : EvcSet) (n : Nat) : x.bump 0 n = x := by
  simp [EvcSet.bump]

/-- Counting no condition changes nothing. -/
@[simp] theorem State.count_zero (s : State) (c : CtxId) : s.count c 0 = s := by simp [State.count]

/-! Twins and reservations in a state that has neither. -/

theorem State.dropResv_none (s : State) (c : CtxId) (h : (s.ctx c).resv = none) : s.dropResv c = s := by
  simp [State.dropResv, h]

/-! The taking of a trap (R404, R405, R407). -/

/-- A context without a twin takes its trap alone. -/
theorem State.takeTrap_single (s : State) (c : CtxId) (t : TrapRec) (h : s.twin c = none) : s.takeTrap c t = s.trapOne c t := by
  simp [State.takeTrap, h]

end Sys2Proof.Machine
end

