-- ==== Sys2Proof/Tests/Slice0.lean ====
section
/-!
SUPPORT. Tests of the model by named theorems: words and results that the spec gives, ill-formed instructions, and for every
statement states and operands that meet the hypotheses of its clauses.
-/

open Sys2Proof Sys2Proof.Machine Sys2Proof.Stated

namespace Sys2Proof.Tests

set_option maxRecDepth 8000
set_option exponentiation.threshold 2000

/-- A quiet machine in cycle 100, with nothing due. -/
def quiet : State := { State.reset with todo := [], cycle := 100, fresh := 4 }
/-- A grain that issues at 0x1000 in job slot 1, with some registers written and the rest live and zero. -/
def grain (l : List (BitVec 4 × W64)) : Ctx :=
  l.foldl (fun x p => x.wr p.1 p.2) { st := .issuing, pc := 0x1000, dead := 0, slot := 1 }
/-- The quiet machine with a context running. -/
def runs (c : CtxId) (x : Ctx) : State := { quiet with cur := c, ctxs := [(c, x)] }
/-- The quiet machine with a grain running in a context. -/
def running (c : CtxId) (l : List (BitVec 4 × W64)) : State := runs c (grain l)
/-- The state after an instruction. -/
def after (i : Instr) (s : State) : State :=
  match exec i s with
  | .next t => t
  | _ => s
/-- What an instruction leaves in a register of grain 17. -/
def gives (i : Instr) (d : BitVec 4) (l : List (BitVec 4 × W64)) : W64 := (after i (running 17 l)).rd d
/-- A quiet machine whose Loom 0 is running with some control state. -/
def weaving (k : LoomCore) : State := { quiet with looms := [(0, { st := .running, k := k })] }

/-! Ill-formed instructions, one for each check of WellFormed (R42, R44, R73, R78, R79, R85, R184 to R186, R202, R228, R235). -/

theorem test_wellFormed_refuses_operands :
    [wellFormed (.crc 1 1 2 4), wellFormed (.fsgnj 1 2 3 3), wellFormed (.cvtf 1 2 2), wellFormed (.isect 1 2 3 2), wellFormed (.lw 1 2 true 1 0)
      , wellFormed (.pref 2 1 false 0 0), wellFormed (.feset 2 1 false 0 0), wellFormed (.fence 6 1 1), wellFormed (.fence 1 0 1), wellFormed (.fence 1 1 0)
      , wellFormed (.gadd 1 2 0 false false 0), wellFormed (.gadd 1 2 14 false false 0), wellFormed (.fxadd 1 2 3 false false true 2)]
    = List.replicate 13 false := by decide
theorem test_wellFormed_refuses_payloads :
    [wellFormed (.fmt 0x700), wellFormed (.fmt 0x1C0), wellFormed (.fmt 0x128), wellFormed (.fmt 0x103), wellFormed (.vfmt 0x700), wellFormed (.mfmt 0x1C0)]
    = List.replicate 6 false := by decide
theorem test_wellFormed_refuses_slot_fields :
    [wellFormed (.sadd { pe := false, pn := true } 1 2 3), wellFormed (.scmp {} 0 6 1 2), wellFormed (.srsr {} 1 2), wellFormed (.vadd {} 28 1 2 false)
      , wellFormed (.vadd {} 1 31 2 false), wellFormed (.vfadd {} 1 2 3 false 28), wellFormed (.vmask {} 0 6 1 2), wellFormed (.mpush {} 0 1 8)
      , wellFormed (.mset {} 8 0), wellFormed (.xrq {} 0 16 0), wellFormed (.xrq {} 8 0 0), wellFormed (.xwr {} 4 0 0), wellFormed (.xbrd {} 2 0)
      , wellFormed (.xbwr {} 1 0), wellFormed (.xset {} 16 0 0), wellFormed (.xcpy {} 0 0 16 0), wellFormed (.xcpy {} 0 28 1 0), wellFormed (.xcpy {} 8 0 8 0)
      , wellFormed (.xcpy {} 0 0 0 1)]
    = List.replicate 19 false := by decide

/-! Words of the spec's own encodings, or written out from its fields. -/

/-- R71, R76, R78, R100, R108, R110, R111, R114, R119, R124, R180, R182: sub g7, g3, g4; crc g1, g1, g2, 8; hset and hins; beq g0, g0, 64; ret;
sd g7, 16(g14); lbu g2, -1(g3), oc5; lw g5, -8(g14), oc3 and without it; ldfe g4, 8(g6). -/
theorem test_decode_integer_and_memory :
    [decodeWord 0x05CD0001, decodeWord 0x14448C01, decodeWord 0x1D00ABCD, decodeWord 0x1D1C1234, decodeWord 0x20000010, decodeWord 0x283C0001
      , decodeWord 0x31FA0C02, decodeWord 0x2C8CA7FF, decodeWord 0x2D7873FE, decodeWord 0x2D7A13FE, decodeWord 0x5D1A0001]
    = [some (.sub 7 3 4), some (.crc 1 1 2 3), some (.hset 4 0 0xABCD), some (.hins 4 3 0x1234), some (.beq 0 0 0x10), some (.ret 15)
      , some (.sd 7 14 true 0 2), some (.lbu 2 3 false 5 0x3FF), some (.lw 5 14 false 3 0x3FE), some (.lw 5 14 true 0 0x3FE), some (.ldfe 4 6 true 0 1)] := by decide
/-- R116, R131, R80, R138, R186, R181: fadd g3, g1, g2; mkscl g5, g1; fmt e2m1, blk, rsr; csrr g3, coreno; csrw g0, evc3, g4; fence; wrs. -/
theorem test_decode_float_and_system :
    [decodeWord 0x38C48000, decodeWord 0x3D440006, decodeWord 0x44000460, decodeWord 0x4CC00003, decodeWord 0x4C104013, decodeWord 0x62280003, decodeWord 0x58003400]
    = [some (.fadd 3 1 2), some (.mkscl 5 1), some (.fmt 0x460), some (.csrr 3 3), some (.csrw 0 4 0x13), some (.fence 4 5 3), some .wrs] := by decide
/-- R85, R228: the M prefix fmt e2m1, blk, rsr. -/
theorem test_decode_slot_prefix : decodeSlot 0xDC11807F 0 = some (.mfmt 0x460) := by decide
/-- R78: words with a field that must be zero set, and a WRS with a class, are no instruction. -/
theorem test_decode_refuses : [decodeWord 0x05CD0401, decodeWord 0, decodeWord 0x58003401, decodeWord 0x1D20ABCD] = [none, none, none, none] := by decide

/-! Worked examples of the spec. -/

/-- The worked example of R100. -/
theorem test_shifts_and_words :
    [gives (.add 3 1 2) 3 [(1, 0x7FFFFFFF), (2, 1)], gives (.addw 4 1 2) 4 [(1, 0x7FFFFFFF), (2, 1)], gives (.srlw 7 5 6) 7 [(5, 0xFFFFFFFF80000010), (6, 0x24)]
      , gives (.sraw 8 5 6) 8 [(5, 0xFFFFFFFF80000010), (6, 0x24)], gives (.srl 9 5 6) 9 [(5, 0xFFFFFFFF80000010), (6, 0x24)]]
    = [0x80000000, 0xFFFFFFFF80000000, 0x08000001, 0xFFFFFFFFF8000001, 0x0FFFFFFF] := by decide
/-- The worked example of R102. -/
theorem test_divide_and_multiply :
    [gives (.div 3 1 2) 3 [(1, -7), (2, 2)], gives (.rem 3 1 2) 3 [(1, -7), (2, 2)], gives (.div 3 1 2) 3 [(1, 7), (2, -2)], gives (.rem 3 1 2) 3 [(1, 7), (2, -2)]
      , gives (.divu 3 1 2) 3 [(1, 0xFFFFFFFFFFFFFFF9), (2, 2)], gives (.remu 3 1 2) 3 [(1, 0xFFFFFFFFFFFFFFF9), (2, 2)], gives (.mulh 3 1 2) 3 [(1, -1), (2, 3)]
      , gives (.mulhu 3 1 2) 3 [(1, -1), (2, 3)]]
    = [-3, -1, -3, 1, 0x7FFFFFFFFFFFFFFC, 1, -1, 2] := by decide
/-- R102: division by zero, and the most negative value by −1. -/
theorem test_divide_corners :
    [gives (.div 3 1 2) 3 [(1, 5)], gives (.rem 3 1 2) 3 [(1, 5)], gives (.divu 3 1 2) 3 [(1, 5)], gives (.remu 3 1 2) 3 [(1, 5)]
      , gives (.div 3 1 2) 3 [(1, 0x8000000000000000), (2, -1)], gives (.rem 3 1 2) 3 [(1, 0x8000000000000000), (2, -1)]]
    = [-1, 5, -1, 5, 0x8000000000000000, 0] := by decide
/-- The worked example of R106. -/
theorem test_bit_fields :
    [gives (.bext 3 2 4) 3 [(2, 0xDEADBEEF), (4, 0x0B08)], gives (.bext 3 2 4) 3 [(2, 0xDEADBEEF), (4, 0x8B08)], gives (.bext 3 2 4) 3 [(2, 0xDEADBEEF), (4, 0x0B3C)]
      , gives (.bins 3 2 4 6) 3 [(2, 0xDEADBEEF), (4, 0x0B08), (6, 0x123)], gives (.bins 3 2 4 6) 3 [(2, 0xDEADBEEF), (4, 0x0B3C), (6, 0x123)]]
    = [0xDBE, 0xFFFFFFFFFFFFFDBE, 0, 0xDEA123EF, 0x30000000DEADBEEF] := by decide
/-- The worked example of R108: CRC-32C of "123456789". -/
theorem test_crc :
    gives (.crc 1 1 3 0) 1 [(1, gives (.crc 1 1 2 3) 1 [(1, 0xFFFFFFFF), (2, 0x3837363534333231)]), (3, 0x39)] ^^^ 0xFFFFFFFF = 0xE3069283 := by decide
/-- The worked example of R113 and R114: TMASK and the calls. -/
theorem test_call_kills_registers :
    let s := after (.jalr 15 6) (runs 17 { grain [(6, 0x20000), (7, 9)] with pc := 0x10000 })
    let t := after (.jal 8 0x3C) (s.setMe { s.me with pc := 0x20010 })
    let u := after (.ret 8) t
    (s.me.pc, s.rd 15, s.rd 7) = (0x20000, 0x10004, 9) ∧ (t.me.pc, t.rd 8, t.me.cmask, t.rd 6) = (0x20100, 0x20014, 0x02E003E0, 0)
      ∧ (u.me.pc, u.me.cmask) = (0x20014, 0x03E003E0) := by decide
/-- R21, R114: the same RET to an address that is no word address traps with PC and CMASK unchanged. -/
theorem test_misaligned_return :
    let t := after (.ret 15) (runs 17 { grain [(15, 0x10006)] with pc := 0x20014 })
    (t.me.st, t.me.tcause, t.me.tval, t.me.tepc, t.me.pc, t.me.dead) = (.trapped, 0x04, 0x10006, 0x20014, 0x20014, 0) := by decide
/-- The worked example of R116: FADD under RNE, RUP and RSR, and the inexact count. -/
theorem test_fadd_rounding :
    let x := grain [(1, 0x3F800000), (2, 0x33800000), (3, 0x8000)]
    let a := after (.fadd 3 1 2) (runs 17 x)
    let b := after (.fadd 3 1 2) (runs 17 { x with pp := true, pfmt := 0x010 })
    let c := after (.fadd 3 1 2) (runs 17 { x with pp := true, pfmt := 0x020 })
    let d := after (.fadd 3 1 2) (runs 17 { x.wr 3 0x7FFF with pp := true, pfmt := 0x020 })
    [a.rd 3, b.rd 3, c.rd 3, d.rd 3] = [0x3F800000, 0x3F800001, 0x3F800001, 0x3F800000] ∧ (a.me.evc.nth 3).count = 1 ∧ b.me.pp = false := by decide
/-- The worked examples of R45 and R50 to R52: BF16, E4M3 and INT8. -/
theorem test_narrow_and_convert :
    (narrow 1 { mode := 4, rnd := 0x4000 } none 0x3F80C000).1 = 0x3F81 ∧ (narrow 1 { mode := 4, rnd := 0x3FFF } none 0x3F80C000).1 = 0x3F80
      ∧ (narrow 2 {} none 0x43960000).1 = 0x79 ∧ (narrow 2 {} none 0x43EB0000).1 = 0x7E ∧ toInt 8 { mode := 0 } 0xC3008000 = (-128, 0x8)
      ∧ toInt 8 { mode := 0 } 0x42FF3333 = (127, 1) := by decide
/-- The worked example of R57: E2M1 under the scale 2.0. -/
theorem test_block_scale :
    (narrow 4 {} (some 0x80) 0x40A00000).1 = 4 ∧ widen 4 (some 0x80) 4 = 0x40800000 ∧ (narrow 4 {} (some 0x80) 0xC0400000).1 = 0xB := by decide
/-- The worked examples of R58, R61 and R217: a cell of E2M1 dense with block scales, its drain, and a cell of E4M3 under 2:4. -/
theorem test_cell :
    cellBeat 0x440 0x4B800000 0x80B5 0x4817 = (0x4B80000B, 8) ∧ (cellDrain 0x480 0x3F80 0x4000 0x4B80000B).1 = 0x4C00000B
      ∧ cellBeat 0x201 0x3E800000 0xB8304038 0x000D4440 = (0x3FA00000, 0) := by decide
/-- The worked example of R131 and R132: MKSCL, NARROW and PACK under their prefixes. -/
theorem test_scale_of_a_block :
    let s := after (.mkscl 5 1) (after (.fmt 0x410) (running 17 [(1, 0x41200000), (2, 0xC0100000), (8, 3)]))
    let t := after (.narrow 6 2 5) (after (.fmt 0x440) s)
    let u := after (.pack 7 7 6 8) (after (.fmt 0x400) t)
    (s.rd 5, t.rd 6, u.rd 7, (u.me.evc.nth 3).count) = (0x76, 0xB, 0xB000, 2) ∧ (after (.mkscl 5 1) (after (.fmt 0x400) (running 17 [(1, 0x41200000)]))).rd 5 = 0x75 := by decide
/-- The worked example of R388: five AMOTOPKs with K = 3. -/
theorem test_topk :
    let e := 0xFFFFFFFF
    let v (p : Nat) : W64 := BitVec.ofNat 64 (0x200000000 + p)
    let a := topkApply (List.replicate 8 e) (v 0x00073F00)
    let b := topkApply a.1 (v 0x00023F40)
    let c := topkApply b.1 (v 0x00033F00)
    let d := topkApply c.1 (v 0x00017FC0)
    let f := topkApply d.1 (v 0x00093F80)
    [a.2.1, b.2.1, c.2.1, d.2.1, f.2.1] = [0xFFFFFFFF, 0xFFFFFFFF, 0x1FFFFFFFF, 0x8000000800017FC0, 0x73F00] ∧ d.2.2 = 1
      ∧ f.1 = [0x00093F80, 0x00023F40, 0x00033F00, e, e, e, e, e] := by decide
/-- The worked example of R133. -/
theorem test_isect :
    [gives (.isect 3 1 2 0) 3 [(1, 0x0014000C00070003), (2, 0x001F001400070005)], gives (.isect 3 1 2 0) 3 [(1, 0xFFFFFFFF0024001F), (2, 0x001F001400070005)]]
    = [0xA6A, 0x1181] := by decide
/-- The worked example of R138: CORENO, and a counter written. -/
theorem test_csr :
    let c := 65536 / 2 + 0x21 * 128 + 5 * 16 + 9
    let x := { grain [(4, 0x100000000)] with lgn := 0x290D9, evc := EvcSet.zero.set 3 { sat := true, count := 7 } }
    let s : State := { runs c x with dev := { quiet.dev with chip := 2 } }
    let written (s : State) : State := after (.csrw 0 4 0x13) { after (.csrw 0 4 0x13) s with stage := 1 }
    (after (.csrr 3 3) s).rd 3 = 0x000290D9000290D9 ∧ (written s).me.evc.nth 3 = { sat := false, count := 0 }
      ∧ (written (s.setMe (x.wr 4 5))).me.evc.nth 3 = { sat := true, count := 5 } := by decide
/-- The worked example of R69: a join of counters saturates. -/
theorem test_counter_join :
    (({ count := 0xFFFFFF00 : Evc }.join { count := 0x200 }).join { count := 5 }) = { sat := true, count := 0xFFFFFFFF } := by decide
/-- The worked example of R294: home and memory-side slice of PA 0x4_0080. -/
theorem test_home : homeOf 0x801 = 0x11 ∧ memSideOf 0x801 = 0x21 ∧ servingOf 1 0x801 = 0x51 := by decide
/-- The worked example of R399: the monitor's bins and sums. -/
theorem test_monitor :
    let s : State := { running 17 [] with clusters := [(0, { mon := { src := 1, base := 100, shift := 4 } })] }
    let sample (s : State) (x : BitVec 32) : State := after .monitorSample { s with ev := .monitorSample 0 x }
    let m := ((sample (sample (sample (sample s 90) 100) 131) 400).cluster 0).mon
    (m.min, m.max, m.sum, m.cnt, m.bins.getD 0 0, m.bins.getD 1 0, m.bins.getD 15 0) = (90, 400, 721, 4, 2, 1, 1) := by decide

/-- A grain whose instruction has reached its unit, with the reply outstanding under token 5. -/
def atUnit (c : CtxId) (l : List (BitVec 4 × W64)) : State := { runs c { grain l with st := .waiting, why := .reply 5 } with stage := 1 }
/-- The values of the replies that are on their way. -/
def replyValues (s : State) : List W64 :=
  s.agenda.filterMap (fun e => match e.act with
    | .ev (.replyArrival _ r) => some r.val
    | _ => none)

/-- The worked example of R379 to R382: four submissions, and the first two nodes taken. -/
theorem test_thresher :
    let sub (s : State) (a p c : W64) : State := after (.tgsub 3 4 5 6) { s.setMe { (((grain [(4, a)]).wr 5 p).wr 6 c) with st := .waiting, why := .reply 5 } with agenda := [] }
    let a := sub (atUnit 17 []) 0x10000 0xFFFFFFFFFFFFFFFF 5
    let b := sub a 0x10040 0xFFFFFFFFFFFF0000 2
    let c := sub b 0x10080 0xFFFFFFFFFFFFFFFF 9
    let d := sub c 0x100C0 0xFFFFFFFF00020001 1
    let p := after (.tgnext 3) { d with agenda := [] }
    let q := after (.tgnext 3) { p with agenda := [] }
    [a, b, c, d, p, q].map replyValues = [[0], [1], [2], [3], [0x0002000000010080], [0x0000000000010000]]
      ∧ (List.range 4).map (fun n => ((d.thresher 0).node n).rp) = [8, 3, 10, 1] := by decide
/-- The worked example of R287 and R278: BOPEN of t8 takes entry 3 and page 0x203, and BQUERY of the sealed bolt. -/
theorem test_bopen_and_bquery :
    let cl := 256 + 0x21
    let b (e : Nat) : Nat × Bolt := (e, { st := .open_, page := 0x200 + e, npages := 1 })
    let x : Cluster := { bpEn := true, bpBase := 0x200, bpN := 16, bolts := [b 0, b 1, b 2, (3, { gen := 5 })] }
    let s : State := { atUnit (cl * 128 + 17) [(6, 0x20707), (7, 0x040301F4)] with cycle := 1004, clusters := [(cl, x)] }
    let t := after (.bopen 5 6 7 8) s
    let y := (t.cluster cl).bolt 3
    let q := { t with agenda := [] }.setCluster cl { t.cluster cl with bolts := Tab.set (t.cluster cl).bolts 3 { y with st := .sealed_, cause := 1, valid := 0x1F, posted := true } }
    replyValues t = [0x0020300021000503] ∧ (y.st, y.page, y.npages, y.expiry, y.steer, y.work) = (.open_, 0x203, 1, 1504, 3, 4)
      ∧ replyValues (after (.bqueryStatus 5 6) (q.setMe { grain [(6, 0x21000503)] with st := .waiting, why := .reply 5 })) = [0x0000000500000562] := by decide

/-! States and operands that meet the hypotheses of the statements, clause by clause. -/

/-- ArithmeticAndLogic: every form has its result, with no prefix pending. -/
theorem witness_ArithmeticAndLogic :
    let s := running 17 [(1, -7), (2, 0)]
    s.me.pp = false ∧ ([.add 0 1 2, .sub 15 1 2, .addw 3 1 2, .subw 3 1 2, .and_ 3 1 2, .or_ 3 1 2, .xor_ 3 1 2, .andn 3 1 2, .orn 3 1 2, .xnor 3 1 2, .sll 3 1 2, .srl 3 1 2
        , .sra 3 1 2, .rol 3 1 2, .ror 3 1 2, .sllw 3 1 2, .srlw 3 1 2, .sraw 3 1 2] : List Instr).all (fun i => (registerResult s i).isSome) = true
      ∧ ([.mul 3 1 2, .mulh 3 1 2, .mulhu 3 1 2, .mulw 3 1 2, .div 3 1 2, .divu 3 1 2, .rem 3 1 2, .remu 0 1 2] : List Instr).all (fun i => (productResult s i).isSome) = true := by decide
/-- ConstantsAndBits. -/
theorem witness_ConstantsAndBits :
    let s := running 17 [(1, -7), (2, 0)]
    s.me.pp = false ∧ ([.addi 3 1 0x3FFF, .andi 3 1 0, .ori 3 1 0, .xori 3 1 0, .slli 3 1 63, .srli 3 1 0, .srai 3 1 63, .hash 3 1 2, .slt 3 1 2, .sltu 3 1 2, .seq 3 1 2
        , .sel 3 2 1 0, .hset 4 3 0xFFFF, .hins 4 0 0] : List Instr).all (fun i => (constantResult s i).isSome) = true
      ∧ ([.brev 3 1, .bswap 3 1, .bext 3 1 2, .bins 3 1 2 1] : List Instr).all (fun i => (bitResult s i).isSome) = true
      ∧ ([.clz 3 2, .ctz 3 1, .popc 0 1] : List Instr).all (fun i => (countResult s i).isSome) = true := by decide
/-- ControlTransfers: branches taken and not taken, and word and other addresses. -/
theorem witness_ControlTransfers :
    let s := running 17 [(1, -1), (2, 1), (6, 0x20000), (7, 0x20002)]
    s.me.pp = false ∧ ([.beq 1 1 0, .bne 1 2 0, .blt 1 2 0, .bge 2 1 0, .bltu 2 1 0, .bgeu 1 2 0x7FFF] : List Instr).all (fun i => (branchResult s i).isSome) = true
      ∧ s.rd 1 ≠ s.rd 2 ∧ (s.rd 1).toInt < (s.rd 2).toInt ∧ ¬ (s.rd 2).toInt < (s.rd 1).toInt ∧ wordAddress (s.rd 6) ∧ ¬ wordAddress (s.rd 7) := by
  unfold wordAddress; decide
/-- FormatSensitiveInstructions: every form with a payload that it accepts, pending and by default, and with one that it refuses. -/
theorem witness_FormatSensitiveInstructions :
    let s := running 17 [(1, 0x3F800000), (2, 0x3F800000)]
    let ok (p : BitVec 12) (i : Instr) : Bool := match formatResult s i with
      | some (k, _, _, _) => k.ok p
      | none => false
    let no (p : BitVec 12) (i : Instr) : Bool := match formatResult s i with
      | some (k, _, _, _) => !k.ok p
      | none => false
    let l : List Instr := [.fadd 3 1 2, .fsub 3 1 2, .fmul 3 1 2, .fdiv 3 1 2, .fsqrt 3 1, .fma 3 1 2 1, .fmin 3 1 2, .fmax 3 1 2, .fsgnj 3 1 2 2, .feq 3 1 2, .flt 3 1 2, .fle 3 1 2, .cvtf 3 1 1]
    l.all (ok 0x020) = true ∧ l.all (no 0x640) = true ∧ ([.narrow 3 1 2, .widen 3 1 2, .mkscl 3 1] : List Instr).all (ok 0x440) = true
      ∧ ([.pack 3 1 2 1, .unpack 3 1 2, .cvti 3 1] : List Instr).all (ok 0x600) = true ∧ ok 0x100 (.narrow 3 1 2) = true
      ∧ ([.narrow 3 1 2, .pack 3 1 2 1, .unpack 3 1 2, .cvti 3 1, .mkscl 3 1] : List Instr).all (no 0x04B) = true := by decide
/-- NarrowFormatsRoundTrip: the first and the last format, mode and code. -/
theorem witness_NarrowFormatsRoundTrip : 2 ≤ 2 ∧ 4 ≤ 4 ∧ 4 < 5 ∧ 255 < 2 ^ fmtWidth 2 ∧ 15 < 2 ^ fmtWidth 4 := by decide
/-- ComparesAndPackedElements: numbers, a quiet and a signalling NaN; default and pending payloads; both element sizes of ISECT. -/
theorem witness_ComparesAndPackedElements :
    ¬ isNan32 0x7F800000 ∧ isNan32 0x7FC00000 ∧ ¬ isSignalling32 0x7FC00000 ∧ isSignalling32 0x7F800001 ∧ (running 17 []).me.pp = false
      ∧ ([0x100, 0x600, 0x000, 0x400] : List (BitVec 12)).all (fun p => decide (plFmt p < 7) && plScale p == 0 && plRound p == 0 && !plSat p && plSparse p == 0) = true
      ∧ (0 : BitVec 4).toNat < 2 ∧ (1 : BitVec 4).toNat < 2 := by
  refine ⟨?_, ?_, ?_, ?_, by decide⟩ <;> simp [isSignalling32, isNan32]
/-- PrefixesCallsAndIllegalWords: a prefix before an instruction that takes none; TRAP with a zero and another condition. -/
theorem witness_PrefixesCallsAndIllegalWords :
    (runs 17 { grain [] with pp := true, pfmt := 0x460 }).me.pp = true ∧ notFormatSensitive .nop = true ∧ (running 17 []).me.pp = false ∧ (running 17 []).stage = 0
      ∧ (running 17 [(1, 1)]).rd 2 = 0 ∧ (running 17 [(1, 1)]).rd 1 ≠ 0 := by decide
/-- TrapsTaken: a grain, a steward outside its trap entry, and one in it with a member of a gang beside it. -/
theorem witness_TrapsTaken :
    let g : Nat := 7
    let a := running 17 []
    let b := running 16 []
    let c : State := { b with cores := [(1, { inh := true })], ctxs := b.ctxs ++ [(17, { grain [] with gang := some g })] }
    a.twin 17 = none ∧ (a.ctx 17).resv = none ∧ 17 % 16 ≠ 0 ∧ (a.ctx (stewardOf (coreOf 17))).st ≠ .waiting ∧ b.twin 16 = none ∧ (b.ctx 16).resv = none ∧ 16 % 16 = 0
      ∧ (b.core (coreOf 16)).inh = false ∧ c.twin 16 = none ∧ (c.core (coreOf 16)).inh = true ∧ (c.ctx (16 + 1)).gang = some g := by decide
/-- ReturnsAndEnds: SRET in a steward, in privileged grains and at user level; IDLE with and without stores out. -/
theorem witness_ReturnsAndEnds :
    let x := grain []
    (running 16 []).me.pp = false ∧ (running 16 []).cur % 16 = 0 ∧ (runs 17 { x with priv := true, tepc := 0x2000 }).me.tepc.toNat % 4 = 0
      ∧ (runs 17 { x with priv := true, tepc := 0x2002 }).me.tepc.toNat % 4 ≠ 0 ∧ (running 17 []).me.priv = false ∧ (running 17 []).cur % 16 ≠ 0
      ∧ (runs 17 { x with pend := [{}] }).me.pend ≠ [] ∧ (running 30 []).me.pend = [] ∧ (running 30 []).me.why = .none ∧ (running 30 []).me.resv = none ∧ 30 % 16 ≤ 14
      ∧ ((running 30 []).core (coreOf 30)).areap = false ∧ ((running 30 []).ctx (stewardOf (coreOf 30))).st ≠ .waiting := by decide
/-- CsrReads: registers of every owner, a number of each end of a run, and numbers that no chapter assigns. -/
theorem witness_CsrReads :
    (running 17 []).me.pp = false ∧ (csrValue (running 17 []) (running 17 []).cur).length = 17 ∧ (∀ n ∈ [0x000, 0x005, 0x01F, 0x846, 0x8BF, 0xC23], csrAssigned n)
      ∧ ∀ n ∈ [0x006, 0x020, 0x7FF, 0x8C0, 0xC24, 0xFFF], ¬ csrAssigned n := by
  refine ⟨by decide, by decide, ?_, ?_⟩ <;> simp [csrAssigned]
/-- RegisterEvents: writes of BPOOL that are bad, that find the pool in use, and that are taken; a parked translation fault. -/
theorem witness_RegisterEvents :
    (¬ (0x2FF + 1 > 768)) ∧ (0x300 + 1 > 768) ∧ (∃ e ∈ [(0, ({ st := .open_ } : Bolt))], e.2.st ≠ .free)
      ∧ (let s : State := { quiet with cores := [(1, { tfQ := [{ ctx := 1, va := 0x5000 }] })], ctxs := [(17, { grain [] with st := .parked, why := .tfault })] }
         (s.core 1).tfQ = { ctx := 1, va := 0x5000 } :: [] ∧ (s.ctx (1 * 16 + 1)).gang = none) := by decide
/-- CsrWriteEffects: a user's write of a privileged register; a write of a counter; a steward's writes. -/
theorem witness_CsrWriteEffects :
    csrAssigned (0x814 : BitVec 12).toNat ∧ (0x814 : BitVec 12).getLsbD 11 = true ∧ (running 17 []).me.priv = false ∧ (running 17 []).cur % 16 ≠ 0 ∧ (running 17 []).me.pp = false ∧ 15 < 16
      ∧ (running 16 []).me.pp = false ∧ (running 16 []).cur % 16 = 0 := by
  refine ⟨?_, by decide⟩; simp [csrAssigned]

/-- A page of 64 KiB with every permission, in a job slot. -/
def page (slot : BitVec 4) (va pa : Nat) : TlbEnt := { slot := slot, va := va, pa := pa, d := true, u := true, x := true, w := true, r := true }
/-- The TLB of a core: the scratchpad of cluster 0 at 0x10000, HBM4 at 0x20000, and a page at 0x30000 that may only be read. -/
def pages (slot : BitVec 4) : Core := { tlb := [page slot 0x10000 0x8000000000, page slot 0x20000 0x20000, { page slot 0x30000 0x20000 with w := false }] }
/-- A context running with those pages. -/
def mapped (c : CtxId) (x : Ctx) : State := { runs c x with cores := [(c / 16, pages (if c % 16 = 0 then 0xF else 1))] }
/-- One piece. -/
def piece (pa n : Nat) : List Piece := [{ pa := pa, len := n }]

/-- MemoryRequests: a load that waits. -/
theorem witness_MemoryRequests_load :
    let s := mapped 17 (grain [(6, 0x10008)])
    ∃ need a ps e, accessOf s (.ld 5 6 true 0 0) = some (need, a) ∧ mayAccess s need a ps e ∧ (∀ p ∈ ps, (s.region p.pa).outside = false)
      ∧ s.l1Hits (coreOf s.cur) ps = false ∧ a.posted = false :=
  ⟨.r, _, piece 0x8000000008 8, page 1 0x10000 0x8000000000, rfl,
    ⟨rfl, rfl, ⟨by decide, by decide⟩, ⟨_, rfl, Or.inl ⟨by decide, rfl⟩⟩, by decide, fun _ => ⟨0, 8, by decide⟩, fun _ => rfl, rfl⟩, by decide, rfl, rfl⟩
/-- MemoryRequests: an atomic whose result is discarded, and a GADD to a scratchpad. -/
theorem witness_MemoryRequests_posted :
    let s := mapped 17 (grain [(6, 0x10008)])
    (∃ need a ps e, accessOf s (.fxadd 0 6 7 false false false 3) = some (need, a) ∧ mayAccess s need a ps e ∧ (∀ p ∈ ps, (s.region p.pa).outside = false) ∧ a.posted = true)
      ∧ ∃ need a ps e, accessOf s (.gadd 6 7 1 false true 0) = some (need, a) ∧ mayAccess s need a ps e ∧ (∀ p ∈ ps, (s.region p.pa).outside = false)
        ∧ hbmBytes ≤ (ps.headD {}).pa ∧ a.posted = true :=
  ⟨⟨.rw, _, piece 0x8000000008 8, page 1 0x10000 0x8000000000, rfl,
    ⟨rfl, rfl, ⟨by decide, by decide⟩, ⟨_, rfl, Or.inl ⟨by decide, rfl⟩⟩, by decide, fun _ => ⟨0, 8, by decide⟩, by decide, rfl⟩, by decide, rfl⟩,
   ⟨.rw, _, piece 0x8000000008 4, page 1 0x10000 0x8000000000, rfl,
    ⟨rfl, rfl, ⟨by decide, by decide⟩, ⟨_, rfl, Or.inl ⟨by decide, rfl⟩⟩, by decide, fun _ => ⟨0, 8, by decide⟩, by decide, rfl⟩, by decide, by decide, rfl⟩⟩
/-- MemoryRequests: every memory instruction makes an access; JOIN and JWAIT at a scratchpad word. -/
theorem witness_MemoryRequests_forms :
    let s := mapped 17 (grain [(6, 0x10008)])
    (([.lb 5 6 true 0 0, .lbu 5 6 true 0 0, .lh 5 6 true 0 0, .lhu 5 6 true 0 0, .lw 5 6 true 0 0, .lwu 5 6 true 0 0, .sb 5 6 true 0 0, .sh 5 6 true 0 0, .sw 5 6 true 0 0
      , .sd 5 6 true 0 0, .lr 5 6 true false true 0, .sc 5 6 7 false true true 0, .fxswp 5 6 7 false false true 0, .fxand 5 6 7 false false true 0, .fxor 5 6 7 false false true 0
      , .fxxor 5 6 7 false false true 0, .fxmin 5 6 7 false false true 0, .fxmax 5 6 7 false false true 0, .fxminu 5 6 7 false false true 0, .fxmaxu 5 6 7 false false true 0
      , .fxcas 5 6 7 false false true 0, .amofadd 5 6 7 false false true 0, .amotopk 5 6 7 false false true 0, .amobinc 5 6 7 false false true 0, .ldfe 5 6 true 0 0
      , .ldff 5 6 true 0 0, .stfe 5 6 true 0 0, .feset 1 6 true 0 0, .join 6, .jwait 6] : List Instr).all (fun i => (accessOf s i).isSome)) = true
      ∧ s.region 0x8000000008 = .scratch 0 8 := by decide
/-- AccessesHeldOrTrapped: an unaligned atomic, a run past the top of memory, a store to a page that may only be read, an address that
nothing maps, and a ninth store. -/
theorem witness_AccessesHeldOrTrapped :
    let s := mapped 17 (grain [(6, 0x10001), (7, 0xFFFFFFFFFFFFFFFC), (8, 0x30000), (9, 0x50000)])
    let t := mapped 17 { grain [(6, 0x10008)] with pend := List.replicate 8 {} }
    s.me.pp = false ∧ ¬ addressAccepted { op := .fx 3, va := s.rd 6 } ∧ ¬ addressAccepted { op := .load 6, va := s.rd 7 } ∧ addressAccepted { op := .store, va := s.rd 8 }
      ∧ s.look s.cur (s.rd 8) .w = .fault 2 ∧ s.look s.cur (s.rd 9) .r = .fault 1 ∧ s.cur % 16 ≠ 0 ∧ (s.ctx (stewardOf (coreOf s.cur))).st ≠ .waiting
      ∧ (s.core (coreOf s.cur)).wdWait = 0 ∧ translates t 0x10008 8 .w (piece 0x8000000008 8) (page 1 0x10000 0x8000000000)
      ∧ t.mustHold t.cur { op := .store, va := 0x10008, posted := true } (piece 0x8000000008 8) = true := by
  refine ⟨rfl, ?_, ?_, ⟨?_, ?_⟩, rfl, rfl, by decide, by decide, by decide, ⟨_, rfl, Or.inl ⟨by decide, rfl⟩⟩, by decide⟩ <;> (try unfold addressAccepted) <;> decide
/-- CachedLoadsAndPrefetch: a line that the L1 holds under a lease that lasts; a prefetch whose address translates. -/
theorem witness_CachedLoadsAndPrefetch :
    let m := mapped 17 (grain [(6, 0x20008)])
    let x : L1Line := { data := 7 <<< 64, wts := 3, rts := 63 }
    let s := m.setCore 1 { pages 1 with l1 := [(lineOf 0x20008, x)] }
    accessOf s (.ld 5 6 true 0 0) = some (.r, { op := .load 6, rd := 5, va := 0x20008 }) ∧ mayAccess s .r { op := .load 6, rd := 5, va := 0x20008 } (piece 0x20008 8) (page 1 0x20000 0x20000)
      ∧ 0x20008 < hbmBytes ∧ s.l1 (coreOf s.cur) (lineOf 0x20008) = some x ∧ x.st = .v ∧ ¬ x.rts.ult (s.ct (coreOf s.cur))
      ∧ (s.translateCtx s.cur (baseOffset s 6 0 128) .r).2 = .ok (0x20008, page 1 0x20000 0x20000) :=
  ⟨rfl, ⟨rfl, rfl, ⟨by decide, by decide⟩, ⟨_, rfl, Or.inl ⟨by decide, rfl⟩⟩, by decide, (by rintro (h | h) <;> cases h), fun _ => rfl, rfl⟩, by decide, rfl, rfl, by decide, rfl⟩
/-- FencesAndWaits: a fence that waits, one that does not, both stages of scope 5, and WRS with and without a reservation. -/
theorem witness_FencesAndWaits :
    let s := running 17 []
    let t := runs 17 { grain [] with pend := [{}], resv := some 0x20000 }
    let u : State := { runs 17 { grain [] with st := .waiting, why := .timed } with stage := 1 }
    s.me.pp = false ∧ s.stage = 0 ∧ fenceWaits 1 ∧ fenceWaits 2 ∧ ¬ fenceWaits 4 ∧ s.me.pend = [] ∧ s.me.why = .none ∧ s.me.resv = none ∧ t.me.pend ≠ [] ∧ t.me.resv = some 0x20000
      ∧ (t.core (coreOf t.cur)).wdWait = 0 ∧ u.stage = 1 ∧ u.me.why = .timed ∧ u.me.pp = false := by unfold fenceWaits; decide
/-- BankAccesses: an atomic at a quiet bank, with the operations that have a result, a refused byte, and a bank in use. -/
theorem witness_BankAccesses :
    let s : State := { quiet with mem := [(0x8000000008, 5)] }
    let r : Req := { id := 9, who := 17, op := .fx 3, pieces := piece 0x8000000008 8, val := 2, rd := 4 }
    let full : State := { quiet with clusters := [(0, { bpEn := true, bpN := 1 })] }
    let busy : State := { quiet with clusters := [(0, { bankUse := (100, [0]) })] }
    meetsBank s r { pa := 0x8000000008, len := 8 } 0 8 ∧ s.refusedByte 0x8000000008 8 = none
      ∧ bankEffect (BitVec.ofNat 64 (leNat (s.cohRead 0x8000000008 8))) r = some (some 7, 5, 0)
      ∧ ([.load 6, .store, .sc, .binc, .gadd 1, .join, .fx 2, .fx 4, .fx 5, .fx 6, .fx 7, .fx 8, .fx 9, .fx 10, .fx 11, .fx 12] : List MemOp).all (fun o => (bankEffect 5 { r with op := o }).isSome) = true
      ∧ (BitVec.ofNat 64 (leNat (quiet.cohRead 0x8000000000 8)) : W64).extractLsb' 0 32 = 0 ∧ (BitVec.ofNat 64 (leNat (s.cohRead 0x8000000008 8)) : W64).extractLsb' 0 32 ≠ 0
      ∧ full.refusedByte 0x8000000008 8 = some 0x8000000008 ∧ busy.region 0x8000000008 = .scratch 0 8 ∧ bankOf 8 ∈ (busy.cluster 0).bankUse.2 ∧ (busy.cluster 0).bankUse.1 = busy.cycle :=
  ⟨by unfold meetsBank; decide, by decide, by decide, by decide, by decide, by decide, by decide, by decide, by decide, by decide⟩
/-- BankAccesses: a JWAIT that would park. -/
theorem witness_BankAccesses_jwait :
    let s : State := { quiet with mem := [(0x8000000008, 5)], ctxs := [(17, { grain [] with st := .waiting, why := .reply 9 })] }
    meetsBank s { id := 9, who := 17, op := .jwait, pieces := piece 0x8000000008 8 } { pa := 0x8000000008, len := 8 } 0 8 ∧ (s.ctx 17).why = .reply 9 ∧ (s.core (coreOf 17)).wdWait = 0 :=
  ⟨by unfold meetsBank; decide, rfl, rfl⟩
/-- FullEmptyForms: a full word and an empty one, a form that still waits for its reply. -/
theorem witness_FullEmptyForms :
    let s : State := { quiet with empties := [0x8000000010 / 8], ctxs := [(17, { grain [] with st := .waiting, why := .parked 9 })] }
    let r : Req := { id := 9, who := 17, op := .ldfe, pieces := piece 0x8000000008 8 }
    meetsBank s r { pa := 0x8000000008, len := 8 } 0 8 ∧ s.refusedByte 0x8000000008 8 = none ∧ s.cohFull 0x8000000008 = true
      ∧ meetsBank s { r with op := .stfe, pieces := piece 0x8000000010 8 } { pa := 0x8000000010, len := 8 } 0 16 ∧ s.cohFull 0x8000000010 = false ∧ (s.ctx 17).awaits 9 = true
      ∧ opFullEmpty .ldfe = true :=
  ⟨by unfold meetsBank; decide, by decide, by decide, by unfold meetsBank; decide, by decide, by decide, rfl⟩

/-- A context waiting for the reply with token 9. -/
def waiting : Ctx := { grain [] with st := .waiting, why := .reply 9 }
/-- A state with one context. -/
def holding (c : CtxId) (x : Ctx) : State := { quiet with ctxs := [(c, x)] }

/-- RepliesAndRefusals: a reply that ends a wait, is refused and retried; an acknowledgement; late refusals. -/
theorem witness_RepliesAndRefusals :
    let r : Reply := { id := 9, rd := 4, wr := true, val := 7 }
    let s := holding 17 waiting
    let p : Pend := { id := 9, pieces := piece 0x8000000008 8 }
    let t := holding 17 { grain [] with pend := [p] }
    let u := holding 17 { waiting with late := [{ id := 3, ia := 0x1000, va := 0x20000 }] }
    reachesWaiting s 17 r ∧ r.go = none ∧ (∀ f, (s.ctx 17).why ≠ .walk f) ∧ (u.core (coreOf 17)).frozen u.cycle = false ∧ r.trap = none ∧ r.again = false ∧ r.ends = false ∧ reachesWaiting s 17 { r with again := true } ∧ reachesWaiting s 17 { r with trap := some (7, 0, 0x20000) }
      ∧ 17 % 16 ≠ 0 ∧ (t.core (coreOf 17)).frozen t.cycle = false ∧ t.twin 17 = none ∧ (t.ctx 17).pend.find? (fun q => q.id == 9) = some p ∧ p.pieces.length ≤ 1
      ∧ (u.ctx 17).waits = true ∧ u.performedFor 17 = false ∧ (u.ctx 17).late ≠ [] ∧ u.twin 17 = none := by unfold reachesWaiting; decide
/-- RepliesAndRefusals: translations that arrive: of an access and of a fetch, with PC mapped and not, its line in the instruction cache and not. -/
theorem witness_RepliesAndRefusals_walks :
    let s (f : Bool) (l : List TlbEnt) (d : Tab LineData) : State :=
      { quiet with ctxs := [(17, { waiting with why := .walk f, pc := 0x20004 })], cores := [(1, { tlb := l, icache := d })] }
    let e := page 1 0x20000 0x20000
    (reachesWaiting (s true [e] []) 17 { adv := false } ∧ reachesWaiting (s false [e] []) 17 { adv := false } ∧ ((s true [e] []).ctx 17).why = .walk true)
      ∧ (s true [e] []).look 17 0x20004 .x = .hit 0x20004 e ∧ Tab.find ((s true [e] []).core (coreOf 17)).icache (lineOf 0x20004) = none ∧ (s true [e] []).region 0x20004 = .hbm
      ∧ (∀ pa x, (s true [] []).look 17 0x20004 .x ≠ .hit pa x) ∧ (s false [e] [(lineOf 0x20004, 0x0400000000000000)]).look 17 0x20004 .x = .hit 0x20004 e
      ∧ Tab.find ((s false [e] [(lineOf 0x20004, 0x0400000000000000)]).core (coreOf 17)).icache (lineOf 0x20004) = some 0x0400000000000000
      ∧ decodeWord ((0x0400000000000000 : LineData).extractLsb' (32 * (0x20004 / 4 % 32)) 32) = some (.add 0 0 0) ∧ ((s false [e] []).ctx 17).uerr = none :=
  ⟨⟨by unfold reachesWaiting; decide, by unfold reachesWaiting; decide, rfl⟩, rfl, rfl, rfl, fun _ _ => nofun, rfl, rfl, rfl, rfl⟩
/-- RepliesAndRefusals: a JWAIT parked at a join cell that is zero, and an LR that waits to be registered. -/
theorem witness_RepliesAndRefusals_homes :
    let j : Req := { id := 9, who := 17, op := .jwait, pieces := piece 0x8000000008 8 }
    let s : State := { quiet with clusters := [(0, { parked := [j] })] }
    let r : Req := { id := 9, who := 17, op := .lr, pieces := piece 0x8000000008 8 }
    let t : State := { quiet with slices := [(0, { lrWait := [r] })] }
    s.region 0x8000000008 = .scratch 0 8 ∧ 0x8000000008 % 8 = 0 ∧ hbmBytes ≤ 0x8000000008 ∧ (s.cluster 0).parked = [j] ∧ (j.pieces.headD {}).pa = 0x8000000008
      ∧ (BitVec.ofNat 64 (leNat (s.cohRead 0x8000000008 8)) : W64).extractLsb' 0 32 = 0 ∧ meetsBank t r { pa := 0x8000000008, len := 8 } 0 8 ∧ r ∈ (t.slice (t.quadOf 0)).lrWait
      ∧ (t.ctx 17).resv = none :=
  ⟨by decide, by decide, by decide, by decide, by decide, by decide, by unfold meetsBank; decide, by decide, rfl⟩

/-- Page tables in HBM4 for job slot 1: the root at 0x100000, a table at 0x200000, and a leaf of 1 GiB at address 0 with every permission. -/
def tables : State :=
  { quiet with
    mem := Memory.write (Memory.write [] 0x100000 (leBytes 8 0x200001)) 0x200000 (leBytes 8 0xBF)
    dev := { quiet.dev with asroot := quiet.dev.asroot.set 1 (true, 0x100) } }
/-- Walks already in a walker's queue. -/
def walks (n : Nat) : List WalkReq := (List.range n).map (fun k => { slot := 2, page := k })

/-- WalksFetchesAndEntries: a walker with room for a slot with tables, with none, and with a root outside HBM4; with its walks in flight, and full. -/
theorem witness_WalksFetchesAndEntries :
    let busy (m : Nat) : State := { quiet with slices := [(3, { walks := walks 32, walkQ := walks m })] }
    let far : State := { quiet with dev := { quiet.dev with asroot := quiet.dev.asroot.set 1 (true, -1) } }
    (∀ y ∈ (quiet.slice 3).walks ++ (quiet.slice 3).walkQ, ¬ (y.slot = 1 ∧ y.page = 5 ∧ y.dirty = false)) ∧ (tables.slice 3).walks.length < 32 ∧ (tables.slice 3).walks ++ (tables.slice 3).walkQ = []
      ∧ (tables.dev.asroot.getD 1 (false, 0)).1 = true ∧ 4096 * (tables.dev.asroot.getD 1 (false, 0)).2.toNat < tables.hbmLen ∧ (quiet.slice 3).walks.length < 32 ∧ (quiet.slice 3).walkQ = []
      ∧ (quiet.dev.asroot.getD 1 (false, 0)).1 = false ∧ (far.slice 3).walks.length < 32 ∧ (far.slice 3).walkQ = [] ∧ far.hbmLen ≤ 4096 * (far.dev.asroot.getD 1 (false, 0)).2.toNat
      ∧ 32 ≤ ((busy 1).slice 3).walks.length ∧ ((busy 1).slice 3).walkQ.length < 512 ∧ 512 ≤ ((busy 512).slice 3).walkQ.length := by decide
/-- WalksFetchesAndEntries: walks whose entry is absent, wrong, outside HBM4, a table, a leaf, a leaf that is to take D; one that has set D; a fetch at its slice; a line from HBM4 and
from a scratchpad; a steward's event. -/
theorem witness_WalksFetchesAndEntries_ends :
    let q : WalkReq := { slot := 1, page := 5, who := [17], no := 7 }
    let s (q : WalkReq) : State := { tables with slices := [(3, { walks := [q] })] }
    let k : State := { quiet with cores := [(1, { eie := true, wkcnt := 1 })] }
    let r : Req := { who := 17, op := .load 6, pieces := piece 128 8, via := .fetch }
    let l : State := { quiet with lines := [(1, { s0 := { st := .s } })] }
    ((s q).slice 3).walks.find? (fun x => x.no == 7) = some q ∧ q.void = false ∧ ((s q).slice 3).walkQ = [] ∧ q.ent = none ∧ (0 : W64).getLsbD 0 = false
      ∧ (0x10000000000001 : W64).getLsbD 0 = true ∧ 2 ^ 52 ≤ (0x10000000000001 : W64).toNat
      ∧ (0xF000000000001 : W64).getLsbD 0 = true ∧ (0xF000000000001 : W64).getLsbD 1 = false ∧ (0xF000000000001 : W64).toNat < 2 ^ 52 ∧ (0xF000000000001 : W64).toNat % 256 = 1 ∧ q.level < 3
      ∧ (0xF000000000001 : W64).toNat / 256 * 256 % 4096 = 0 ∧ (s q).hbmLen ≤ (0xF000000000001 : W64).toNat / 256 * 256
      ∧ (0x200001 : W64).toNat % 256 = 1 ∧ (0x200001 : W64).toNat / 256 * 256 % 4096 = 0 ∧ (0x200001 : W64).toNat / 256 * 256 < (s q).hbmLen
      ∧ ((s { q with level := 1, dirty := true }).slice 3).walks.find? (fun x => x.no == 7) = some { q with level := 1, dirty := true } ∧ (0xBF : W64).getLsbD 0 = true ∧ (0xBF : W64).getLsbD 1 = true
      ∧ (0xBF : W64).toNat / 256 * 256 % 2 ^ 30 = 0
      ∧ ((s { q with ent := some (page 1 0 0) }).slice 3).walks.find? (fun x => x.no == 7) = some { q with ent := some (page 1 0 0) }
      ∧ r.via = .fetch ∧ r.pieces = [{ pa := 128, len := 8 }] ∧ r.posted = false ∧ l.lentAway (128 * lineOf 128) = false ∧ (l.sl (lineOf 128) (dieOf 17)).readable = true
      ∧ (l.sl (lineOf 128) (dieOf 17)).fillAt = 0
      ∧ (quiet.core (coreOf 17)).frozen 100 = false ∧ (quiet.core (coreOf 17)).icache.length < 256 ∧ quiet.region (128 * 0) = .hbm ∧ quiet.region (128 * (0x8000000000 / 128)) = .scratch 0 0
      ∧ (k.core 1).eie = true ∧ (k.core 1).inh = false ∧ k.pendingEvent 1 = true := by decide

/-- A line of HBM4 in some state, line 0, whose home is slice 0 of die 0. -/
def lineIs (x : Line) : State := { quiet with lines := [(0, x)] }

/-- SliceRequests: a home that may write, one that holds nothing, an atomic unit in use; serving slices; a merge; joins; an L1's partial. -/
theorem witness_SliceRequests :
    let r : Req := { id := 9, who := 17, op := .store, pieces := piece 8 8, posted := true, val := 7 }
    let f : Req := { r with op := .fx 3, posted := false }
    let s := lineIs { s0 := { st := .m } }
    let b : State := { s with slices := [(0, { atomAt := 101 })] }
    let l : State := lineIs { s0 := { st := .s } }
    let a : State := lineIs { s0 := { st := .a, tag := 3, asked := [1, 2] } }
    let m : Req := { r with op := .fx 3, id := 10 }
    (r.via = .grain ∧ r.pieces = [{ pa := 8, len := 8 }] ∧ r.again = false ∧ r.done = 0 ∧ 8 < hbmBytes ∧ 8 % 128 + 8 ≤ 128 ∧ homeDie (lineOf 8) = 0) ∧ (s.region 8 = .hbm ∧ s.lentAway 8 = false
      ∧ (s.slice (homeOf (lineOf 8))).resv = [] ∧ (s.slice (homeOf (lineOf 8))).parked = []) ∧ ((s.home 0).writable = true ∧ (s.home 0).stores = [] ∧ (s.home 0).fillAt = 0)
      ∧ ((quiet.home 0).writable = false ∧ (quiet.home 0).st = .i ∧ (quiet.home 0).ask = 0 ∧ (quiet.home 0).fillAt = 0)
      ∧ (f.op = .fx 3 ∧ f.merged = [] ∧ (s.slice (homeOf 0)).atomAt ≤ s.cycle ∧ b.cycle < (b.slice (homeOf 0)).atomAt)
      ∧ ((l.sl 0 (dieOf 17)).readable = true ∧ (l.sl 0 (dieOf 17)).fillAt = 0 ∧ (quiet.sl 0 0).st = .i ∧ (quiet.sl 0 0).stores = [] ∧ (quiet.sl 0 0).loads = [] ∧ (quiet.sl 0 0).joins = [])
      ∧ (m.id ≠ r.id ∧ m.op = .fx 3 ∧ m.aq = false ∧ m.rl = false ∧ m.merged = [] ∧ m.posted = true)
      ∧ ((a.sl 0 0).st = .a ∧ (a.sl 0 0).tag = 3 ∧ (a.sl 0 0).joins = [] ∧ a.lentAway (128 * 0) = false ∧ (a.sl 0 (1 / 2048)).asked = [1, 2]) ∧ 1 < 2 := by decide
/-- SliceRequests: an L1 that waits for a grant, and one in A with a partial of a word. -/
theorem witness_SliceRequests_core :
    let s (y : L1Line) : State := { quiet with cores := [(1, { l1 := [(0, y)] })] }
    let y : L1Line := { st := .ia, tag := 3 }
    let z : L1Line := { st := .a, tag := 3, part := { present := 1 } }
    (s y).l1 1 0 = some y ∧ y.st = .ia ∧ y.tag = 3 ∧ y.wait = [] ∧ (s z).l1 1 0 = some z ∧ z.st = .a ∧ z.part.present ≠ 0 := by decide

/-- SliceMessages: a fill that comes and one that is installed; lines in each of the states. -/
theorem witness_SliceMessages :
    let f := lineIs { s0 := { st := .isD, fillAt := 100 } }
    let m := lineIs { s0 := { st := .m } }
    let h := lineIs { s0 := { st := .s }, s1 := { st := .miW } }
    let a := lineIs { s0 := { st := .a, holders := 1 } }
    (1 < 2 ∧ (quiet.sl 0 1).fillAt = 0) ∧ ((f.sl 0 0).fillAt = f.cycle ∧ f.cycle ≠ 0 ∧ (f.sl 0 0).stores = [] ∧ (f.sl 0 0).loads = [] ∧ (f.sl 0 0).joins = [] ∧ (f.sl 0 0).st ≠ .m
      ∧ ((f.held2 (servingOf 0 0) (sliceSet 0)).filter (· != 0)).length < sliceWays) ∧ ((m.home 0).st = .m ∧ (m.home 0).ask = 0 ∧ (m.home 0).stores = [] ∧ (m.home 0).loads = [] ∧ (m.home 0).joins = [])
      ∧ ((h.sl 0 0).st = .s ∧ (h.sl 0 0).ask = 0 ∧ (h.sl 0 0).fillAt = 0 ∧ (h.sl 0 1).st = .miW ∧ (h.sl 0 1).joins = [])
      ∧ ((m.slice (homeOf 0)).resv = [] ∧ 128 * 0 < hbmBytes) ∧ ((a.sl 0 0).holders ≠ 0 ∧ (a.sl 0 0).holders.getLsbD (1 / 8 % 256) = true ∧ 1 / 2048 = 0 ∧ (m.sl 0 0).holders = 0) := by decide

/-- DirectoryMessages: each request opens a transaction; requests that look up a line nobody holds, shared, in A, or dirty. -/
theorem witness_DirectoryMessages :
    let look (x : Line) (q : DirReq) : State := lineIs { x with txn := some { req := q, at_ := 100 } }
    let e : Line := { msc := some (0, 0xFFFF, false) }
    let sh : Line := { st := .s, sh0 := true, sh1 := false }
    let both : Line := { st := .s, sh0 := true, sh1 := true }
    (([(.rds 0 0 0), (.rdx 0), (.upg 0), (.ajn 0 0 3), (.aev 0 1), (.putMsg 0 1 5), (.wb 0 0 0 0 0), (.lineStep 0 1 true 9), (.hostPortRead 2 8 8 1 true), (.hostPortWrite 3 8 [1] true true)] : List Ev).all
        (fun v => (directoryRequest quiet 0 v).isSome)) = true ∧ portTakes quiet 2 ∧ quiet.dev.bridge = [] ∧ quiet.waitingAt (memSideOf 0) < 256 ∧ quiet.portPa 2 8 = 128 * 0 + 8 ∧ 0 < 2 ∧ quiet.answers = false
      ∧ quiet.region (quiet.portPa 2 0x8000000000) ≠ .hbm ∧ (quiet.line 0).txn = none ∧ 128 * 0 < hbmBytes
      ∧ looking (look e (.rds (.slice 0) 0)) 0 (.rds (.slice 0) 0) ∧ looking (look e .rdx) 0 .rdx ∧ looking (look e (.ajn 0 3)) 0 (.ajn 0 3) ∧ looking (look e (.portRead 2 1 8 8)) 0 (.portRead 2 1 8 8)
      ∧ looking (look e (.portWrite 2 8 [1] true)) 0 (.portWrite 2 8 [1] true) ∧ e.st = .i ∧ e.msc = some (0, 0xFFFF, false) ∧ quiet.region (128 * 0 + 8) = .hbm
      ∧ looking (look sh .upg) 0 .upg ∧ sh.sh 0 = true ∧ sh.sh (1 - 0) = false ∧ looking (look { both with st := .a } (.aev 0)) 0 (.aev 0) ∧ both.sh 1 = true
      ∧ looking (look both (.put 0 5)) 0 (.put 0 5) ∧ looking (look { st := .m } (.wb 0 0 0 0)) 0 (.wb 0 0 0 0) := by unfold looking portTakes; decide
/-- DirectoryMessages: transactions that wait for their answers, and a range step on a dirty line. -/
theorem witness_DirectoryMessages_answers :
    let u : Txn := { req := .rds (.slice 1) 0, fack := true, looked := true }
    let s := lineIs { st := .m, txn := some u, s0 := { st := .o } }
    let i := lineIs { st := .s, txn := some { req := .rdx, iacks := [0, 1] } }
    let p := lineIs { st := .a, txn := some { req := .rdx, plists := [1] } }
    let c := lineIs { st := .e, txn := some { req := .rdx, cmp := true } }
    let w := lineIs { st := .m, txn := some { req := .rdx, looked := true, cmp := true } }
    let o : RangeOp := { left := 1, who := some (17, 4) }
    let f : State := { lineIs { msc := some (0, 0xFFFF, true), txn := some { req := .lineStep 0 false 9, at_ := 100 } } with ranges := [(9, o)] }
    ((s.line 0).txn = some u ∧ u.req = .rds (.slice (1 - homeDie 0)) 0 ∧ u.iacks = [] ∧ u.cmp = false ∧ u.merge = false ∧ (s.sl 0 (homeDie 0)).st = .o ∧ u.absorbed = false)
      ∧ ((i.line 0).txn = some { req := .rdx, iacks := [0, 1] } ∧ (0 : Nat) ≠ 1) ∧ (p.line 0).txn = some { req := .rdx, plists := [1] } ∧ (c.line 0).txn = some { req := .rdx, cmp := true }
      ∧ ((w.line 0).txn = some { req := .rdx, looked := true, cmp := true } ∧ directoryRequest w 0 (.upg 0) = some (.upg, .upg)
        ∧ ({ req := .rdx, looked := true, cmp := true : Txn }).clear = false ∧ DirReq.rdx ≠ .upg)
      ∧ (looking f 0 (.lineStep 0 false 9) ∧ (f.line 0).msc = some (0, 0xFFFF, true) ∧ (f.sl 0 0).st = .i ∧ (f.sl 0 1).st = .i ∧ Tab.find f.ranges 9 = some o ∧ o.left = 1 ∧ o.lend = none
        ∧ o.who = some (17, 4)) := by unfold looking; decide

/-- PrivilegeChecked. -/
theorem witness_PrivilegeChecked :
    let s := running 17 []
    s.me.pp = false ∧ s.stage = 0 ∧ s.cur % 16 ≠ 0 ∧ s.me.priv = false
      ∧ ([.cstart 1 2 3 4, .cstop 1 2, .creap 1 2] : List Instr).all stewardOnly = true
      ∧ ([.sret, .tlbinv 1 2 3, .rwake 1 2 3, .rlendLend 1 2 3, .rlendRecall 1 2 3, .rlendQuery 1 2 3] : List Instr).all privilegedOnly = true := by decide

/-- The steward of core 1 with some of its contexts in other states, naming context n in g1 and an address in g2. -/
def stewardOver (n : Nat) (x : Ctx) (pc : W64) : State :=
  let s := running 16 [(1, BitVec.ofNat 64 n), (2, pc)]
  { s with ctxs := s.ctxs ++ [(16 + n, x)] }
/-- ContextControl: contexts 0, 1, 14 and 15, Stopped, issuing, ended and trapped. -/
theorem witness_ContextControl :
    let a := stewardOver 14 {} 0x2000
    let b := stewardOver 1 (grain []) 0x2000
    let c := stewardOver 14 { grain [] with st := .ended } 0x2002
    let d := stewardOver 1 { grain [] with st := .trapped } 0x2000
    let e := stewardOver 15 {} 0x2000
    (a.me.pp = false ∧ a.stage = 0 ∧ a.cur % 16 = 0 ∧ ((a.rd 0).extractLsb' 0 4).toNat = 0 ∧ ((a.rd 1).extractLsb' 0 4).toNat = 14 ∧ (a.ctx (16 + 14)).st = .stopped ∧ a.oddTwin 30 = false
        ∧ (a.rd 2).toNat % 4 = 0) ∧ ((b.ctx 17).st ≠ .stopped ∧ (b.ctx 17).st ≠ .ended ∧ (b.ctx 17).st ≠ .trapped)
      ∧ ((c.rd 2).toNat % 4 ≠ 0 ∧ (c.ctx 30).st = .ended ∧ (c.ctx 30).gang = none ∧ c.twin 30 = none ∧ (c.ctx 30).pend = [] ∧ (c.ctx 30).msg = none ∧ (c.ctx 30).why = .none)
      ∧ ((d.ctx 17).st = .trapped ∧ d.twin 17 = none ∧ d.oddTwin 17 = false) ∧ (((e.rd 1).extractLsb' 0 4).toNat = 15 ∧ (e.ctx 31).st = .stopped ∧ e.oddTwin 31 = false) := by decide

/-- SpawnsAndForks: a target on this chip and one that is none; a core that is closed, busy and free; a cluster that is not valid. -/
theorem witness_SpawnsAndForks :
    let s := running 17 [(1, 8), (2, 0x2000), (3, 0x1000000)]
    let r : SpawnReq := { id := 9, from_ := 17, rd := 4, core := 8, pc := 0x2000, slot := 1 }
    let open_ : State := { quiet with cores := [(8, { slots := 2 })] }
    let busy : State := { open_ with ctxs := (List.range 16).map (fun n => (128 + n, grain [])) }
    let cut : State := { quiet with dev := { quiet.dev with remap0 := List.range 255 } }
    (s.me.pp = false ∧ s.twin s.cur = none ∧ (s.rd 2).toNat % 4 = 0 ∧ (s.rd 3).toNat / 2 ^ 24 ≠ 0 ∧ (s.rd 1).toNat / 2 ^ 24 = 0 ∧ ((s.rd 1).extractLsb' 0 24).toNat / 4096 = s.dev.chip.toNat
        ∧ s.routeHold s.cur 0 = false) ∧ (r.core / 4096 = quiet.dev.chip.toNat ∧ r.from_ / 65536 = quiet.dev.chip.toNat)
      ∧ (cut.clusterValid (2040 / 8) = false ∧ quiet.clusterValid (8 / 8) = true ∧ (quiet.core 8).slots.getLsbD r.slot.toNat = false)
      ∧ ((open_.core 8).slots.getLsbD r.slot.toNat = true ∧ open_.twin (16 * 8 + 1) = none)
      ∧ (∀ n, n < 16 → (busy.ctx (16 * 8 + n)).st ≠ .stopped) ∧ ((open_.ctx 129).st = .stopped ∧ open_.oddTwin 129 = false ∧ (open_.core (129 / 16)).failed = false) := by decide
/-- SpawnsAndForks: a fork at its issue and at its turn, with no context free. -/
theorem witness_SpawnsAndForks_rfork :
    let s := mapped 17 (grain [(6, 0x10008), (2, 0x2000)])
    let q : Req := { id := 5, who := 17, pieces := piece 0x8000000008 8 }
    let t : State := { runs 17 { grain [(6, 0x10008), (2, 0x2000)] with st := .waiting, why := .reply 5, load := some q } with stage := 1 }
    s.look s.cur (s.rd 6) .w = .hit 0x8000000008 (page 1 0x10000 0x8000000000) ∧ s.region 0x8000000008 = .scratch 0 8 ∧ s.refusedByte 0x8000000008 8 = none
      ∧ s.mustHold s.cur { op := .store, va := s.rd 6, cls := s.me.ocls } (splitLines 0x8000000008 8) = false ∧ (s.rd 6).toNat % 8 = 0
      ∧ t.stage = 1 ∧ t.me.why = .reply 5 ∧ t.me.load = some q ∧ (q.pieces.headD {}).pa = 0x8000000008 ∧ t.me.gang = none ∧ (∀ c, clusterOf c = clusterOf t.cur → ¬ freeFor t (t.slotOf t.cur) c) :=
  ⟨rfl, rfl, by decide, by decide, by decide, rfl, rfl, rfl, rfl, rfl, fun c _ h => by
    have := h.2.2.2.1; simp only [State.core] at this
    exact absurd this (by simp [State.slotOf, Tab.get, isSteward, runs, quiet, State.reset, grain])⟩

/-- Migration: an address homed in the grain's own quad and in another; a grant, none, and the messages after it. -/
theorem witness_Migration :
    let s := mapped 17 (grain [(6, 0x20000), (7, 0x20080)])
    let g : State := { holding 17 { waiting with pc := 0x1004 } with cores := [(16, { slots := 2 })] }
    let f (a : Bool) (q : Option Req) : State := { holding 33 waiting with cores := [(1, { fwds := [{ id := 9, dst := 33, accepted := a, req := q }] })] }
    (s.me.pp = false ∧ s.me.gang = none ∧ s.me.pend = [] ∧ s.region 0x20000 = .hbm ∧ homeOf (lineOf 0x20080) ≠ s.quadOf (clusterOf s.cur)
        ∧ (runs 17 { grain [] with gang := some 3 }).me.gang ≠ none ∧ homeOf 0 = quiet.quadOf (clusterOf 17))
      ∧ ((g.ctx 17).why = .reply 9 ∧ g.grantOf 1 (g.slotOf 17) = some 257 ∧ 257 ≠ 17 ∧ g.twin 17 = none ∧ g.grantOf 0 (g.slotOf 17) = none ∧ (0x1000 : W64) ≠ (g.ctx 17).pc)
      ∧ ((17 : Nat) ≠ 257 ∧ (g.ctx 17).resv = none)
      ∧ (((f false none).core (coreOf 17)).fwds = [{ id := 9, dst := 33, accepted := false, req := none }] ∧ ((f true (some {})).core (coreOf 17)).fwds = [{ id := 9, dst := 33, accepted := true, req := some {} }]
        ∧ ((f true (some {})).ctx 33).awaits 9 = true) := by decide
/-- Migration: the two look-ups. -/
theorem witness_Migration_look :
    let s := mapped 17 (grain [(6, 0x20000), (7, 0x20080)])
    s.look s.cur (s.rd 7) .r = .hit 0x20080 (page 1 0x20000 0x20000) ∧ s.look s.cur (s.rd 6) .r = .hit 0x20000 (page 1 0x20000 0x20000) := ⟨rfl, rfl⟩

/-- UnitRequests: every form that goes from its registers, with and without stores out, and the forms that name a record. -/
theorem witness_UnitRequests :
    let s := mapped 17 (grain [(6, 0x10080), (7, 0x10004)])
    let t := runs 17 { grain [] with pend := [{}] }
    s.me.pp = false ∧ s.stage = 0 ∧ s.twin s.cur = none ∧ s.me.pend = [] ∧ s.me.why = .none ∧ s.me.jobs.length < 8 ∧ t.me.pend ≠ [] ∧ (s.rd 6).toNat % 65536 + 520 ≤ 65536
      ∧ (([.bvalid 1 2 3, .sealBolt 1 2, .bqueryStatus 1 2, .bqueryMaskLow 1 2, .bqueryMaskHigh 1 2, .babort 1 2, .bwait 1 2, .btime 1 2 3, .ewaitWait 1 2, .ewaitPoll 1 2, .tgsub 1 2 3 4, .tgnext 1
        , .tgdone 1 2 3, .tgdoneRequeue 1 2 3, .wbind 1 2 3, .wbindUnbind 1 2 3, .wdone 1 2 3] : List Instr).all (fun i => (unitRequest s i).isSome)) = true
      ∧ (([.ejob 1 6, .gleanClose 1 6 6, .gleanFlip 1 6 0, .gleanQuery 1 6 0, .wpush 1 6 2 true 0, .wpull 1 6 2 true 0] : List Instr).all (fun i => match addressRequest s i with
          | some (a, n, _, _, b) => a.toNat % n == 0 && (b.map (fun y => y.toNat % 64 == 0)).getD true
          | none => false)) = true
      ∧ (([.ejob 1 7, .gleanClose 1 7 6, .gleanFlip 1 7 0, .gleanQuery 1 7 0, .wpush 1 7 2 true 0, .wpull 1 7 2 true 0] : List Instr).all (fun i => match addressRequest s i with
          | some (a, n, _, _, _) => a.toNat % n != 0
          | none => false)) = true
      ∧ (s.region 0x8000000080).outside = false := by decide
/-- UnitRequests: a record that translates, at a core with nothing out and a cluster with no pool. -/
theorem witness_UnitRequests_record :
    let s := mapped 17 (grain [(6, 0x10080)])
    s.look s.cur (s.rd 6) .r = .hit 0x8000000080 (page 1 0x10000 0x8000000000) ∧ s.look s.cur (s.rd 6) .rw = .hit 0x8000000080 (page 1 0x10000 0x8000000000)
      ∧ (∀ op size cls ps, s.mustHold s.cur { op := op, va := s.rd 6, size := size, cls := cls } ps = false) ∧ (∀ q k, s.refusedByte q k = none) :=
  ⟨rfl, rfl, fun _ _ _ _ => rfl,
   fun q k => by
    simp only [State.refusedByte, Option.map_eq_none_iff, List.find?_eq_none]
    intro i _
    split <;> simp [Cluster.refuses, State.cluster, mapped, runs, quiet, State.reset, Tab.get]⟩

/-- Barriers: an unaligned record, a grain outside a gang and members with and without stores; an only member; episodes to complete. -/
theorem witness_Barriers :
    let x := grain [(6, 0x10080), (7, 0x10004)]
    let m : State := { holding 17 { x with gang := some 3 } with dev := { quiet.dev with gangs := [(3, { members := [17], cls := [0] })] } }
    let a : Arrival := { who := 17, rd := 4, token := 9 }
    let w (wire closed : Bool) (tap : Nat) : State :=
      { m with
        ctxs := [(17, { x with gang := some 3, st := .dispatchWait, why := .barrier })]
        clusters := [(0, if wire then { barw := [(3, [{ arrived := [a], closed := closed, tapAt := tap }])] } else { barc := [(3, [{ arrived := [a], closed := closed, tapAt := tap }])] })] }
    ((runs 17 x).me.pp = false ∧ ((runs 17 x).rd 7).toNat % 128 ≠ 0 ∧ ((runs 17 x).rd 6).toNat % 128 = 0 ∧ (runs 17 x).me.gang = none ∧ (runs 17 { x with gang := some 3, pend := [{}] }).me.pend ≠ [])
      ∧ ((m.ctx 17).gang = some 3 ∧ (m.core (coreOf 17)).wdWait = 0 ∧ (m.ctx 17).btmo = 0 ∧ m.episodes false 0 3 = [] ∧ m.episodes true 0 3 = [] ∧ ∀ c ∈ (m.gang 3).members, clusterOf c = clusterOf 17 → c = 17)
      ∧ (((w false true 0).ctx 17).why = .barrier ∧ (w false true 0).heldBack 17 = false ∧ (w false true 0).episodes false 0 3 = [{ arrived := [a], closed := true }])
      ∧ ((w true true 0).episodes true 0 3 = [{ arrived := [a], closed := true }] ∧ ((w true true 0).gang 3).cls = [0] ∧ (w true false 100).episodes true 0 3 = [{ arrived := [a], tapAt := 100 }])
      ∧ ((w false false 0).episodes false 0 3 = [{ arrived := [a] }] ∧ (w false false 0).episodes true 0 3 = [] ∧ ((w false false 0).ctx 17).gang = some 3 ∧ clusterOf 17 = 0 ∧ a.rcd = 0) := by decide

/-- A context at a unit whose cluster 0 has a pool of 16 pages with one bolt in entry 3, of generation 5, named by the handle 0x503 in g1. -/
def atPool (b : Bolt) (l : List (BitVec 4 × W64)) : State :=
  { atUnit 17 ((1, 0x503) :: l) with clusters := [(0, { bpEn := true, bpN := 16, bolts := [(3, b)] })] }
/-- An open input bolt of eight rows. -/
def openBolt : Bolt := { st := .open_, gen := 5, rows := 8, elems := 8, fmt := 2, npages := 1, expiry := 500 }

/-- BoltInstructions: handles of open, sealed and output bolts, of a free entry, and openings that fail, succeed and wait. -/
theorem witness_BoltInstructions :
    let a := atPool openBolt [(2, 0x0708), (3, 100)]
    let b := atPool { openBolt with st := .sealed_ } []
    let c := atPool { openBolt with out := true, st := .done } []
    let d := atPool { gen := 5 } []
    let o (q : List OpenReq) : State := { atUnit 17 [(1, 0x20707), (2, 0x040301F4), (3, 0)] with clusters := [(0, { bpEn := true, bpN := 16, openQ := q })] }
    (atItsUnit a ∧ namesBolt a (a.rd 1) 0 3 openBolt ∧ openBolt.out = false ∧ openBolt.isOpen = true ∧ ((a.rd 3).extractLsb' 0 16).toNat ≠ 0 ∧ (a.core (coreOf a.cur)).wdWait = 0)
      ∧ (atItsUnit b ∧ namesBolt b (b.rd 1) 0 3 { openBolt with st := .sealed_ } ∧ ({ openBolt with st := .sealed_ } : Bolt).isOpen = false)
      ∧ (namesBolt c (c.rd 1) 0 3 { openBolt with out := true, st := .done } ∧ namesStale d (d.rd 1) 0 3)
      ∧ ((o []).stage = 1 ∧ (o []).me.why = .reply (4 + 1) ∧ (o []).openCode 0 ((o []).rd 1) ((o []).rd 2) (aligned ((o []).rd 3) 8) = 0 ∧ ((o []).rd 2).getLsbD 20 = false
        ∧ ((o []).cluster 0).freeEntry = some 0 ∧ ((o []).cluster 0).firstFit 1 = some 0 ∧ pagesOf (((o []).rd 1).extractLsb' 16 4).toNat 8 8 = 1)
      ∧ (((o [{}]).cluster 0).openQ ≠ [] ∧ a.openCode 0 (a.rd 1) 0 true ≠ 0) := by
  refine ⟨⟨⟨rfl, rfl, 4, rfl⟩, ?_⟩, ⟨⟨rfl, rfl, 4, rfl⟩, ?_⟩, ?_, ?_, ?_⟩ <;> (try unfold namesBolt) <;> (try unfold namesStale) <;> decide

/-- BoltEvents: a timer that is due and one that is not; a waiting opening that no room serves and one that room serves; a bolt to post. -/
theorem witness_BoltEvents :
    let s (b : Bolt) (q : List OpenReq) (n : BitVec 10) : State := { quiet with clusters := [(0, { bpEn := true, bpN := n, bolts := [(0, b)], openQ := q })] }
    let q : OpenReq := { who := some 17, id := 9, shape := 0x20707, ctl := 0x040301F4 }
    let b : Bolt := { openBolt with expiry := 100, token := 7 }
    let p : Bolt := { openBolt with st := .sealed_, steer := 1, sealNo := 3 }
    (((s b [] 1).cluster 0).bolt 0 = b ∧ b.token = 7 ∧ b.isOpen = true ∧ b.expiry ≤ quiet.cycle ∧ b.out = false ∧ quiet.cycle < openBolt.expiry)
      ∧ (((s b [q] 1).cluster 0).openQ = q :: [] ∧ ((s b [q] 1).tryOpen 0 q).isNone = true ∧ (s b [q] 1).oldestOpen 0 = some 0)
      ∧ (((s b [q] 2).cluster 0).openQ = [q] ∧ q.who = some 17 ∧ q.ctl.getLsbD 20 = false ∧ ((s b [q] 2).cluster 0).freeEntry = some 1
        ∧ ((s b [q] 2).cluster 0).firstFit (pagesOf (q.shape.extractLsb' 16 4).toNat ((q.shape.extractLsb' 8 7).toNat + 1) ((q.shape.extractLsb' 0 7).toNat + 1)) = some 1)
      ∧ ((s p [] 1).unposted ((s p [] 1).quadOf 0) = [(3, 0, 0)] ∧ (s p [] 1).postTarget 0 p = some 0) := by decide

/-- CacheInstructions: lengths of 0, of 2^30 and above, and past the top of memory; a mapped piece; TLBINV at its issue and at its end; ATRANS
of an operation that is none, of one that fails and of one that translates. -/
theorem witness_CacheInstructions :
    let s := mapped 17 { grain [(1, 0x20040), (2, 0x100), (3, 0x40000001), (4, 0xFFFFFFFFFFFFFFC0), (5, 0x50000), (6, 3)] with priv := true }
    let t : State := { runs 16 { grain [] with st := .waiting, why := .reply 9 } with stage := 1 }
    (s.me.pp = false ∧ (s.rd 0).toNat = 0 ∧ 2 ^ 30 < (s.rd 3).toNat ∧ 2 ^ 64 < (s.rd 4).toNat + (s.rd 2).toNat ∧ (s.rd 1).toNat % 65536 + (s.rd 2).toNat ≤ 65536 ∧ s.me.pend = []
        ∧ s.lentAway 0x20000 = false ∧ 0x20000 < hbmBytes)
      ∧ (s.stage = 0 ∧ s.me.priv = true ∧ t.stage = 1 ∧ t.me.why = .reply 9 ∧ Tab.find t.ranges 9 = none ∧ t.slices = [])
      ∧ (s.rd 6).extractLsb' 0 2 = 3 := by decide
/-- CacheInstructions: the translation of a mapped piece, and addresses that ATRANS finds in the core TLB, readable and not, in the cluster TLB, in none, and where no walk is needed. -/
theorem witness_CacheInstructions_translate :
    let s := mapped 17 { grain [(1, 0x20040), (5, 0x50000)] with priv := true }
    let e := page 1 0x20000 0x20000
    let u : State := { mapped 17 (grain [(1, 0x20040)]) with cores := [(1, { tlb := [{ e with u := false }] })] }
    let n : State := { s with cores := [], clusters := [(0, { tlb := [e] })] }
    let m : State := { tables with ctxs := [(17, grain [(1, 0x20040)])], cur := 17 }
    (s.translateCtx s.cur (BitVec.ofNat 64 (0x20040 / 65536 * 65536)) .r).2 = .ok (0x20000, e) ∧ s.found s.cur (s.rd 1) = .core e
      ∧ s.checkLeaf e (s.privOf s.cur) .r 0x20040 = 0 ∧ u.found u.cur (u.rd 1) = .core { e with u := false } ∧ u.checkLeaf { e with u := false } (u.privOf u.cur) .r 0x20040 = 3
      ∧ n.found n.cur (n.rd 1) = .near e ∧ m.found m.cur (m.rd 1) = .miss ∧ s.found s.cur (s.rd 5) = .failed 1 ∧ s.me.pp = false :=
  ⟨rfl, rfl, by decide, rfl, by decide, rfl, rfl, rfl, rfl⟩

/-- A context at a unit that has brought the address of a block. -/
def withBlock (pa n : Nat) (l : List (BitVec 4 × W64)) : State :=
  { runs 17 { grain l with st := .waiting, why := .reply 5, load := some { id := 5, who := 17, pieces := piece pa n } } with stage := 1 }

/-- JobsAndTasks: a card, jobs of this and of another slot and none, ECPY's lengths and addresses. -/
theorem witness_JobsAndTasks :
    let j (slot : BitVec 4) : State := { atUnit 17 [(1, 3)] with dev := { quiet.dev with jobs := [(3, { used := true, slot := slot })] } }
    let e := mapped 17 (grain [(1, 0x10040), (2, 0x10000), (3, 16), (4, 4097), (5, 0xFFFFFFFFFFFFFFFF)])
    (atUnitWith (withBlock 0x8000000080 128 []) 0x8000000080 128 ∧ (withBlock 0x8000000080 128 []).cohReady 0x8000000080 128 = true ∧ atItsUnit (j 1))
      ∧ ((((j 1).rd 1).toNat % 2 ^ 32 % 65536 < 2048 ∧ ((j 1).job 3).used = true ∧ ((j 1).job 3).gen.toNat = 3 / 65536 ∧ ((j 1).job 3).slot = (j 1).slotOf (j 1).cur)
        ∧ ((j 2).job 3).slot ≠ (j 2).slotOf (j 2).cur ∧ (quiet.job 3).used = false ∧ (quiet.job 3).oldAt = 0 ∧ ((j 1).core (coreOf 17)).wdWait = 0)
      ∧ (e.me.pp = false ∧ e.stage = 0 ∧ (e.rd 0).toNat = 0 ∧ 4096 < (e.rd 4).toNat ∧ 2 ^ 64 < (e.rd 5).toNat + (e.rd 3).toNat ∧ (e.rd 1).toNat % 65536 + 16 ≤ 65536)
      ∧ (e.me.walked = none ∧ (∀ q ∈ splitLines 0x8000000040 16, ∃ k, e.region q.pa = .scratch 0 k) ∧ clusterOf e.cur = 0 ∧ (e.cluster 0).sb.length < 32 ∧ e.twin e.cur = none) :=
  ⟨⟨⟨rfl, ⟨4, rfl⟩, ⟨_, rfl, [], rfl⟩, rfl, by decide⟩, by decide, ⟨rfl, rfl, 4, rfl⟩⟩, by decide, by decide, rfl, by
    intro q hq; simp only [splitLines] at hq; exact ⟨0x40, by
      have : q = { pa := 0x8000000040, len := 16 } := by simpa [List.range, List.range.loop, lineOf] using hq
      subst this; decide⟩, by decide, by decide, by decide⟩
/-- JobsAndTasks: a copy's two look-ups, and task nodes that are free, ready, running and of another slot. -/
theorem witness_JobsAndTasks_nodes :
    let e := mapped 17 (grain [(1, 0x10040), (2, 0x10000)])
    let w (st : NodeState) (slot : BitVec 4) : State :=
      { atUnit 17 [(1, 0), (2, 0xFFFFFFFFFFFF0000), (3, 0x1000000000000)] with dev := { quiet.dev with th0 := { nodes := [(0, { live := true, slot := slot, st := st })] } } }
    e.look e.cur (e.rd 2) .r = .hit 0x8000000000 (page 1 0x10000 0x8000000000) ∧ e.look e.cur (e.rd 1) .w = .hit 0x8000000040 (page 1 0x10000 0x8000000000)
      ∧ ((w .ready 1).stage = 1 ∧ (w .ready 1).me.why = .reply (4 + 1) ∧ ((w .ready 1).rd 3).toNat / 2 ^ 48 ≠ 0 ∧ ((w .ready 1).rd 1).toNat / 2 ^ 48 = 0
        ∧ (((w .ready 1).thresher 0).node 1).live = false ∧ (((w .ready 1).thresher 0).node 0).live = true ∧ ((w .ready 1).thresher 0).waits = []
        ∧ ((w .ready 1).thresher 0).named (((w .ready 1).rd 2).extractLsb' 0 16) = some 0 ∧ ((w .ready 1).thresher 0).named 0xFFFF = none ∧ (((w .ready 1).thresher 0).node 0).preds = []
        ∧ (((w .ready 1).thresher 0).node 0).slot = (w .ready 1).slotOf 17 ∧ (((w .ready 2).thresher 0).node 0).slot ≠ (w .ready 2).slotOf 17)
      ∧ (((w .ready 1).thresher 0).best 1 = some 0 ∧ ((w .running 1).thresher 0).best 1 = none ∧ ((w .running 1).thresher 0).hasLive 1 = true ∧ ((w .ready 2).thresher 0).hasLive 1 = false
        ∧ (((w .running 1).thresher 0).node 0).st = .running ∧ (quiet.thresher 0).named 0 = none) := ⟨rfl, rfl, by decide⟩

/-- The unit of a Gleaner or a Winnow: a context that has brought the block at some address, with page tables and some dwords placed there. -/
def withDwords (pa : Nat) (ds : List W64) (l : List (BitVec 4 × W64)) : State :=
  { withBlock pa (8 * ds.length) l with mem := Memory.write tables.mem pa (ds.flatMap (fun d => leBytes 8 d.toNat)), dev := tables.dev }

/-- GleanerAndWinnow: a descriptor of rows of 64 bytes with none and one batch open at each parity; batches open and finished, a full Gleaner; blocks
that are bad, of no rows, and good; words that are not quiet are met by none. -/
theorem witness_GleanerAndWinnow :
    let pa := 0x8000000100
    let g (d3 d5 : W64) : State := withDwords pa [0, 0, 0, d3, 0, d5, 0, 0] [(1, 0x40000100), (2, 0x20040)]
    let n (v : W64) : State := { g 64 0 with mem := Memory.write (g 64 0).mem 0x20040 (leBytes 8 0 ++ leBytes 8 v.toNat) }
    let card := (List.range 8).map (word8 ((g 64 0).cohRead pa 64))
    let blk (v : W64) := (List.range 8).map (word8 ((n v).cohRead 0x20040 64))
    let x : Batch := { desc := pa, blk := 0x20040, slot := 1 }
    let h (l : List Batch) : State := { g 64 0 with slices := [((g 64 0).pointSlice pa, { batches := l })] }
    ((g 64 0).cohReady pa 64 = true ∧ (g 64 0).dirtyReady 1 0x40000100 = true ∧ ((g 64 0).cohRead8 (pa + 40)).toNat = 0 ∧ ((g 64 0x100000000).cohRead8 (pa + 40)).toNat / 2 ^ 32 % 65536 = 1)
      ∧ (((g 64 0).slice ((g 64 0).pointSlice pa)).batches = [] ∧ ((h [x]).slice ((g 64 0).pointSlice pa)).batches = [x] ∧ x.blk = (g 64 0).rd 2 ∧ x.slot = (g 64 0).slotOf 17
        ∧ x.finished = false ∧ ({ x with finished := true } : Batch).finished = true ∧ 16 ≤ ((h (List.replicate 16 x)).slice ((g 64 0).pointSlice pa)).batches.length)
      ∧ ((n 1).cohReady 0x20040 64 = true ∧ badDesc card (blk 1) = false ∧ badDesc ((List.range 8).map (word8 ((g 0 0).cohRead pa 64))) (blk 1) = true
        ∧ (n 0).badBatch 1 false (blk 0) = true ∧ (n 1).badBatch 1 false (blk 1) = false) := by decide
/-- GleanerAndWinnow: the block translates, and the descriptor is at its Gleaner. -/
theorem witness_GleanerAndWinnow_block :
    let s := withDwords 0x8000000100 [0, 0, 0, 64, 0, 0, 0, 0] [(1, 0x40000100), (2, 0x20040)]
    atUnitWith s 0x8000000100 64 ∧ ∃ e, s.translateNow (s.slotOf s.cur) (s.privOf s.cur) (s.rd 2) .r = .ok (0x20040, e) :=
  ⟨⟨rfl, ⟨4, rfl⟩, ⟨_, rfl, [], rfl⟩, rfl, by decide⟩, _, rfl⟩
/-- GleanerAndWinnow: units free, bound to this slot and to another, with empty windows, one constraint pending or issued, a full window, and a group. -/
theorem witness_GleanerAndWinnow_winnow :
    let e : WinEnt := { bodies := [7] }
    let u (w : Winnow) : State := { withDwords 0x8000000100 [0x700000007, 0xFFFFFFFF00000007, 0, 0] [(1, 3), (2, 3)] with slices := [(3, { win := w })] }
    let b (l : List WinEnt) : State := u { slot := some 1, win := l }
    let full : State := b (List.replicate 256 e)
    (((u {}).winnow 3).slot = none ∧ ((u {}).winnow 3).at_ ≤ (u {}).cycle ∧ ((b []).winnow 3).slot ≠ none ∧ bindsUnit (b []) ((b []).rd 1) ∧ ((b []).winnow 3).win = []
        ∧ ((b []).winnow 3).pulls = [] ∧ ¬ bindsUnit (u { slot := some 2 }) 3 ∧ ((b [e]).winnow 3).win ≠ [])
      ∧ (Tab.get (0, 0, false) ((u { slot := some 1, groups := [(0, (0, 1, true))] }).winnow 3).groups 0 = (0, 1, true) ∧ bindsUnit (u { slot := some 1, groups := [(0, (0, 1, true))] }) 3
        ∧ Tab.get (0, 0, false) ((u { slot := some 1, groups := [(0, (2, 1, true))] }).winnow 3).groups 0 = (2, 1, true))
      ∧ ((b []).cohReady 0x8000000100 32 = true ∧ word8 ((b []).cohRead 0x8000000100 32) 3 = 0 ∧ ((b [e]).winnow 3).win.length < 256
        ∧ word8 ((withDwords 0x8000000100 [0, 0, 0, 9] []).cohRead 0x8000000100 32) 3 ≠ 0)
      ∧ (256 ≤ (full.winnow 3).win.length ∧ e.issued = none ∧ e.bodies = [7] ∧ ((b [e]).winnow 3).occ = [] ∧ ((b [e]).winnow 3).groups = []
        ∧ ((u { slot := some 1, win := [e], occ := [(bucket 7, [7])] }).winnow 3).holds 7 = true ∧ ((b [e]).core (coreOf 17)).wdWait = 0
        ∧ ∀ x ∈ ((b [{ e with issued := some (0, 0) }]).winnow 3).win, x.issued ≠ none) := by unfold bindsUnit; decide
/-- GleanerAndWinnow: a monitor that samples nothing, one that samples MSAMP, and one that is frozen. -/
theorem witness_GleanerAndWinnow_monitor :
    let m (x : Monitor) : State := { running 17 [] with clusters := [(0, { mon := x })] }
    (m {}).me.pp = false ∧ ((m {}).cluster (clusterOf 17)).mon.src ≠ 1 ∧ ((m { src := 1 }).cluster 0).mon.frz = false ∧ ((m { src := 1, frz := true }).cluster 0).mon.frz = true := by decide

/-- A card of a COPY of 4096 bytes with its two footprints. -/
def copyCard : List W64 := [0x20, 0, 0x20000, 0x30000, 0x1000, 0, 0, 0, 0x20000, 0x4000000000001000, 0x30000, 0x8000000000001000, 0, 0, 0, 0]

/-- UnitEvents: cards that are well formed and not, and jobs accepted and retired. -/
theorem witness_UnitEvents_jobs :
    let s (l : Tab Job) : State := { holding 17 waiting with dev := { quiet.dev with jobs := l } }
    let j : Job := { used := true, who := 17, slot := 1, card := copyCard }
    ((s []).ctx 17).token ≠ 0 ∧ ((s [(0, j)]).dev.jobs.map (·.1)).Nodup ∧ (s []).cardOk 0 copyCard = true ∧ (s []).cardOk 0 (List.replicate 16 0) = false
      ∧ ((s [(0, j)]).dev.jobs.filter (fun e => e.2.used)).length < 2048 ∧ (((s [(0, j)]).dev.jobs.filter (fun e => e.2.used)).filter (fun e => e.2.slot == (s []).slotOf 17)).length < 512
      ∧ ((s [(0, j)]).job 1).used = false ∧ (∀ n, n < 1 → ((s [(0, j)]).job n).used = true) ∧ (s []).twin 17 = none ∧ ((s [(0, j)]).job 0).used = true ∧ ((s [(0, j)]).job 0).d 1 = 0 := by decide
/-- UnitEvents: a slot with 512 jobs. -/
theorem witness_UnitEvents_full :
    let s : State := { holding 17 waiting with dev := { quiet.dev with jobs := (List.range 512).map (fun n => (n, { used := true, slot := 1 })) } }
    (s.dev.jobs.map (·.1)).Nodup ∧ 512 ≤ ((s.dev.jobs.filter (fun e => e.2.used)).filter (fun e => e.2.slot == s.slotOf 17)).length := by
  refine ⟨?_, by decide⟩
  simp only [List.map_map, Function.comp_def, List.map_id', List.nodup_range]
/-- UnitEvents: a short copy between scratchpads with nothing read, all read, and a refused destination. -/
theorem witness_UnitEvents_copies :
    let p : Piece := { pa := 0x8000000040, len := 16 }
    let q : Piece := { pa := 0x8000000080, len := 16 }
    let b : Sb := { id := 9, who := 17, srcs := [p], dsts := [q] }
    let x : Cluster := { sb := [b] }
    let s (x : Cluster) : State := { quiet with clusters := [(0, x)] }
    let f : Sb := { b with buf := List.replicate 16 (7, true) }
    ((s x).cluster 0).sb = [b] ∧ b.srcs = [p] ∧ b.dsts = [q] ∧ b.ended = false ∧ b.done = 0 ∧ b.ext = 0 ∧ p.len = q.len ∧ 0 < q.len ∧ (s x).region p.pa = .scratch 0 0x40
      ∧ (s x).region q.pa = .scratch 0 0x80 ∧ hbmBytes ≤ p.pa ∧ hbmBytes ≤ q.pa ∧ q.pa % 128 + q.len ≤ 128 ∧ (s x).lentAway p.pa = false ∧ (s x).lentAway q.pa = false ∧ b.buf = []
      ∧ f.buf.length = q.len ∧ (s x).refusedByte q.pa q.len = none ∧ ((s x).cluster 0).parked = [] ∧ ((s x).slice ((s x).pointSlice q.pa)).resv = [] ∧ ((s x).cluster 0).sbWait = [] := by decide
/-- UnitEvents: a copy whose destination is refused. -/
theorem witness_UnitEvents_refused :
    let b : Sb := { id := 9, who := 17, srcs := piece 0x8000000040 16, dsts := piece 0x8000000080 16, buf := List.replicate 16 (7, true) }
    let s : State := { quiet with clusters := [(0, { sb := [b], bpEn := true, bpN := 16, bpBase := 0 })] }
    s.refusedByte 0x8000000080 16 ≠ none ∧ b.buf.length = 16 ∧ (s.cluster 0).sb = [b] := by decide
/-- UnitEvents: a walk in each of the steps, and its bolt open and gone. -/
theorem witness_UnitEvents_walks :
    let w (st : WStep) (ph : Nat) (l : List (BitVec 32)) : Walk := { job := 3, step := st, ph := ph, opened := l, bolt := 0x503 }
    let s (w : Walk) (b : Bolt) : State :=
      { quiet with clusters := [(0, { bpEn := true, bpN := 16, bolts := [(3, b)], walk := some w })], dev := { quiet.dev with jobs := [(3, { used := true })] } }
    ((s (w .o 2 []) openBolt).cluster 0).walk = some (w .o 2 []) ∧ (w .o 2 []).step = .o ∧ (w .w 0 []).stopped = false ∧ ((s (w .w 0 []) openBolt).job 3).ended = none
      ∧ ((s (w .w 0 []) openBolt).loom 0).frozen 100 = false ∧ (s (w .w 0 [0x503]) openBolt).walkReleased 0 0x503 = false ∧ ((s (w .w 0 []) openBolt).job 3).halted = false
      ∧ (s (w .s 0 []) openBolt).walkBolt 0 0x503 = some (3, openBolt) ∧ (0x503 : BitVec 32).toNat / 2 ^ 24 = 0 % 256 ∧ openBolt.out = false
      ∧ (s (w .s 0 []) { gen := 5 }).walkBolt 0 0x503 = none := by decide
/-- UnitEvents: a batch with a row outside its part of the table, one at its end, and a ready word that translates to a scratchpad and not. -/
theorem witness_UnitEvents_batches :
    let b : Batch := { no := 2, card := [0, 0, 0x100000000, 64, 0, 0, 0, 0], slot := 1, n := 1, x := some 5, ready := 0x8000000100 }
    let s (b : Batch) : State := { tables with slices := [(3, { batches := [b] })] }
    ((s b).slice 3).batches = [b] ∧ b.finished = false ∧ b.err = false ∧ b.x = some 5 ∧ b.i < b.n
      ∧ (5 < ((b.card.getD 2 0).toNat % 2 ^ 32) ∨ (b.card.getD 2 0).toNat % 2 ^ 32 + (b.card.getD 2 0).toNat / 2 ^ 32 ≤ 5) ∧ ({ b with i := 1 } : Batch).n ≤ ({ b with i := 1 } : Batch).i
      ∧ b.closers = [] ∧ (s b).region 0x8000000100 = .scratch 0 0x100 ∧ hbmBytes ≤ 0x8000000100 ∧ 0x8000000100 % 8 = 0 ∧ (s b).refusedByte 0x8000000100 8 = none
      ∧ (s b).lentAway 0x8000000100 = false ∧ ((s b).cluster 0).parked = [] ∧ ((s b).slice ((s b).pointSlice 0x8000000100)).resv = []
      ∧ ({ quiet.cluster 0 with mon := { frz := true } } : Cluster).mon.frz = true ∧ (quiet.cluster 0).mon.frz = false := by decide
/-- UnitEvents: the ready word's translation by a leaf of 1 GiB that maps address 0 to the scratchpads, and none. -/
theorem witness_UnitEvents_ready :
    let s : State := { tables with mem := Memory.write tables.mem 0x200000 (leBytes 8 0x80000000BF) }
    (∃ e, s.translateNow 1 false 0x100 .w = .ok (0x8000000100, e) ∧ e.d = true ∧ s.dirtyReady 1 0x100 = true) ∧ quiet.translateNow 1 false 0x100 .w = .error 1 :=
  ⟨⟨_, rfl, rfl, by decide⟩, rfl⟩

/-- The controls of a remote operation to core 8 of chip 0: RWR of 8 bytes, RAMO, RMSG and RWAKE; and the message in flight. -/
def remotely (c : CtxId) (g : W64) : State :=
  { mapped c (grain [(6, 0x10040), (7, g), (2, 0x20040)]) with dev := { quiet.dev with routes := [(0, 1)] } }
/-- RemoteInstructions: the four instructions with good and bad controls, in context 1 and in context 15, waiting and posted. -/
theorem witness_RemoteInstructions :
    let w := remotely 17 0x7000008
    let a := remotely 17 0x10000000008
    let m := remotely 17 8
    let p := { m with ctxs := [(17, { grain [(6, 0x10040), (7, 8)] with priv := true })] }
    (remoteForm w (.rwr 5 6 2 7) = some (5, true, true) ∧ remoteForm a (.ramo 0 6 2 7) = some (0, false, false) ∧ remoteForm m (.rmsg 5 6 7) = some (5, true, true)
        ∧ remoteForm p (.rwake 5 6 7) = some (5, true, true) ∧ w.me.pp = false ∧ w.stage = 0 ∧ w.twin w.cur = none ∧ w.cur % 16 ≠ 15 ∧ (remotely 31 8).cur % 16 = 15 ∧ p.privOf p.cur = true)
      ∧ (w.remoteHold (w.rd 7) false [] 0 0 = false ∧ a.remoteHold (a.rd 7) true [] 0 0 = false ∧ m.remoteHold (m.rd 7) false [] 0 0 = false ∧ p.remoteHold (p.rd 7) false [] 0 0 = false)
      ∧ ((remoteOf a (.ramo 0 6 2 7)).isSome = true ∧ (remoteOf m (.rmsg 5 6 7)).isSome = true ∧ (remoteOf p (.rwake 5 6 7)).isSome = true)
      ∧ ((w.region 0x20040).outside = false ∧ w.l1Hits (coreOf w.cur) (splitLines 0x20040 8) = false ∧ w.remoteHold (w.rd 7) false (splitLines 0x20040 8) (w.rd 2) 8 = false) := by decide
/-- RemoteInstructions: which of those arguments are bad. -/
theorem witness_RemoteInstructions_arguments :
    let w := remotely 17 0x7000008
    let a := remotely 17 0x10000000008
    let m := remotely 17 8
    let z := remotely 17 0xFFFFFFFFFFFFFFFF
    (¬ remoteBadArg w (.rwr 5 6 2 7) ∧ ¬ remoteBadArg a (.ramo 0 6 2 7) ∧ ¬ remoteBadArg m (.rmsg 5 6 7) ∧ ¬ remoteBadArg m (.rwake 5 6 7))
      ∧ (remoteBadArg z (.rwr 5 6 2 7) ∧ remoteBadArg z (.ramo 0 6 2 7) ∧ remoteBadArg z (.rmsg 5 6 7) ∧ remoteBadArg z (.rwake 5 6 7))
      ∧ w.look w.cur (w.rd 2) .r = .hit 0x20040 (page 1 0x20000 0x20000) := by
  refine ⟨?_, ?_, rfl⟩ <;> simp only [remoteBadArg] <;> decide
/-- RemoteInstructions: an RWR whose source bytes have come. -/
theorem witness_RemoteInstructions_source :
    let s := withBlock 0x20040 8 [(7, 0x7000008)]
    s.stage = 1 ∧ s.me.why = .reply 5 ∧ (∃ q, s.me.load = some q ∧ q.pieces = [{ pa := 0x20040, len := 8 }]) ∧ s.cohReady 0x20040 8 = true ∧ s.lentAway 0x20040 = false :=
  ⟨rfl, rfl, ⟨_, rfl, rfl⟩, by decide, by decide⟩

/-- The bytes of some dwords. -/
def bytesOf (d : List W64) : List Byte := d.flatMap (fun x => leBytes 8 x.toNat)
/-- LaunchLendAndRecoveryInstructions: descriptors that are well formed, that are not, and whose part fails; a queue with 64 launches. -/
theorem witness_LaunchLendAndRecoveryInstructions_launch :
    let at_ (d : List W64) : State := { atUnit 17 [] with ctxs := [(17, { grain [] with st := .waiting, why := .reply 5, srcBytes := bytesOf d })] }
    let ok := at_ [0x0000000100000100, 0x2000, 0, 0x10000, 0, 0, 0, 0]
    let bad := at_ [0x0F, 0, 0, 0, 0, 0, 0, 0]
    let cut : State := { at_ [0x0000000100000100, 0x2000, 0, 0x100FF, 0, 0, 0, 0] with dev := { quiet.dev with remap0 := List.range 255 } }
    let full : State := { ok with dev := { quiet.dev with
      launches := (List.range 64).map (fun n => (n, { owner := true, slot := 1 })), launchQ := [(1, List.range 64)] } }
    let n (s : State) : Nat := (s.dev.launches.filter (fun e => e.2.owner && e.2.die == dieOf s.cur && e.2.slot == s.slotOf s.cur && s.queued e.1)).length
    (ok.stage = 1 ∧ ok.me.why = .reply (4 + 1) ∧ ok.me.srcBytes.length = 64 ∧ descOk ok.me.srcBytes = true ∧ (descOf ok.me.srcBytes).kind.toNat < 2 ∧ ok.partFails (descOf ok.me.srcBytes) = none)
      ∧ descOk bad.me.srcBytes = false ∧ n ok < 64 ∧ 64 ≤ n full ∧ (cut.partFails (descOf cut.me.srcBytes)).isSome = true ∧ descOk cut.me.srcBytes = true
      ∧ ((running 17 [(1, 4)]).rd 1).toNat % 64 ≠ 0 ∧ (∃ l ∈ ok.partGangs (descOf ok.me.srcBytes), ∃ y ∈ l, y / 256 = 0) := by decide

/-- LaunchLendAndRecoveryInstructions: RLEND with bad arguments, a bad frame, frames owned and lent, a full table, an absent peer, stores out. -/
theorem witness_LaunchLendAndRecoveryInstructions_lend :
    let s (g : W64) (l : Tab Lend) (p : List Pend) : State :=
      { runs 17 { grain [(1, 0x30000), (2, g), (3, 0x30001)] with priv := true, pend := p } with dev := { quiet.dev with lends := l, cxl := true } }
    let bad (g : W64) : Bool := g.toNat / 2 ^ 14 != 0 || g.toNat % 4 == 3
    ((s 0 [] []).me.pp = false ∧ (s 0 [] []).stage = 0 ∧ (s 0 [] []).privOf 17 = true) ∧ (bad 3 = true ∧ bad 0x4000 = true ∧ bad 0 = false ∧ bad 0x14 = false)
      ∧ (((s 0 [] []).rd 3).toNat % 65536 ≠ 0 ∧ ((s 0 [] []).rd 1).toNat % 65536 = 0 ∧ ((s 0 [] []).rd 1).toNat < (s 0 [] []).hbmLen)
      ∧ (((s 0 [] []).lendOf 3).st = 0 ∧ ((s 0 [(3, { st := 2 })] []).lendOf 3).st = 2 ∧ (s 0 [] [{}]).me.pend ≠ [] ∧ (s 0 [] []).me.pend = [] ∧ (s 0 [] []).me.why = .none)
      ∧ ((s 0 [] []).dev.lends.filter (fun e => e.2.st != 0)).length < 4096 ∧ (Tab.get (false, 0) (s 0x14 [] []).dev.peers ((0x14 : W64).toNat / 16 % 1024)).1 = false ∧ (0x14 : W64).getLsbD 2 = true
      ∧ (0 : W64).getLsbD 2 = false ∧ (s 0 [] []).dev.cxl = true ∧ quiet.dev.cxl = false := by decide
/-- LaunchLendAndRecoveryInstructions: a lend table with all of its 4096 entries in use. -/
theorem witness_LaunchLendAndRecoveryInstructions_lendFull :
    let l : Tab Lend := List.replicate 4096 (3, { st := 2 })
    4096 ≤ (l.filter (fun e => e.2.st != 0)).length := by
  intro l
  have h : l.filter (fun e => e.2.st != 0) = l := List.filter_replicate_of_pos rfl
  have k : l.length = 4096 := List.length_replicate
  exact Nat.le_of_eq (k.symm.trans (congrArg List.length h.symm))
/-- LaunchLendAndRecoveryInstructions: CKPT in the cluster steward, in another privileged context and in an unprivileged one, with the Loom stopped and
running, armed and rerunning; TWIL in an even and an odd core's steward and in a context, naming contexts 0 and 3, stopped and issuing. -/
theorem witness_LaunchLendAndRecoveryInstructions_recovery :
    let k (c : CtxId) (l : List (Nat × Loom)) : State := { runs c { grain [(1, 1), (2, 3)] with priv := c % 16 == 0 } with looms := l }
    let st := k 0 []
    let go := k 0 [(0, { st := .running })]
    let re := k 0 [(0, { st := .running, ck := { armed := true, rerun := 1 } })]
    (st.me.pp = false ∧ st.privOf 0 = true ∧ 0 % 128 = 0 ∧ (k 17 []).privOf 17 = false ∧ (k 16 []).privOf 16 = true ∧ 16 % 128 ≠ 0)
      ∧ ((st.rd 1).toNat % 4 ≠ 3 ∧ (st.rd 2).toNat % 4 = 3 ∧ (st.loom 0).st = .stopped ∧ (go.loom 0).st ≠ .stopped ∧ (go.loom 0).ck.rerun = 0 ∧ (go.loom 0).ck.armed = false ∧ (re.loom 0).ck.rerun ≠ 0)
      ∧ (coreOf 0 % 2 = 0 ∧ coreOf 16 % 2 = 1 ∧ 17 % 16 ≠ 0 ∧ (st.rd 2).toNat % 16 = 3 ∧ (st.rd 0).toNat % 16 = 0 ∧ (st.ctx (0 + 3)).st = .stopped ∧ (st.ctx (0 + 16 + 3)).st = .stopped
        ∧ ({ st with ctxs := st.ctxs ++ [(3, grain [])] }.ctx (0 + 3)).st ≠ .stopped) := by decide

/-- RemoteEvents: messages to another chip with and without a port, from another chip with and without its incarnation, to a cluster that is not
valid, to a closed slot, with room and without. -/
theorem witness_RemoteEvents_arrivals :
    let m : Msg := { core := 8, src := 17, slot := 1, kind := .active 0x2000 1 2 3 4 }
    let s (x : Core) : State := { quiet with cores := [(8, x)], dev := { quiet.dev with nchm1 := 1, routes := [(1, 2)] } }
    let cut : State := { quiet with dev := { quiet.dev with remap0 := List.range 255 } }
    (m.core / 4096 = quiet.dev.chip.toNat ∧ m.src / 65536 = quiet.dev.chip.toNat ∧ m.again = false ∧ cut.clusterValid (2040 / 8) = false ∧ quiet.clusterValid (8 / 8) = true)
      ∧ (4104 / 4096 ≠ quiet.dev.chip.toNat ∧ quiet.portFor (17 / 16) 4104 0 = none ∧ (s {}).portFor (17 / 16) 4104 0 = some 1 ∧ 65553 / 65536 ≠ quiet.dev.chip.toNat)
      ∧ (({ m with dom := 5 } : Msg).dom ≠ quiet.dev.dom ∧ m.dom = quiet.dev.dom ∧ Tab.get 0 quiet.dev.incs (65553 / 65536) = m.inc ∧ ({ m with want := 1 } : Msg).want ≠ quiet.dev.inc)
      ∧ (((s {}).core 8).slots.getLsbD 1 = false ∧ ((s { slots := 2 }).core 8).slots.getLsbD 1 = true ∧ ((s { slots := 2 }).core 8).msgQ.length < 32
        ∧ 32 ≤ ((s { slots := 2, msgQ := List.replicate 32 m }).core 8).msgQ.length) := by decide
/-- A core whose context 15 waits for a message or performs one. -/
def receives (why : Why) (m : Option Msg) (q : List Msg) : State :=
  { tables with ctxs := [(143, { grain [] with st := .waiting, why := why, msg := m })], cores := [(8, { slots := 2, msgQ := q })]
                mem := Memory.write tables.mem 0x200000 (leBytes 8 0x80000000BF) }
/-- RemoteEvents: a message taken; a write, an atomic and a bolt write performed, to a mapped and an unmapped address; a refused place. -/
theorem witness_RemoteEvents_performed :
    let w : Msg := { core := 8, src := 17, slot := 1, kind := .write 0x100 [1, 2] }
    let a : Msg := { w with kind := .atomic 3 0x100 1 0 }
    let b : Msg := { w with kind := .bolt 0x1000503 0 0 true [1, 2] }
    let t := receives .event none [w]
    let p (m : Msg) := receives .timed (some m) []
    let o (x : Bolt) : State := { p b with clusters := [(1, { bpEn := true, bpN := 16, bolts := [(3, x)] })] }
    let z : State := { p w with clusters := [(0, { bpEn := true, bpN := 16, bpBase := 0 })] }
    ((t.ctx 143).st = .waiting ∧ (t.ctx 143).why = .event ∧ (t.ctx 143).msg = none ∧ t.beingStopped 143 = false ∧ (t.core 8).msgQ = w :: [] ∧ (t.core 8).msgWait = [])
      ∧ (((p w).ctx (16 * 8 + 15)).msg = some w ∧ ((p w).ctx 143).why = .timed ∧ ((p a).core 8).frozen 100 = false ∧ (p w).dirtyReady 1 0x100 = true)
      ∧ ((p w).region 0x8000000100 = .scratch 0 0x100 ∧ hbmBytes ≤ 0x8000000100 ∧ 0x8000000100 % 128 + 2 ≤ 128 ∧ (p w).refusedByte 0x8000000100 2 = none ∧ (p w).lentAway 0x8000000100 = false
        ∧ ((p w).cluster 0).parked = [] ∧ ((p w).slice ((p w).pointSlice 0x8000000100)).resv = [] ∧ z.refusedByte 0x8000000100 2 ≠ none ∧ ((p w).region 0x8000000100).outside = false)
      ∧ (8 = b.core % 4096 ∧ ((o openBolt).cluster 1).bolt 3 = openBolt ∧ openBolt.isOpen = true ∧ openBolt.out = false ∧ 0 * openBolt.stride + 0 + 2 ≤ openBolt.rows * openBolt.stride
        ∧ (p b).twin 143 = none) := by decide
/-- RemoteEvents: the translations, a stale handle, and the bolt's bytes. -/
theorem witness_RemoteEvents_places :
    let s := receives .timed none []
    let o : State := { s with clusters := [(1, { bpEn := true, bpN := 16, bolts := [(3, openBolt)] })] }
    (∃ e, s.translateNow 1 false 0x100 .w = .ok (0x8000000100, e) ∧ e.d = true) ∧ (∃ e, s.translateNow 1 false 0x100 .rw = .ok (0x8000000100, e)) ∧ s.translateNow 2 false 0x100 .w = .error 1
      ∧ s.translateNow 2 false 0x100 .rw = .error 1 ∧ s.handle 0 0x1000503 = .stale 1 3 ∧ o.handle 0 0x1000503 = .cur 1 3 openBolt ∧ plainScratch o (windowBase 1 + 4096 * openBolt.page + (0 * openBolt.stride + 0)) 2 :=
  ⟨⟨_, rfl, rfl⟩, ⟨_, rfl⟩, rfl, rfl, rfl, rfl, ⟨1, 0, by decide⟩⟩
/-- RemoteEvents: statuses that come to a waiting sender and for a posted message; a steward that waits; links, and frames being recalled. -/
theorem witness_RemoteEvents_statuses :
    let o : SentOp := { id := 9, who := 17, rd := 4, msg := { core := 4104, src := 17, id := 9, kind := .wake 5 }, port := some 1 }
    let s : State := { holding 17 waiting with sent := [o], dev := { quiet.dev with nchm1 := 1, routes := [(1, 6)] } }
    let q : Pend := { id := 9 }
    let p : State := { holding 17 { grain [] with pend := [q] } with sent := [{ o with posted := true }] }
    let w : State := holding 16 { grain [] with st := .waiting, why := .event }
    let l (n : Lend) : State := { holding 17 waiting with dev := { quiet.dev with lends := [(3, n)] } }
    (s.sent = [o] ∧ o.spawn = none ∧ (s.core (coreOf 17)).frozen 100 = false ∧ o.aq = false ∧ s.twin 17 = none ∧ o.posted = false ∧ (s.ctx 17).awaits 9 = true)
      ∧ ((p.ctx 17).pend = [q] ∧ q.id = 9 ∧ q.pieces = []) ∧ ((w.ctx (16 * 1)).st = .waiting ∧ (w.ctx 16).why = .event)
      ∧ (1 < 18 ∧ o.port = some 1 ∧ ({ s with dev := { s.dev with down := 2 } } : State).portFor (17 / 16) 4104 0 = some 2
        ∧ ({ s with dev := { s.dev with routes := [(1, 2)], down := 2 } } : State).portFor (17 / 16) 4104 0 = none) ∧ (quiet.dev.chip = 0 ∧ { quiet.dev with chip := 1 }.chip ≠ 0)
      ∧ (((l { st := 3, left := [1536, 1537], who := some (17, 4) }).lendOf 3).st = 3 ∧ 1536 / 512 = 3 ∧ [1536, 1537].filter (· ≠ 1536) ≠ [] ∧ [1537].filter (· ≠ 1537) = []
        ∧ ((l { st := 3, left := [1537], who := some (17, 4) }).lendOf 3).who = some (17, 4) ∧ ((l {}).ctx 17).token ≠ 0) := by decide

/-- FrecCommands: FREC in a context, in a steward and in a cluster steward, with no trapped context and with one, with bad and good addresses. -/
theorem witness_FrecCommands :
    let s (x : Ctx) (q : List Nat) : State := { runs 0 { grain [(1, 0x30), (2, 0x2000), (3, 0x2002), (4, 5)] with priv := true } with
      ctxs := [(0, { grain [(1, 0x30), (2, 0x2000), (3, 0x2002), (4, 5)] with priv := true }), (3, x)], cores := [(0, { pages 0xF with trapQ := q })] }
    let z := s { grain [] with st := .trapped } [3]
    (z.me.pp = false ∧ z.stage = 0 ∧ z.cur % 16 = 0 ∧ z.cur % 128 = 0 ∧ 17 % 16 ≠ 0 ∧ 16 % 128 ≠ 0) ∧ ((z.rd 4).toNat % 16 ≠ 0 ∧ (z.rd 1).toNat % 16 = 0 ∧ ((s {} []).core 0).trapQ = [] ∧ (z.core 0).trapQ = 3 :: []
        ∧ z.twin 3 = none ∧ z.heldBack 3 = false ∧ (z.rd 3).toNat % 4 ≠ 0 ∧ (z.rd 2).toNat % 4 = 0)
      ∧ ((z.rd 3).toNat % 512 ≠ 0 ∧ (z.rd 2).toNat % 512 = 0 ∧ (z.rd 1).toNat / 16 % 16 = 3 ∧ (z.rd 0).toNat / 16 % 16 = 0 ∧ (z.ctx 3).gang = none ∧ (z.ctx 3).st = .trapped ∧ (z.ctx 3).pend = []
        ∧ (z.ctx 3).msg = none ∧ (z.ctx 3).why = .none ∧ ((s {} []).ctx 3).st = .stopped ∧ ((s { grain [] with gang := some 1 } []).ctx 3).gang ≠ none) := by decide
/-- FrecCommands: the record's address of SAVE, and a record that LOAD has read. -/
theorem witness_FrecCommands_records :
    let s := mapped 0 (grain [(1, 0x30), (2, 0x20000)])
    let l : State := { withBlock 0x20000 512 [(1, 0x30)] with cur := 0, ctxs := [(0, { grain [(1, 0x30)] with st := .waiting, why := .reply 5, load := some { id := 5, who := 0, pieces := piece 0x20000 512 } })]
                                                              mem := Memory.write [] 0x20090 [2] }
    (s.look s.cur (s.rd 2) .w = .hit 0x20000 (page 0xF 0x20000 0x20000) ∧ s.refusedByte 0x20000 512 = none ∧ s.mustHold s.cur { op := .store, va := s.rd 2, size := 512 } (splitLines 0x20000 512) = false
        ∧ (splitLines 0x20000 512).headD {} = { pa := 0x20000, len := 128 })
      ∧ (l.cur % 16 = 0 ∧ l.stage = 1 ∧ l.me.why = .reply 5 ∧ (∃ q, l.me.load = some q ∧ q.pieces = [{ pa := 0x20000, len := 512 }]) ∧ l.cohReady 0x20000 512 = true ∧ l.lentAway 0x20000 = false)
      ∧ (word8 (l.cohRead 0x20000 512) 18).toNat % 16 = 2 ∧ l.cur + (l.rd 1).toNat / 16 % 16 ≠ l.cur ∧ l.twin 3 = none ∧ (l.ctx 3).st = .stopped :=
  ⟨⟨rfl, by decide, by decide, by decide⟩, ⟨by decide, rfl, rfl, ⟨_, rfl, rfl⟩, by decide, by decide⟩, by decide, by decide, by decide, by decide⟩
/-- FrecCommands: Looms trapped for causes that can go on and not, clusters with and without a gang, and a gang that is all saved. -/
theorem witness_FrecCommands_loom :
    let k (c : BitVec 8) : Loom := { st := .trapped, gang := some 7, k := { lfCause := c, lfValid := true } }
    let s (l : Loom) (p : List Nat) (g : Gang) : State := { runs 0 { grain [] with priv := true } with looms := [(0, l)], clusters := [(0, { gpre := p })], dev := { quiet.dev with gangs := [(7, g)] } }
    ((s {} [] {}).loom 0).st ≠ .trapped ∧ ((s (k 8) [] {}).loom 0).st = .trapped ∧ ((s (k 8) [] {}).loom 0).k.lfCause ≠ 0x10 ∧ ((s (k 8) [] {}).loom 0).k.lfCause ≠ 0x11
      ∧ ((s {} [] {}).loom 0).gang = none ∧ (∀ e ∈ (s {} [] {}).ctxs, e.2.gang = none) ∧ (s (k 8) [] {}).ctxs.all (fun e => clusterOf e.1 != 0 || e.2.gang == none || e.2.gang == some 7) = true
      ∧ ((s (k 8) [] {}).loom 0).gang = some 7 ∧ Tab.find (s (k 8) [] {}).dev.gangs 7 ≠ none ∧ ((s (k 8) [] {}).gang 7).pre = 0 ∧ ((s (k 8) [] {}).gang 7).rick = false
      ∧ ((s {} [] {}).cluster 0).gpre = [] ∧ ((s {} [7] { pre := 1, cls := [0], savedCl := [0] }).cluster 0).gpre = [7]
      ∧ ((s {} [7] { pre := 1, cls := [0], savedCl := [0] }).gang 7).pre = 1 ∧ (∀ y ∈ ((s {} [7] { pre := 1, cls := [0], savedCl := [0] }).gang 7).cls, y ∈ ((s {} [7] { pre := 1, cls := [0], savedCl := [0] }).gang 7).savedCl)
      ∧ ((s {} [7] { pre := 1, cls := [0], savedCl := [0] }).gang 7).restoring = false := by decide

/-- LoomScalarSlots: predicates that read true and false, a result for each S form, bolts that wait and bolts held, armed and not. -/
theorem witness_LoomScalarSlots :
    let s := weaving {}
    let h : State := { weaving { boltQ := [(0x503, 100)], held := [{ h := 0x503 }], s := (List.replicate 28 0#32).set 3 0x503 } with clusters := [(0, { bpEn := true, bpN := 16, bolts := [(3, openBolt)] })] }
    let o : State := { weaving { held := [{ h := 0x503, out := true }], s := (List.replicate 28 0#32).set 3 0x503 } with
      clusters := [(0, { bpEn := true, bpN := 16, bolts := [(3, { openBolt with out := true })] })] }
    (predicated (.sadd { pe := true } 1 2 3) = some { pe := true } ∧ ¬ predOn (s.loom 0).k { pe := true } ∧ predOn (s.loom 0).k {} ∧ predOn (s.loom 0).k { pe := true, pn := true })
      ∧ (([.sadd {} 1 2 3, .ssub {} 1 2 3, .sand {} 1 2 3, .sor {} 1 2 3, .ssll {} 1 2 3, .ssrl {} 1 2 3, .smul {} 1 2 3, .scmp {} 1 2 3 4, .saddi {} 1 2 3, .smovi {} 1 2, .srsr {} 1 0] : List Instr).all
          (fun i => (scalarResult s i).isSome)) = true
      ∧ ((s.loom 0).ck.armed = false ∧ ({ (s.loom 0) with ck := { armed := true } } : Loom).ck.armed = true ∧ (h.loom 0).k.boltQ = (0x503, 100) :: []
        ∧ (h.loom 0).k.held.find? (fun y => y.h == (h.loom 0).k.s.getD 3 0 && !y.srel) = some { h := 0x503 } ∧ (h.cluster 0).bolt 3 = openBolt
        ∧ (o.loom 0).k.held.find? (fun y => y.h == (o.loom 0).k.s.getD 3 0 && !y.srel) = some { h := 0x503, out := true } ∧ (o.cluster 0).bolt 3 = { openBolt with out := true }) := by unfold predOn; decide
/-- LoomScalarSlots: the handles of those bolts. -/
theorem witness_LoomScalarSlots_handles :
    let s (b : Bolt) : State := { quiet with clusters := [(0, { bpEn := true, bpN := 16, bolts := [(3, b)] })] }
    (s openBolt).handle 0 0x503 = .cur 0 3 openBolt ∧ (s { openBolt with out := true }).handle 0 0x503 = .cur 0 3 { openBolt with out := true } := ⟨rfl, rfl⟩

/-- LoomVectorSlots: a form of each V instruction, queues and links with and without rows, and registers inside the file. -/
theorem witness_LoomVectorSlots :
    let q : QRow := { data := Vec.zero }
    let s := weaving { q0 := [q], q1 := [{ q with bolt := some 5, last := true }], west := [(99, Vec.zero)] }
    let e := weaving {}
    let g (m : List ClusterId) : State := { weaving { west := [(99, Vec.zero)] } with looms := [(0, { st := .running, gang := some 7, k := { west := [(99, Vec.zero)] } }), (1, { st := .running, gang := some 7 })]
                                                                                      dev := { quiet.dev with gangs := [(7, { cls := m })] } }
    (([.vadd {} 1 2 3 false, .vsub {} 1 2 3 false, .vand {} 1 2 3 false, .vor {} 1 2 3 false, .vxor {} 1 2 3 false, .vsll {} 1 2 3 false, .vsra {} 1 2 3 false, .vfadd {} 1 2 3 false 4, .vfmul {} 1 2 3 false 4
        , .vfmax {} 1 2 3 false 4, .vfmin {} 1 2 3 false 4, .vfma {} 1 2 3 false 4, .vnrw {} 1 2 3 4, .vwid {} 1 2 3 4, .vmov {} 1 2 false, .vrsum {} 1 2, .vrmax {} 1 2] : List Instr).all (fun i => (vectorForm e i).isSome)) = true
      ∧ ((s.loom 0).k.q0 = q :: [] ∧ (s.loom 0).k.q1 = { q with bolt := some 5, last := true } :: [] ∧ (e.loom 0).k.q0 = [] ∧ (e.loom 0).k.replay = [] ∧ (e.loom 0).k.freezeIn = none
        ∧ (e.loom 0).k.sqFullNow = false) ∧ ((g [0, 1]).linkOn 1 false = true ∧ (g [0, 1]).linkOn 0 true = true ∧ (g [0, 1]).loomBeside 0 true = some 1 ∧ ((g [0, 1]).loom 0).k.west = (99, Vec.zero) :: []) := by decide

/-- LoomMatrixAndTransferSlots: wavefronts of a register and of an empty queue, rows to write and store, and rows of a bolt inside its size. -/
theorem witness_LoomMatrixAndTransferSlots :
    let o (b : Bolt) : State := { weaving { sq := [Vec.zero], x := (List.replicate 28 0#64).set 3 0x503 } with clusters := [(0, { bpEn := true, bpN := 16, bolts := [(3, b)] })] }
    let s := o { openBolt with out := true }
    ((Instr.mpush {} 1 2 3, WaveKind.acc) ∈ [(Instr.mpush {} 1 2 3, WaveKind.acc), (.mzpush {} 1 2 3, .zacc)] ∧ predOn (s.loom 0).k {} ∧ (2 : BitVec 5).toNat < 28 ∧ (s.loom 0).k.q0 = [] ∧ (s.loom 0).k.replay = []
        ∧ (s.loom 0).k.freezeIn = none) ∧ ((s.loom 0).k.sq = Vec.zero :: [] ∧ (s.loom 0).ck.rerun = 0 ∧ ((s.loom 0).k.x.getD 3 0).setWidth 32 = (0x503 : BitVec 32)
        ∧ ((s.loom 0).k.x.getD 2 0).toNat % 128 < openBolt.rows ∧ openBolt.isOpen = true ∧ (s.loom 0).ck.armed = false) := by unfold predOn; decide
/-- LoomMatrixAndTransferSlots: a handle that names an open bolt, and one that names none. -/
theorem witness_LoomMatrixAndTransferSlots_handles :
    let s (b : Bolt) : State := { quiet with clusters := [(0, { bpEn := true, bpN := 16, bolts := [(3, b)] })] }
    (s openBolt).handle (0 / 256) 0x503 = .cur 0 3 openBolt ∧ ∀ cl e c, quiet.handle (0 / 256) 0x503 ≠ .cur cl e c :=
  ⟨rfl, fun cl e c h => by have : quiet.handle (0 / 256) 0x503 = .stale 0 3 := rfl; rw [this] at h; cases h⟩

/-- A Loom whose bundle at address 0 holds some slot instructions. -/
def weavingBundle (l : List Instr) (m : Option Nat) : State :=
  { weaving {} with looms := [(0, { st := .running, gang := m, store := (List.range 4).map (fun n => (n, wordOfInstr (l.getD n .wrs))) })], dev := { quiet.dev with gangs := [(7, { cls := [0, 1] })] } }
/-- The bundle of those instructions. -/
def bundle (a b c d : Instr) : Bundle := [some a, some b, some c, some d]
/-- LoomEvents: bundles of no-operations, with SNEXT on an empty queue, with a pop of an empty link, with an ill-formed MDRAIN, and with SREL of no bolt. -/
theorem witness_LoomEvents_bundles :
    let p := weavingBundle [.snop {}, .vnop {}, .mbub {}, .xnop {}] none
    let bad := bundle (.snop {}) (.vnop {}) (.mdrain {} 1 0) (.xnop {})
    let rel := bundle (.srel {} 3) (.vnop {}) (.mbub {}) (.xnop {})
    let next := bundle (.snext {} 3) (.vnop {}) (.mbub {}) (.xnop {})
    let west := bundle (.snop {}) (.vmov {} 1 30 false) (.mbub {}) (.xnop {})
    let idle := bundle (.snop {}) (.vnop {}) (.mbub {}) (.xnop {})
    let k := (p.loom 0).k
    (p.nextBundle 0 = (.ok idle, 0, false) ∧ (weavingBundle [.snop {}, .vnop {}, .mdrain {} 1 0, .xnop {}] none).nextBundle 0 = (.ok bad, 0, false)
        ∧ (weavingBundle [.srel {} 3, .vnop {}, .mbub {}, .xnop {}] none).nextBundle 0 = (.ok rel, 0, false) ∧ (weavingBundle [.snext {} 3, .vnop {}, .mbub {}, .xnop {}] none).nextBundle 0 = (.ok next, 0, false)
        ∧ (weavingBundle [.snop {}, .vmov {} 1 30 false, .mbub {}, .xnop {}] (some 7)).nextBundle 0 = (.ok west, 0, false))
      ∧ (k.freezeIn = none ∧ (p.loom 0).st = .running ∧ (p.loom 0).ck.rerun = 0 ∧ k.illegalSlot idle = none ∧ k.pendingRead idle = none ∧ p.linkWait 0 idle = false ∧ p.exactOf 0 idle = none
        ∧ k.illegalSlot bad = some 2 ∧ k.illegalSlot rel = none ∧ p.exactOf 0 rel = some (0, 4) ∧ p.linkWait 0 rel = false ∧ k.illegalSlot next = none ∧ k.live next 0 = some (.snext {} 3)
        ∧ p.exactOf 0 next ≠ some (0, 3) ∧ p.queueReady 0 = false ∧ k.illegalSlot west = none) := ⟨⟨rfl, rfl, rfl, rfl, rfl⟩, by decide⟩
/-- LoomEvents: the east Loom of a gang of two waits for the link that is empty. -/
theorem witness_LoomEvents_link :
    let s : State := { quiet with looms := [(0, { st := .running, gang := some 7 }), (1, { st := .running, gang := some 7 })], dev := { quiet.dev with gangs := [(7, { cls := [0, 1] })] } }
    s.linkWait 1 (bundle (.snop {}) (.vmov {} 1 30 false) (.mbub {}) (.xnop {})) = true := by decide
/-- LoomEvents: what is in flight, rows, wavefronts, columns and writes that are due; a late fault, and a weave that stops. -/
theorem witness_LoomEvents :
    let s := weaving { flight := [{ res := .s 3 7 }], rows := [{ row := 2 }], waves := [{ fmt := 0x200 }], drain := [{ vals := Vec.zero }], bw := [{ vals := Vec.zero }] }
    let w := weaving { replay := [{ seq := 1 }], freezeIn := some 0 }
    let z := weaving { halting := true }
    ((s.loom 0).k.flight = [{ res := .s 3 7 }] ∧ (s.loom 0).k.held = [] ∧ (s.loom 0).ck.ask = 0 ∧ (s.loom 0).k.freezeIn = none ∧ (s.loom 0).k.halting = false ∧ (0 : Nat) ≤ (s.loom 0).k.time - 1)
      ∧ ((s.loom 0).k.rows = [{ row := 2 }] ∧ (s.loom 0).k.waves = [{ fmt := 0x200 }] ∧ plFmt 0x200 ≠ 1 ∧ (s.loom 0).k.time - 1 < 0 + 128 ∧ (s.loom 0).k.drain = [{ vals := Vec.zero }]
        ∧ (s.loom 0).k.bw = [{ vals := Vec.zero }]) ∧ ((w.loom 0).k.replay = { seq := 1 } :: [] ∧ (w.loom 0).k.freezeIn = some 0)
      ∧ ((z.loom 0).k.halting = true ∧ (z.loom 0).k.quiet = true ∧ (z.loom 0).ck.armed = false ∧ (z.loom 0).k.held = [] ∧ (z.loom 0).eng = []) := by decide

/-- GangEvents: a launch whose only cluster is free, one that a context keeps waiting, a gang reserved and one in pre-emption, one whose members have ended. -/
theorem witness_GangEvents_life :
    let d : Desc := { gpc := 2, wv := true, d0 := true }
    let l : Launch := { slot := 1, desc := d, todo := [[0]], owner := true }
    let s : State := { quiet with dev := { quiet.dev with launches := [(3, l)], launchQ := [(1, [3])] } }
    let x : Gang := { slot := 1, desc := d, want := [0], launch := 3, cls := [0], members := [grainCtx 0 0, grainCtx 0 1] }
    let w : State := { quiet with ctxs := [(grainCtx 0 1, grain [])], dev := { quiet.dev with launches := [(3, { l with gangs := [4], todo := [] })], launchQ := [(1, [3])], gangs := [(4, x)] } }
    let e : Ctx := { grain [] with st := .ended, gang := some 4 }
    let r : State := { quiet with ctxs := [(grainCtx 0 0, e), (grainCtx 0 1, e)]
                                  dev := { quiet.dev with launches := [(3, { l with gangs := [4], todo := [] })], gangs := [(4, { x with want := [], released := true })] } }
    (0 / 256 < 2 ∧ d.gpc ≤ 112 ∧ s.queueOf 0 1 = [3] ∧ (s.launch 3).slot = 1 ∧ (s.launch 3).gangs = [] ∧ (s.launch 3).todo = [[0]] ∧ d.kind = 0
        ∧ (∀ i, i < d.gpc → (s.ctx (grainCtx 0 i)).st = .stopped ∧ (s.ctx (grainCtx 0 i)).gang = none ∧ s.twin (grainCtx 0 i) = none ∧ (s.core (coreOf (grainCtx 0 i))).failed = false)
        ∧ (s.loom 0).st = .stopped ∧ (s.loom 0).gang = none ∧ (s.cluster 0).retired = false)
      ∧ (w.queueOf 0 1 = [3] ∧ (w.launch 3).gangs = [4] ∧ (w.gang 4).want = [0] ∧ (w.gang 4).slot = 1 ∧ (w.ctx (grainCtx 0 1)).st ≠ .stopped ∧ (w.ctx (grainCtx 0 1)).gang ≠ some 4
        ∧ w.twin (grainCtx 0 1) = none ∧ Tab.find w.dev.gangs 4 ≠ none ∧ (w.gang 4).released = false ∧ (w.gang 4).pre = 0)
      ∧ (Tab.find r.dev.gangs 4 ≠ none ∧ (r.dev.gangs.map (·.1)).Nodup ∧ (r.gang 4).launch = 3 ∧ Tab.find r.dev.launches 3 ≠ none ∧ (r.launch 3).owner = true ∧ (r.launch 3).ended = false
        ∧ (r.launch 3).written = false ∧ (r.launch 3).gangs = [4] ∧ (r.launch 3).todo = [] ∧ (r.launch 3).chips = [] ∧ r.queued 3 = false ∧ (r.gang 4).released = true ∧ (r.gang 4).pre = 0
        ∧ (∀ c ∈ (r.gang 4).members, (r.ctx c).gang = some 4 → (r.ctx c).st = .ended) ∧ (∀ cl ∈ (r.gang 4).cls, (r.loom cl).gang ≠ some 4 ∧ r.episodes false cl 4 = [] ∧ r.episodes true cl 4 = [])) := by decide
/-- GangEvents: a wake flood seen and not, and one whose part fails; a report; a record that is due, with and without its stores done; an end of a gang. -/
theorem witness_GangEvents_records :
    let d : Desc := { kind := 2, gpc := 2, d0 := true, lnum := 9 }
    let seen : State := { quiet with clusters := [(0, { floods := [9] })] }
    let l : Launch := { slot := 1, desc := d, owner := true, chips := [2] }
    let s : State := { quiet with dev := { quiet.dev with launches := [(3, l)] } }
    let e : State := { quiet with dev := { quiet.dev with launches := [(3, { l with ended := true, desc := { d with done := 0x100 } })] } }
    let x : State := { quiet with dev := { quiet.dev with launches := [(3, { l with chips := [], gangs := [4] })], gangs := [(4, { launch := 3, slot := 1, cls := [0] })] } }
    (quiet.partFails d = none ∧ (quiet.partGangs d).filter (fun l => l.any (fun c => !(quiet.cluster c).floods.contains d.lnum)) ≠ []
        ∧ (seen.partGangs d).filter (fun l => l.any (fun c => !(seen.cluster c).floods.contains d.lnum)) = []
        ∧ (({ quiet with dev := { quiet.dev with remap0 := List.range 255 } } : State).partFails { d with x0 := 15, y0 := 15 }).isSome = true)
      ∧ ((s.dev.launches.map (·.1)).Nodup ∧ (3, l) ∈ s.dev.launches ∧ l.owner = true ∧ l.desc.lnum = 9 ∧ 2 ∈ l.chips ∧ (∀ e ∈ s.dev.launches, e.1 ≠ 3 → e.2.owner = false) ∧ l.ended = false ∧ l.written = false)
      ∧ (Tab.find e.dev.launches 3 ≠ none ∧ (e.launch 3).ended = true ∧ (e.launch 3).written = false ∧ e.storesDone (e.launch 3).drain = true
        ∧ ({ holding 17 { grain [] with pend := [{ id := 5 }] } with dev := e.dev } : State).storesDone [(17, 5)] = false)
      ∧ (Tab.find x.dev.gangs 4 ≠ none ∧ (x.launch 3).ended = false ∧ x.dev.jobs = [] ∧ x.dev.th0.nodes = [] ∧ x.dev.th1.nodes = []) := by decide
/-- GangEvents: no Winnow unit and no barrier is in use in a machine with no slices and no clusters. -/
theorem witness_GangEvents_units :
    (∀ u, (quiet.winnow u).slot ≠ some 1) ∧ (∀ cl, ((quiet.cluster cl).barc.map (·.1)).Nodup ∧ ((quiet.cluster cl).barw.map (·.1)).Nodup) := by
  refine ⟨fun u => ?_, fun cl => ?_⟩ <;> simp [State.winnow, State.slice, State.cluster, quiet, State.reset, Tab.get]
/-- GangEvents: a record's place in a scratchpad, an address that is not mapped, and a place that is refused. -/
theorem witness_GangEvents_done :
    let s : State := { tables with mem := Memory.write tables.mem 0x200000 (leBytes 8 0x80000000BF) }
    let r : State := { s with clusters := [(0, { bpEn := true, bpN := 16, bpBase := 0 })] }
    (∃ e, s.translateNow 1 false 0x100 .w = .ok (0x8000000100, e) ∧ e.d = true ∧ s.dirtyReady 1 0x100 = true) ∧ plainScratch s 0x8000000100 16 ∧ 0x8000000100 % 16 = 0
      ∧ s.translateNow 2 false 0x100 .w = .error 1 ∧ r.refusedByte 0x8000000100 16 ≠ none :=
  ⟨⟨_, rfl, rfl, by decide⟩, ⟨0, 0x100, by decide⟩, rfl, rfl, by decide⟩

/-- RickStart: a rick admitted, on its leader and on another chip, with all of the others ready and not, blocked, due, early and late. -/
theorem witness_RickStart :
    let d (c0 n : Nat) : Desc := { kind := 2, d0 := true, c0 := c0, nchm1 := n, lnum := 9 }
    let s (x : Gang) : State := { quiet with dev := { quiet.dev with sync := true, gangs := [(4, { x with rick := true }), (5, { cls := [0] })] } }
    let a (c0 : Nat) (r : List Nat) : State := s { desc := d c0 2, admitted := true, ready := r }
    Tab.find (a 0 []).dev.gangs 4 ≠ none ∧ ((a 0 []).gang 4).rick = true ∧ ((a 1 []).gang 4).desc.c0 ≠ (a 1 []).dev.chip.toNat ∧ ((a 0 []).gang 4).desc.c0 = (a 0 []).dev.chip.toNat
      ∧ ((s {}).gang 4).admitted = false ∧ 1 ≠ quiet.dev.chip.toNat ∧ 2 ∉ ((a 0 []).gang 4).ready ∧ 2 ≤ 0 + ((a 0 []).gang 4).desc.nchm1 ∧ (∀ c, c < 3 → c = 1 ∨ c ∈ ((a 0 [0, 2]).gang 4).ready)
      ∧ (a 0 []).blockers 4 = [] ∧ ((a 0 []).gang 4).start.toNat - (a 0 []).dtimeNow.toNat ≤ (a 0 []).dev.guard.toNat ∧ ((a 0 []).gang 4).start.toNat - (a 0 []).dtimeNow.toNat = 0
      ∧ ((s { start := 100000000, admitted := true }).gang 4).start.toNat - (s {}).dtimeNow.toNat ≠ 0 ∧ ((a 0 []).gang 4).pre = 0 ∧ ((a 0 []).gang 4).released = false := by decide
/-- RickStart: a rick that one other gang blocks. -/
theorem witness_RickStart_blocked :
    let x : Gang := { rick := true, slot := 1, want := [0], desc := { kind := 2, d0 := true, gpc := 1 } }
    let s : State := { quiet with ctxs := [(grainCtx 0 0, { grain [] with gang := some 5 })], dev := { quiet.dev with sync := true, gangs := [(4, x), (5, { slot := 2, cls := [0], members := [grainCtx 0 0] })] } }
    s.blockers 4 = [5] ∧ 5 ≠ 4 ∧ Tab.find s.dev.gangs 5 ≠ none ∧ (s.gang 5).pre = 0 ∧ (s.gang 5).rick = false := by decide

/-- Preemption: a gang whose cluster has not yet been reached, has a member short of a boundary, has all at one, and has reported. -/
theorem witness_Preemption :
    let s (c : Ctx) (x : Gang) : State := { quiet with ctxs := [(17, { c with gang := some 4 })], dev := { quiet.dev with gangs := [(4, { x with members := [17], cls := [0] })] } }
    let b := s { grain [] with st := .waiting } { pre := 1, reached := [0] }
    let r := s { grain [] with st := .parked } { pre := 1, reached := [0] }
    (Tab.find (s (grain []) {}).dev.gangs 4 ≠ none ∧ 0 ∈ ((s (grain []) {}).gang 4).cls ∧ 0 ∉ ((s (grain []) {}).gang 4).reported ∧ 0 ∉ ((s (grain []) {}).gang 4).reached)
      ∧ (0 ∈ (b.gang 4).reached ∧ (∃ c ∈ (b.gang 4).members, clusterOf c = 0 ∧ (b.ctx c).gang = some 4 ∧ (b.ctx c).st.atBoundary = false)
        ∧ (∀ c ∈ (r.gang 4).members, clusterOf c = 0 → (r.ctx c).gang = some 4 → (r.ctx c).st.atBoundary = true) ∧ 0 ∈ ((s (grain []) { reported := [0] }).gang 4).reported)
      ∧ ((b.gang 4).pre ≠ 0 ∧ 0 ∉ (b.gang 4).stoppedOn ∧ (r.gang 4).kept = [] ∧ r.performedFor 17 = false) := by decide
/-- Preemption: clusters ready to be saved and restored and not, and a slot's gangs. -/
theorem witness_Preemption_records :
    let s (c : Ctx) (x : Gang) : State := { quiet with ctxs := [(17, { c with gang := some 4 })], dev := { quiet.dev with gangs := [(4, { x with members := [17], cls := [0], slot := 1 })] }
                                                       thatch := { quiet.thatch with ready := true } }
    let g : State := s { grain [] with st := .stopped, pend := [{ id := 5 }] } { pre := 1, stoppedOn := [0] }
    let h : State := s { grain [] with st := .stopped } { pre := 1, stoppedOn := [0] }
    let u : State := { h with dev := { h.dev with slctl := h.dev.slctl.set 1 2 } }
    (0 / 256 ∈ (g.gang 4).stoppedOn ∧ 0 ∉ (g.gang 4).savedCl ∧ g.saveReady 4 0 = false ∧ h.saveReady 4 0 = true)
      ∧ (u.dev.slctl.length = 16 ∧ (u.dev.gangs.map (·.1)).Nodup ∧ h.answers = true ∧ h.slState 1 = 0 ∧ u.slState 1 = 2 ∧ quiet.answers = false ∧ ((s {} {}).gang 4).pre = 0 ∧ ((s {} {}).gang 4).want = []
        ∧ ((s {} {}).gang 4).cls ≠ []) := by decide

/-- Preemption: a restore that is ready, and one that a busy context keeps waiting. -/
theorem witness_Preemption_restore :
    let x : Gang := { pre := 2, restoring := true, cls := [0], savedCl := [0], members := [17], ctxs := [(17, {})], slot := 1 }
    let s (l : Tab Ctx) : State := { quiet with ctxs := l, dev := { quiet.dev with gangs := [(4, x)] } }
    ((s []).gang 4).restoring = true ∧ ((s []).gang 4).pre ≠ 0 ∧ (∀ cl ∈ ((s []).gang 4).cls, cl ∈ ((s []).gang 4).savedCl) ∧ (s []).restoreReady x = true ∧ (s [(17, grain [])]).restoreReady x = false := by decide

/-- RecoveryEvents: a watchdog that is stale, one of a member in a stopped cluster, one that traps; gangs late at the pre-emption watchdog. -/
theorem witness_RecoveryEvents_watchdogs :
    let w : Ctx := { waiting with epoch := 3 }
    let s := holding 17 w
    let h (x : Gang) : State := { holding 17 { w with st := .parked, gang := some 4 } with dev := { quiet.dev with gangs := [(4, { x with members := [17], cls := [0] })] } }
    ((s.ctx 17).epoch = 3 ∧ (s.ctx 17).st = .waiting ∧ s.performedFor 17 = false ∧ s.heldBack 17 = false ∧ (s.ctx 17).why ≠ .barrier ∧ s.twin 17 = none ∧ 17 % 16 ≠ 0 ∧ (s.ctx 17).epoch ≠ 2)
      ∧ ((h { pre := 1, reached := [0] }).heldBack 17 = true ∧ ((h { pre := 1, reached := [0] }).ctx 17).gang = some 4)
      ∧ (((h { pre := 1, preNo := 6 }).gang 4).preNo = 6 ∧ 17 ∈ ((h { pre := 1 }).gang 4).members ∧ coreOf 17 = 1 ∧ (({ h { pre := 1 } with ctxs := [(17, { w with gang := some 4 })] } : State).ctx 17).st.atBoundary = false ∧ clusterOf 17 = 0 ∧ 0 < 512
        ∧ ((h { pre := 1 }).gang 4).pre ≠ 0 ∧ ((h {}).gang 4).preNo ≠ 6) := by decide
/-- RecoveryEvents: cores with and without a twill pair, freezes over and not. -/
theorem witness_RecoveryEvents_freezes :
    let s (x : Core) : State := { quiet with cores := [(2, x)], looms := [(2, { thaw := x.thaw })] }
    ((s {}).core (2 - 2 % 2)).twills = [] ∧ ((s { twills := [{ ctx := 3 }] }).core (3 - 3 % 2)).twills ≠ [] ∧ (s { thaw := 165 }).cycle < ((s { thaw := 165 }).core 2).thaw
      ∧ ((s {}).core 2).thaw ≤ quiet.cycle ∧ (s { thaw := 165 }).cycle < ((s { thaw := 165 }).loom 2).thaw ∧ ((s {}).loom 2).thaw ≤ quiet.cycle := by decide
/-- RecoveryEvents: Looms stopped, running with and without a rollback point, and in their first and second rerun. -/
theorem witness_RecoveryEvents_rollback :
    let s (k : Ckpt) : State := { quiet with looms := [(0, { st := .running, ck := k })] }
    (quiet.loom 0).st = .stopped ∧ ((s {}).loom 0).st ≠ .stopped ∧ ((s {}).loom 0).st ≠ .trapped ∧ ((s { rerun := 1, point := some {} }).loom 0).ck.rerun = 1 ∧ ((s {}).loom 0).ck.armed = false
      ∧ ((s { armed := true, point := some {} }).loom 0).ck.point = some {} ∧ ((s { armed := true, point := some {} }).loom 0).ck.rerun = 0
      ∧ ((s { rerun := 2, first := some (5, 7), bundles := 5, sig := 7 }).loom 0).ck.first = some (((s { rerun := 2, first := some (5, 7), bundles := 5, sig := 7 }).loom 0).ck.bundles, 7)
      ∧ ((s { rerun := 2, first := some (5, 7), bundles := 5, sig := 8 }).loom 0).ck.first ≠ some (5, 8) ∧ ((s { rerun := 2 }).loom 0).ck.bad = false := by decide
/-- RecoveryEvents: twins whose requests differ, agree and have not both come; a device that answers, with lines and without. -/
theorem witness_RecoveryEvents_twins :
    let a : TwinReq := { id := 5, sig := [1] }
    let s (e o : List TwinReq) : State := { quiet with cores := [(2, { twills := [{ ctx := 3, node := 0xFFFF, even := e, odd := o }] })], thatch := { quiet.thatch with ready := true } }
    2 % 2 = 0 ∧ 1 ≤ 3 ∧ 3 < 15 ∧ ((s [a] []).core 2).twills = [{ ctx := 3, node := 0xFFFF, even := [a], odd := [] }] ∧ a.sig ≠ [2] ∧ a.both = false ∧ a.instr = none
      ∧ (s [] []).answers = true ∧ quiet.answers = false ∧ ((s [] []).lines.map (·.1)).filter (fun n => !(s [] []).lentAway (128 * n)) = []
      ∧ (({ s [] [] with lines := [(0, {})] } : State).lines.map (·.1)).filter (fun n => !(s [] []).lentAway (128 * n)) ≠ [] := by decide
/-- ContextRecordsGiveBackTheContext: a code. -/
theorem witness_ContextRecordsGiveBackTheContext : (2 : Nat) < 16 := by decide

/-- The quiet machine on a device that answers. -/
def answering : State := { quiet with thatch := { quiet.thatch with ready := true } }
/-- HostEvents: a device that answers and one that does not; scratchpad and HBM4 addresses, banks free and used. -/
theorem witness_HostEvents_window :
    let u : State := { answering with clusters := [(0, { bankUse := (100, [bankOf 0x40]) })] }
    (0 < 2 ∧ quiet.answers = false ∧ answering.answers = true ∧ quiet.region 0x8000000040 = .scratch 0 0x40 ∧ quiet.region 0x40 = .hbm ∧ answering.portPa 2 0x8000000040 = 0x8000000040)
      ∧ (u.cluster 0).bankUse.1 = u.cycle ∧ (u.cluster 0).bankUse.2.contains (bankOf 0x40) = true ∧ (quiet.cluster 0).bankUse.2.contains (bankOf 0x40) = false := by decide
/-- HostEvents: a place that a write of two bytes goes to. -/
theorem witness_HostEvents_place : plainScratch answering 0x8000000040 2 := ⟨0, 0x40, by decide⟩
/-- HostEvents: descriptors in HBM4 that are well formed, that are not and whose part fails, a full queue, wakes, and a rick that loses a chip. -/
theorem witness_HostEvents_doorbell :
    let s (d : List W64) : State := { answering with mem := Memory.write [] 0x20000 (bytesOf d) }
    let ok := s [0x0000000100000100, 0x2000, 0, 0x10000, 0, 0, 0, 0]
    let bad := s [0x0F, 0, 0, 0, 0, 0, 0, 0]
    let cut : State := { s [0x0000000100000100, 0x2000, 0, 0x100FF, 0, 0, 0, 0] with dev := { quiet.dev with remap0 := List.range 255 } }
    let full : State := { ok with dev := { quiet.dev with launches := (List.range 64).map (fun n => (n, { owner := true, slot := 1 })), launchQ := [(1, List.range 64)] } }
    let r : State := { answering with dev := { quiet.dev with nchm1 := 1, gangs := [(4, { rick := true, desc := { kind := 2, nchm1 := 1 } })] } }
    let n (s : State) : Nat := (s.dev.launches.filter (fun e => e.2.owner && e.2.die == 0 && e.2.slot == 1 && s.queued e.1)).length
    (ok.answers = true ∧ ok.cohReady 0x20000 64 = true ∧ descOk (bad.cohRead 0x20000 64) = false ∧ descOk (ok.cohRead 0x20000 64) = true ∧ n ok < 64 ∧ 64 ≤ n full
        ∧ (descOf (ok.cohRead 0x20000 64)).kind.toNat < 2 ∧ ok.partFails (descOf (ok.cohRead 0x20000 64)) = none ∧ (cut.partFails (descOf (cut.cohRead 0x20000 64))).isSome = true)
      ∧ (ok.clusterValid (8 / 8) = true ∧ cut.clusterValid (2040 / 8) = false)
      ∧ ((4, ({ rick := true, desc := { kind := 2, nchm1 := 1 } } : Gang)) ∈ r.dev.gangs ∧ (0 : BitVec 18) &&& ~~~r.dev.down = 0 ∧ 1 ≠ r.dev.chip.toNat ∧ r.chipGone 0 = false) := by decide

/-- WindowARegisters: offsets of each register, a busy and an idle Thatch, and counters of a Loom and a slice. -/
theorem witness_WindowARegisters :
    (0x100 < 0x600000 ∧ quiet.answers = false ∧ answering.answers = true ∧ answering.thatch.busy = false ∧ ({ answering.thatch with busy := true } : Thatch).busy = true)
      ∧ ((1 : W64).toNat % 256 = 1 ∧ (0x600010 : Nat) = 0x600008 + 8 * 1 ∧ (0x300 : Nat) = 0x200 * 1 + 0x100 * 1 ∧ (0x100100 : Nat) = 0x100000 + 0x100 * 1 ∧ (0x200005 : Nat) = 0x200000 + 5
        ∧ (0x201014 : Nat) = 0x201000 + 4 * 5 ∧ (0x210028 : Nat) = 0x210000 + 8 * 5 ∧ (0x300028 : Nat) = 0x300000 + 8 * 5 ∧ (0x740098 : Nat) = 0x740000 + 0x80 * 1 + 8 * 3
        ∧ (0x750098 : Nat) = 0x750000 + 0x80 * 1 + 8 * 3)
      ∧ ((1 : W64).getLsbD 0 = true ∧ (2 : W64).getLsbD 1 = true ∧ (4 : W64).getLsbD 2 = true ∧ (8 : W64).toNat % 8 = 0)
      ∧ (answering.clusterValid 1 = true ∧ ({ answering with slotted := true } : State).grainsToCome = false ∧ answering.grainsToCome = true ∧ (answering.loom 1).k.levc.length = 16 ∧ (answering.slice 1).sevc.length = 16) := by decide

/-- A container of one role of 8 bytes for cluster 0 of chip 0, under a key slot and with signatures of zeros. -/
def container (key cls : Nat) : List Byte :=
  leBytes 4 0x554C4F46 ++ leBytes 2 1 ++ leBytes 2 1 ++ leBytes 4 1 ++ leBytes 4 key ++ leBytes 8 64 ++ leBytes 8 128 ++ leBytes 8 256 ++ leBytes 8 3648 ++ leBytes 16 0
    ++ (leBytes 8 0x1000 ++ leBytes 8 0x1000 ++ leBytes 4 8 ++ leBytes 4 cls ++ leBytes 8 192 ++ leBytes 32 0) ++ (leBytes 8 (7 * 2 ^ 24) ++ leBytes 56 0)
    ++ (leBytes 8 0x1122334455667788 ++ leBytes 56 0) ++ List.replicate 3392 0
/-- StartUpCommandsAndHealth: containers that are well formed as R462 says. -/
theorem witness_StartUpCommandsAndHealth_container : boxOk (container 15 0) = true ∧ keyIdx (container 15 0) = 15 ∧ boxOk (container 15 1) = true := by decide +kernel
/-- StartUpCommandsAndHealth: where both signature checks accept (they are free values of Config), such a container is firmware, and it has a grain role. -/
theorem witness_StartUpCommandsAndHealth_firmware (he : ∀ k m g, Config.ed25519Ok k m g = true) (hm : ∀ k m g, Config.mldsaOk k m g = true) :
    firmwareCode (container 15 0) = 0 ∧ (grainRole (container 15 0)).isSome = true
      ∧ ({ quiet.thatch with fwA := container 15 0, sel := false } : Thatch).pickFirmware = .inl (container 15 0, false) := by
  have h : firmwareCode (container 15 0) = 0 := by
    have := witness_StartUpCommandsAndHealth_container
    simp [firmwareCode, boxSigCode, sigCode, this.1, this.2.1, he, hm]
  exact ⟨h, by decide, by simp [Thatch.pickFirmware, h]⟩
/-- StartUpCommandsAndHealth: parts that are erased, have no firmware, and are alarmed; an image to send; a chip that forwards. -/
theorem witness_StartUpCommandsAndHealth :
    let t (x : Thatch) : State := { quiet with thatch := x }
    let i : State := { answering with thatch := { answering.thatch with images := [(0, (0x1000, [1, 2], [0]))], load := some (1, [5]) } }
    let f : State := { answering with dev := { quiet.dev with nchm1 := 2 } }
    ((t { erased := true }).thatch.erased = true ∧ quiet.thatch.erased = false ∧ quiet.thatch.pickFirmware = .inr 1 ∧ (t { alarmed := true }).thatch.alarmed = true ∧ quiet.thatch.alarmed = false)
      ∧ (Tab.find i.thatch.images 0 = some (0x1000, [1, 2], [0]) ∧ i.sending = false ∧ i.thatch.load = some (1, [5]) ∧ i.thatch.waiting = [] ∧ i.nClusters 0 ≤ 2 * 255 + 1)
      ∧ (answering.hbmReady 0x20000 8 = true ∧ answering.thatch.busy = false ∧ ({ answering.thatch with busy := true } : Thatch).busy = true ∧ answering.thatch.cmd = none
        ∧ f.forwardTo 0 = [1, 2] ∧ f.chipGone 5 = true) := by decide
/-- StartUpCommandsAndHealth: commands of Thatch at rest, with operands in and out of HBM4, alarms and heat. -/
theorem witness_StartUpCommandsAndHealth_commands :
    let th := answering.thatch
    (th.busy = false ∧ th.cmd = none ∧ th.waiting = [] ∧ th.erased = false) ∧ (answering.hbmReady 0 32 = true ∧ 0 % 8 = 0 ∧ 0 + 32 ≤ answering.hbmLen ∧ 4 % 8 ≠ 0)
      ∧ ((7 : BitVec 3) ≠ 0 ∧ th.alarmed = false ∧ th.alarm ||| (7 : BitVec 3) ≠ th.alarm ∧ th.warn = false ∧ th.hold = false ∧ answering.dev.gangs = [] ∧ answering.dev.launches = []
        ∧ answering.dev.jobs = [] ∧ answering.dev.th0.nodes = [] ∧ answering.dev.th1.nodes = []) := by decide
/-- StartUpCommandsAndHealth: blocks of keys that an empty slot takes, that name no slot and that are not as they must be; firmware that is none. -/
theorem witness_StartUpCommandsAndHealth_keys :
    let b (n : Nat) : List Byte := leBytes 1 n ++ List.replicate 5420 0
    quiet.thatch.enrollCode (b 0) = 0 ∧ quiet.thatch.enrollCode (b 9) = 10 ∧ quiet.thatch.enrollCode (List.replicate 5421 1) = 1 ∧ firmwareCode [] = 1 := by decide

/-- EveryInstructionReadsBack: a grain instruction and a slot operation. -/
theorem witness_EveryInstructionReadsBack :
    wellFormed (.sub 7 3 4) = true ∧ encode (.sub 7 3 4) = some (0x05CD0001, 0) ∧ wellFormed (.mfmt 0x460) = true ∧ encode (.mfmt 0x460) = some (0xDC11807F, 0) := by decide
/-- EveryDecodedWordIsItsEncoding: words of both. -/
theorem witness_EveryDecodedWordIsItsEncoding : decodeWord 0x05CD0001 = some (.sub 7 3 4) ∧ decodeSlot 0xDC11807F 0 = some (.mfmt 0x460) := by decide
/-- AStepRunsTheDecodedInstruction: entries of each kind that are due, one of a later cycle, a context that issues with its line in the cache, and a
cycle that hands out its slots. -/
theorem witness_AStepRunsTheDecodedInstruction :
    let e (a : Act) : Entry := { who := 17, act := a }
    let s (l : List Entry) : State := { mapped 17 { grain [] with pc := 0x20000 } with
        todo := l
        cores := [(1, { pages 1 with icache := [(lineOf 0x20000, (0x05CD0001 : LineData))] })] }
    let g (n : Nat) : State := { quiet with slotted := true, agenda := [{ due := n, act := .ev .powerOn }] }
    ((s [e .issue]).todo = e .issue :: [] ∧ ((s []).ctx 17).st = .issuing ∧ ((s []).core 1).frozen 100 = false ∧ ((s []).ctx 17).late = [] ∧ ((s []).ctx 17).uerr = none ∧ 17 % 16 ≠ 0
        ∧ Tab.find ((s []).core 1).icache (lineOf 0x20000) = some 0x05CD0001 ∧ decodeWord 0x05CD0001 = some (.sub 7 3 4) ∧ decodeWord 0 = none ∧ (quiet.ctx 17).st ≠ .issuing)
      ∧ ((g 100).todo = [] ∧ (g 100).slotted = true ∧ (g 101).cycle < 101 ∧ quiet.todo = [] ∧ quiet.slotted = false ∧ quiet.agenda = [] ∧ Ev.instr .powerOn = some .powerOn ∧ quiet.thatch.hold = false) := by decide
/-- AStepRunsTheDecodedInstruction: the context's address of its instruction translates. -/
theorem witness_AStepRunsTheDecodedInstruction_fetch :
    let s : State := mapped 17 { grain [] with pc := 0x20000 }
    s.look 17 (s.ctx 17).pc .x = .hit 0x20000 (page 1 0x20000 0x20000) := rfl
/-- EveryStepKeepsMemoryCanonical: a machine with a byte written, that takes a step. -/
theorem witness_EveryStepKeepsMemoryCanonical : ∃ s t : State, s.MemoryCanonical ∧ s.mem ≠ [] ∧ step s = .next t :=
  ⟨{ quiet with mem := Memory.write [] 5 [7] }, { quiet with mem := Memory.write [] 5 [7], slotted := true }, by unfold State.MemoryCanonical; decide, by decide, rfl⟩

/-! Further states and operands for the statements' clauses. -/

/-- TrapsTaken: an awake steward, and a grain of the core that trapped earlier in this cycle, with a lower and with a higher number. -/
theorem witness_TrapsTaken_sameCycle :
    let s (n : Nat) : State := { running 17 [] with cores := [(1, { trapIn := (100, [n]), trapQ := [7] ++ [n] })] }
    stewardAwake (running 17 []) (coreOf 17) ∧ ((running 17 []).core (coreOf 17)).trapIn.1 ≠ (running 17 []).cycle
      ∧ ((s 5).core (coreOf 17)).trapIn = ((s 5).cycle, [5]) ∧ ((s 5).core (coreOf 17)).trapQ = [7] ++ [5] ∧ 5 ∉ [7] ∧ 5 ≠ 17 % 16 ∧ ¬ (5 < 17 % 16)
      ∧ ((s 0).core (coreOf 17)).trapIn = ((s 0).cycle, [0]) ∧ 0 ≠ 17 % 16 ∧ 0 < 17 % 16 ∧ stewardAwake (s 0) (coreOf 17) := by unfold stewardAwake; decide
/-- ReturnsAndEnds and AccessesHeldOrTrapped: a steward that neither waits nor is parked. -/
theorem witness_ReturnsAndEnds_steward : stewardAwake (running 30 []) (coreOf 30) ∧ (running 17 []).stage = 0 ∧ twinKeepsUp (running 17 []) .r :=
  ⟨by unfold stewardAwake; decide, rfl, fun _ => rfl⟩
/-- RepliesAndRefusals: a walk that has brought its leaf, and an acknowledgement that ends a store of two pieces. -/
theorem witness_RepliesAndRefusals_leaf :
    let e := page 1 0x20000 0x20000
    let s : State := holding 17 { waiting with why := .walk false, leaf := some e }
    let p : Pend := { id := 9, pieces := piece 0x8000000008 8 ++ piece 0x8000000080 8 }
    reachesWaiting s 17 { adv := false } ∧ (s.ctx 17).why = .walk false ∧ (s.ctx 17).leaf = some e ∧ ({ all := true : Ack }).all = true ∧ ¬ p.pieces.length ≤ 1 := by
  unfold reachesWaiting; decide
/-- WalksFetchesAndEntries: a walk in flight that a request joins, one whose requesters are 64, and a fetch at a bank. -/
theorem witness_WalksFetchesAndEntries_joins :
    let y : WalkReq := { slot := 1, page := 5, who := [33] }
    let s (y : WalkReq) : State := { tables with slices := [(3, { walks := [y] })] }
    let r : Req := { who := 17, op := .load 6, pieces := piece 0x8000000000 8, via := .fetch }
    ((s y).slice 3).walks = [y] ∧ y.slot = 1 ∧ y.page = 5 ∧ y.void = false ∧ y.who.length < 64 ∧ 64 ≤ ({ y with who := List.replicate 64 33 } : WalkReq).who.length
      ∧ ({ y with void := true } : WalkReq).void = true ∧ r.via = .fetch ∧ r.op = .load 6 ∧ r.posted = false ∧ r.again = false ∧ r.early = false ∧ quiet.region 0x8000000000 = .scratch 0 0
      ∧ hbmBytes ≤ 0x8000000000 ∧ ((quiet.cluster 0).bankUse.1 = quiet.cycle → bankOf 0 ∉ (quiet.cluster 0).bankUse.2) := by decide
/-- SliceRequests and SliceMessages: an L1 being recalled with another core still asked; a home's atomic unit in use and free. -/
theorem witness_SliceRequests_recalled :
    let s : State := { lineIs { s0 := { st := .ar, tag := 3, asked := [1, 2] } } with cores := [(1, { l1 := [(0, { st := .ar, tag := 3 })] })] }
    let b : State := { quiet with slices := [(homeOf 0, { atomAt := 101 })] }
    s.l1 1 0 = some { st := .ar, tag := 3 } ∧ (s.core 1).gadds = [] ∧ (s.sl 0 (1 / 2048)).asked = [1, 2] ∧ (1 : Nat) ≠ 2 ∧ ({ present := 1 : Partial }).present ≠ 0
      ∧ b.cycle < (b.slice (homeOf 0)).atomAt ∧ (quiet.slice (homeOf 0)).atomAt ≤ quiet.cycle ∧ ((quiet.held2 (servingOf 0 0) (sliceSet 0)).filter (· != 0)).length < sliceWays := by decide
/-- DirectoryMessages: the second answer of a transaction, one that a merge waits for, and a request that waits behind another. -/
theorem witness_DirectoryMessages_queue :
    let u : Txn := { req := .rds (.slice 1) 0, fack := true, looked := true }
    let s := lineIs { st := .m, txn := some u, s0 := { st := .o } }
    u.absorbedPut = [] ∧ (s.line 0).queue = [] ∧ u.fack = true ∧ u.plists = [] ∧ ({ req := .rdx, looked := true : Txn }).fack = false ∧ ({ req := .rdx, cmp := true : Txn }).absorbed = false
      ∧ (s.line 0).st = .m ∧ s.portPa 2 8 = 8 ∧ (s.slice (homeOf 0)).resv = [] ∧ (s.slice (homeOf 0)).parked = [] := by decide
/-- SpawnsAndForks: a target on another chip, and a fork's end that its context awaits and not. -/
theorem witness_SpawnsAndForks_far :
    let s : State := { running 17 [(1, 0x1008), (2, 0x2000)] with dev := { quiet.dev with nchm1 := 1, routes := [(1, 2)] } }
    s.me.pp = false ∧ s.twin s.cur = none ∧ (s.rd 2).toNat % 4 = 0 ∧ (s.rd 1).toNat / 2 ^ 24 = 0 ∧ ((s.rd 1).extractLsb' 0 24).toNat / 4096 ≠ s.dev.chip.toNat
      ∧ s.routeHold s.cur (((s.rd 1).extractLsb' 0 24).toNat / 4096) = false ∧ (holding 17 waiting).twin 17 = none ∧ ((holding 17 waiting).ctx 17).awaits 9 = true
      ∧ ((holding 17 (grain [])).ctx 17).awaits 9 = false ∧ ({ id := 9 : SpawnReq }).again = false := by decide
/-- SpawnsAndForks: a fork at its turn, its place one of its cluster's scratchpad. -/
theorem witness_SpawnsAndForks_turn :
    let q : Req := { id := 5, who := 17, pieces := piece 0x8000000008 8 }
    let t : State := { runs 17 { grain [(6, 0x10008), (2, 0x2000)] with st := .waiting, why := .reply 5, load := some q } with stage := 1 }
    t.me.why = .reply 5 ∧ t.me.st ≠ .stopped ∧ t.me.load = some q ∧ t.region (q.pieces.headD {}).pa = .scratch 0 8 ∧ t.me.gang = none
      ∧ (∀ c ∈ t.recruits t.cur (t.slotOf t.cur) 3, t.twin c = none)
      ∧ (mapped 17 (grain [(6, 0x10008)])).mustHold 17 { op := .store, va := 0x10008, posted := true } (splitLines 0x8000000008 8) = false := by decide
/-- Migration: a forwarding entry accepted that has no more to wait for, and a context with neither a steward's nor a message's number. -/
theorem witness_Migration_entries :
    let f : Fwd := { id := 9, dst := 33, accepted := true }
    let s : State := { quiet with cores := [(1, { fwds := [f] })] }
    (s.core (coreOf 17)).fwds = [f] ∧ f.req = none ∧ f.accepted = true ∧ 17 % 16 ≠ 0 ∧ 17 % 16 ≠ 15 ∧ ({ req := some {} : Fwd }).req ≠ none := by decide
/-- ContextControl: a context with nothing on the way, which CSTOP stops at once. -/
theorem witness_ContextControl_stop :
    let b := stewardOver 1 (grain []) 0x2000
    (b.ctx 17).st ≠ .migrating ∧ (b.ctx 17).pend = [] ∧ (b.ctx 17).csrTo = none ∧ (b.ctx 17).msg = none ∧ (b.ctx 17).why = .none ∧ (b.ctx 17).gang = none ∧ b.twin 17 = none ∧ b.oddTwin 17 = false := by decide
/-- BoltEvents: a Loom that neither halts nor is asked for a rollback point. -/
theorem witness_BoltEvents_post : (quiet.lk 0).halting = false ∧ (quiet.loom 0).ck.ask = 0 := by decide
/-- CacheInstructions: a range whose first page is in the core's TLB, in the cluster's, in none, and nowhere mapped; TLBINV's last look. -/
theorem witness_CacheInstructions_ranges :
    let e := page 1 0x20000 0x20000
    let s := mapped 17 { grain [(1, 0x20040), (2, 0x100), (5, 0x50000)] with priv := true }
    let n : State := { s with cores := [], clusters := [(0, { tlb := [e] })] }
    let m : State := { tables with ctxs := [(17, grain [(1, 0x20040)])], cur := 17 }
    s.me.range = none ∧ s.found s.cur 0x20000 = .core e ∧ s.checkLeaf e (s.privOf s.cur) .r 0x20000 = 0 ∧ s.lentAway 0x20000 = false ∧ n.found n.cur 0x20000 = .near e ∧ m.found m.cur 0x20000 = .miss
      ∧ s.found s.cur 0x50000 = .failed 1 ∧ (s.rd 2).toNat ≠ 0 ∧ (s.rd 1).toNat % 65536 + (s.rd 2).toNat ≤ 65536 ∧ (Tab.get ({} : RangeOp) s.ranges 9).waits = [] :=
  ⟨rfl, rfl, by decide, by decide, rfl, rfl, rfl, by decide, by decide, rfl⟩
/-- UnitEvents: a Loom that neither waits for a link nor is frozen. -/
theorem witness_UnitEvents_loom : (quiet.loom 0).st ≠ .link ∧ (quiet.loom 0).st ≠ .frozen := by decide
/-- LaunchLendAndRecoveryInstructions: a frame lent to a peer whose chip has a port, and a Loom with an armed point. -/
theorem witness_LaunchLendAndRecoveryInstructions_peer :
    let s : State := { runs 17 { grain [(1, 0x30000), (2, 5)] with priv := true } with
      dev := { quiet.dev with lends := [(3, { st := 2, kind := true, peer := 5 })], nchm1 := 1, routes := [(1, 2)], peers := [(5, (true, 1))] } }
    (s.lendOf 3).st = 2 ∧ (s.lendOf 3).kind = true ∧ s.links = [] ∧ s.portFor (4096 * s.dev.chip.toNat) (4096 * s.peerChip (s.lendOf 3).peer.toNat) 0 = some 1
      ∧ (s.rd 1).toNat / 65536 = 3 ∧ s.privOf s.cur = true := by decide
/-- RemoteEvents: context 15 with no load out, no message from a link waiting, and links empty. -/
theorem witness_RemoteEvents_links :
    ((receives .timed none []).ctx (16 * 8 + 15)).load = none ∧ quiet.links = [] ∧ (∀ x ∈ quiet.links, x.l.no ≠ 9) ∧ stewardAwake quiet 8 := by unfold stewardAwake; decide
/-- FrecCommands: a context with nothing on the way, at a unit that can write, and a code of a record. -/
theorem witness_FrecCommands_save :
    let s := mapped 0 (grain [(1, 0x30), (2, 0x20000)])
    (s.ctx 3).csrTo = none ∧ s.unitCan 0x8000000000 512 = true ∧ recordedState 2 = .issuing ∧ recordedState 4 = .parked := by decide
/-- LoomVectorSlots: a Loom that has not faulted its east push. -/
theorem witness_LoomVectorSlots_east : ((weaving {}).loom 0).k.noEast = false ∧ (0 : Nat) ≠ 1 := by decide
/-- LoomMatrixAndTransferSlots: a pop of a west link that is not there. -/
theorem witness_LoomMatrixAndTransferSlots_link : (weaving {}).linkOn 0 false = false ∧ ((weaving {}).loom 0).k.replay = [] ∧ ((weaving {}).loom 0).k.freezeIn = none := by decide
/-- LoomEvents: a wavefront of BF16 in its second beat. -/
theorem witness_LoomEvents_bf16 :
    let s := weaving { waves := [{ fmt := 0x100, t0 := 0 }], time := 2 }
    (s.loom 0).k.waves = [{ fmt := 0x100, t0 := 0 }] ∧ plFmt 0x100 = 1 ∧ (0 : Nat) < (s.loom 0).k.time - 1 ∧ (s.loom 0).k.time - 1 < 0 + 128 := by decide
/-- GangEvents: messages from another chip whose checks pass, whose domain differs, and whose incarnation is stale; owners and not. -/
theorem witness_GangEvents_links :
    let l : Link := { chip := 1 }
    let s : State := { quiet with dev := { quiet.dev with nchm1 := 1, routes := [(1, 2)] } }
    goodLink s l ∧ ({ l with dom := 5 } : Link).dom ≠ s.dev.dom ∧ Tab.get 0 s.dev.incs l.chip ≠ ({ l with inc := 3 } : Link).inc ∧ ({ l with want := 3 } : Link).want ≠ s.dev.inc ∧ s.links = []
      ∧ s.portFor 0 4096 0 = some 1 ∧ (∀ c ∈ ({} : Launch).chips, s.chipGone c = true) ∧ s.chipGone 1 = false
      ∧ (Instr.rickGo, Ev.rickGo 4 5 (some l)) ∈ linkEvents l 4 0 0 0 0 0 5 {} := by unfold goodLink; decide
/-- RickStart: the start that is further away than the guard, and a token that is an earlier one's. -/
theorem witness_RickStart_later :
    let s : State := { quiet with dev := { quiet.dev with gangs := [(4, { rick := true, start := 100000000, token := 7 })] } }
    s.dev.guard.toNat < (s.gang 4).start.toNat - s.dtimeNow.toNat ∧ (6 : Nat) ≠ (s.gang 4).token ∧ onChip s 4 := by unfold onChip; decide
/-- Preemption: a member with no twin, and Looms with no engine at work. -/
theorem witness_Preemption_both : quiet.bothOf 17 = [17] ∧ (quiet.loom 0).eng = [] ∧ (∀ c ∈ quiet.bothOf 17, c = 17) := by decide
/-- RecoveryEvents: a Loom frozen by a data error, with a point and without, and twins whose requests agree. -/
theorem witness_RecoveryEvents_frozen :
    let s (k : Ckpt) : State := { quiet with looms := [(0, { st := .frozen, ck := k })] }
    let a : TwinReq := { id := 5, sig := [1], ev := .powerOn }
    ((s {}).loom 0).st = .frozen ∧ ((s {}).loom 0).ck.armed = false ∧ ((s { armed := true, point := some {} }).loom 0).ck.point = some {} ∧ stewardAwake quiet 2
      ∧ (quiet.core 2).trapIn.1 ≠ quiet.cycle ∧ a.sig = ({ a with id := 6 } : TwinReq).sig := by unfold stewardAwake; decide
/-- HostEvents: a port that takes an access, banks free and in use, and a place that a bolt refuses. -/
theorem witness_HostEvents_ports :
    let u : State := { answering with clusters := [(0, { bankUse := (100, [bankOf 0x40]) })] }
    let f : State := { answering with clusters := [(0, { bpEn := true, bpN := 1 })] }
    portTakes answering 0 ∧ answering.bankFree 0x8000000040 = true ∧ u.bankFree 0x8000000040 = false ∧ f.refusedByte 0x8000000040 2 ≠ none ∧ f.bankFree 0x8000000040 = true
      ∧ answering.portPa 2 0x8000000040 = 0x8000000040 ∧ (0x600028 ∈ ([0x600028, 0x600040, 0x600048] : List Nat)) := by unfold portTakes; decide
/-- StartUpCommandsAndHealth: a chip that forwards to one that is not gone. -/
theorem witness_StartUpCommandsAndHealth_forward :
    let f : State := { answering with dev := { quiet.dev with nchm1 := 2, routes := [(1, 2)] } }
    1 ∈ f.forwardTo 0 ∧ f.chipGone 1 = false ∧ f.portFor 0 4096 0 = some 1 ∧ (0x11 : W64).getLsbD 4 = true := by decide
/-- AStepRunsTheDecodedInstruction: a context in its turn whose table entry is found. -/
theorem witness_AStepRunsTheDecodedInstruction_slots :
    let s : State := { running 17 [] with cycle := 1 }
    Tab.find s.ctxs 17 = some (grain []) ∧ s.twin 17 = none ∧ 17 % 16 = s.turn (dieOf 17) ∧ (s.ctx 17).readyAt ≤ s.cycle ∧ s.thatch.hold = false := by decide


/-! States that meet the premises of what every form completes with. -/

/-- ContextControl: a spawn to a core of the chip, a request at a core with a free context, a fork at its turn, and its reply. -/
theorem witness_ContextControl_spawns :
    let s := running 17 [(1, 8), (2, 0x2000)]
    let r : SpawnReq := { id := 9, from_ := 17, rd := 4, core := 8, pc := 0x2000, slot := 1 }
    let o : State := { quiet with cores := [(8, { slots := 2 })] }
    let q : Req := { id := 5, who := 17, pieces := piece 0x8000000008 8 }
    let t : State := { runs 17 { grain [(6, 0x10008), (2, 0x2000)] with st := .waiting, why := .reply 5, load := some q } with stage := 1 }
    (s.me.pp = false ∧ s.twin s.cur = none ∧ (s.rd 2).toNat % 4 = 0 ∧ (s.rd 1).toNat / 2 ^ 24 = 0 ∧ ((s.rd 1).extractLsb' 0 24).toNat / 4096 = s.dev.chip.toNat ∧ s.routeHold s.cur 0 = false)
      ∧ (r.core / 4096 = o.dev.chip.toNat ∧ r.from_ / 65536 = o.dev.chip.toNat ∧ r.again = false ∧ o.clusterValid (8 / 8) = true ∧ freeFor o r.slot (16 * 8 + 1) ∧ (∀ m, m < 1 → ¬ freeFor o r.slot (16 * 8 + m))
        ∧ o.twin (16 * 8 + 1) = none)
      ∧ (t.stage = 1 ∧ t.twin t.cur = none ∧ t.me.why = .reply 5 ∧ t.me.load = some q) ∧ ((holding 17 waiting).ctx 17).awaits 9 = true := by unfold freeFor; decide
/-- CachedLoadsAndPrefetch: a walker with no walk and a slot with tables; walks that an invalid entry and a leaf of 64 KiB end; a line that arrives; an event of a steward. -/
theorem witness_CachedLoadsAndPrefetch_walks :
    let q : WalkReq := { slot := 1, page := 5, who := [17], no := 7, level := 3 }
    let s : State := { tables with slices := [(3, { walks := [q] })] }
    let k : State := { quiet with cores := [(1, { eie := true, wkcnt := 1 })] }
    ((tables.slice 3).walks = [] ∧ (tables.dev.asroot.getD 1 (false, 0)).1 = true ∧ 4096 * (tables.dev.asroot.getD 1 (false, 0)).2.toNat < tables.hbmLen)
      ∧ ((s.slice 3).walks.find? (fun x => x.no == 7) = some q ∧ q.void = false ∧ (s.slice 3).walkQ = [] ∧ q.who = [17] ∧ q.ent = none ∧ (0 : W64).getLsbD 0 = false)
      ∧ (q.level = 3 ∧ q.dirty = false ∧ (0x100BF : W64).getLsbD 0 = true ∧ (0x100BF : W64).getLsbD 1 = true ∧ (0x100BF : W64).toNat < 2 ^ 52 ∧ (0x100BF : W64).toNat / 256 * 256 % 2 ^ 16 = 0)
      ∧ ((quiet.core (coreOf 17)).frozen quiet.cycle = false ∧ (quiet.core (coreOf 17)).icache.length < 256)
      ∧ ((k.core 1).eie = true ∧ (k.core 1).inh = false ∧ k.pendingEvent 1 = true) := by decide
/-- FencesAndWaits: grains in no gang and in one, an only member's arrival, and episodes that end, rise and run out of time. -/
theorem witness_FencesAndWaits_barriers :
    let x := grain [(6, 0x10080)]
    let m : State := { holding 17 { x with gang := some 3 } with cur := 17, dev := { quiet.dev with gangs := [(3, { members := [17], cls := [0] })] } }
    let a : Arrival := { who := 17, rd := 4, token := 9 }
    let w (wire closed : Bool) (tap : Nat) : State :=
      { m with
        ctxs := [(17, { x with gang := some 3, st := .dispatchWait, why := .barrier })]
        clusters := [(0, if wire then { barw := [(3, [{ arrived := [a], closed := closed, tapAt := tap }])] } else { barc := [(3, [{ arrived := [a], closed := closed, tapAt := tap }])] })] }
    ((runs 17 x).me.pp = false ∧ ((runs 17 x).rd 6).toNat % 128 = 0 ∧ (runs 17 x).me.gang = none ∧ m.me.gang ≠ none ∧ m.me.pend = [] ∧ m.me.why = .none)
      ∧ ((m.ctx 17).gang = some 3 ∧ (m.core (coreOf 17)).wdWait = 0 ∧ (m.ctx 17).btmo = 0 ∧ m.episodes false 0 3 = [] ∧ m.episodes true 0 3 = [] ∧ ∀ c ∈ (m.gang 3).members, clusterOf c = clusterOf 17 → c = 17)
      ∧ (a.ended = false ∧ a.rcd = 0 ∧ ((w false true 0).ctx 17).why = .barrier ∧ (w false true 0).heldBack 17 = false ∧ (w false true 0).episodes false 0 3 = [{ arrived := [a], closed := true }])
      ∧ ((w true true 0).episodes true 0 3 = [{ arrived := [a], closed := true }] ∧ ((w true true 0).gang 3).cls = [0] ∧ 0 / 256 < 2 ∧ (w true false 100).episodes true 0 3 = [{ arrived := [a], tapAt := 100 }]
        ∧ (w true false 100).cycle = 100)
      ∧ ((w false false 0).episodes false 0 3 = [{ arrived := [a] }] ∧ (w false false 0).episodes true 0 3 = [] ∧ ((w false false 0).ctx 17).gang = some 3 ∧ clusterOf 17 = 0) := by decide
/-- GangEvents: a rick whose last READY comes, that goes, is held, is late and is due; a gang reached, stopped, saved and restored. -/
theorem witness_GangEvents_ricks :
    let d : Desc := { kind := 2, d0 := true, c0 := 0, nchm1 := 2, lnum := 9 }
    let s (x : Gang) : State := { quiet with dev := { quiet.dev with sync := true, gangs := [(4, { x with cls := [0] })] } }
    let r := s { desc := d, admitted := true, rick := true, ready := [0, 2] }
    let p := s { pre := 1 }
    let h := s { pre := 1, stoppedOn := [0] }
    let y : Gang := { pre := 2, restoring := true, savedCl := [0], cls := [0] }
    (onChip r 4 ∧ (r.gang 4).rick = true ∧ 1 ≠ r.dev.chip.toNat ∧ (r.gang 4).released = false ∧ (r.gang 4).desc.c0 = r.dev.chip.toNat ∧ (∀ c, c < 3 → c = 1 ∨ c ∈ (r.gang 4).ready) ∧ r.blockers 4 = [])
      ∧ ((r.gang 4).start.toNat - r.dtimeNow.toNat ≤ r.dev.guard.toNat ∧ (r.gang 4).admitted = true ∧ (r.gang 4).pre = 0 ∧ (r.gang 4).start.toNat ≤ r.dtimeNow.toNat ∧ (r.gang 4).desc.wv = false)
      ∧ (onChip p 4 ∧ 0 ∈ (p.gang 4).cls ∧ 0 ∉ (p.gang 4).reported ∧ 0 ∉ (p.gang 4).reached ∧ (p.gang 4).pre ≠ 0 ∧ 0 / 256 ∉ (p.gang 4).stoppedOn ∧ (p.gang 4).cls = [0])
      ∧ (0 / 256 ∈ (h.gang 4).stoppedOn ∧ 0 ∉ (h.gang 4).savedCl ∧ h.saveReady 4 0 = true)
      ∧ (((s y).gang 4).restoring = true ∧ ((s y).gang 4).pre ≠ 0 ∧ (∀ cl ∈ ((s y).gang 4).cls, cl ∈ ((s y).gang 4).savedCl) ∧ (s y).restoreReady ((s y).gang 4) = true) := by unfold onChip; decide
/-- StartUpCommandsAndHealth: a slot with one gang of one cluster, to be pre-empted and to be restored. -/
theorem witness_StartUpCommandsAndHealth_slots :
    let s (x : Gang) : State := { answering with dev := { quiet.dev with gangs := [(4, x)] } }
    let x : Gang := { slot := 1, cls := [0] }
    let y : Gang := { slot := 1, cls := [0], savedCl := [0], pre := 2 }
    let u : State := { s y with dev := { (s y).dev with slctl := (s y).dev.slctl.set 1 2 } }
    ((s x).answers = true ∧ (s x).dev.slctl.length = 16 ∧ (s x).dev.gangs = [(4, x)] ∧ x.slot = 1 ∧ (s x).slState 1 = 0 ∧ x.pre = 0 ∧ x.want = [] ∧ x.cls = [0] ∧ x.rick = false)
      ∧ (u.answers = true ∧ u.dev.slctl.length = 16 ∧ u.dev.gangs = [(4, y)] ∧ y.slot = 1 ∧ u.slState 1 = 2 ∧ y.pre = 2 ∧ ∀ cl ∈ y.cls, cl ∈ y.savedCl) := by decide

end Sys2Proof.Tests
end

section
/-!
PROOF. The grain machine: what a register write leaves (O1), and where branches, jumps and returns go (O4).
A control transfer or a register write replaces the registers, the dead marks and PC of the running context alone, so one
frame, State.setMe_regs_frame, serves both.
-/

namespace Sys2Proof.Machine

open Sys2Proof.Stated

/-! The running context replaced: every other context and unit, and memory, is as before. -/

theorem State.ctx_setMe_of_ne (s : State) (x : Ctx) (c : CtxId) (h : c ≠ s.cur) : (s.setMe x).ctx c = s.ctx c :=
  s.ctx_setCtx_ne s.cur c x h

theorem State.setMe_without_ctxs (s : State) (x : Ctx) : { s.setMe x with ctxs := [] } = { s with ctxs := [] } := rfl

/-- What is read at device scope is in no context. -/
theorem State.cohRead_setMe (s : State) (x : Ctx) (a n : Nat) : (s.setMe x).cohRead a n = s.cohRead a n := rfl

/-- Registers, dead marks and PC are no part of GSR (R22). -/
theorem State.gsr_setMe_regs (s : State) (g : Vector W64 16) (de : BitVec 16) (pc : W64) :
    (s.setMe { s.me with g := g, dead := de, pc := pc }).gsr s.cur = s.gsr s.cur := by
  simp only [State.gsr, State.privOf, State.ctx_setMe_cur]
  rfl

/-- New registers, dead marks and PC of the running context leave its GSR, the other contexts, every unit and memory. -/
theorem State.setMe_regs_frame (s : State) (g : Vector W64 16) (de : BitVec 16) (pc : W64) :
    let t := s.setMe { s.me with g := g, dead := de, pc := pc }
    t.gsr s.cur = s.gsr s.cur ∧ (∀ c, c ≠ s.cur → t.ctx c = s.ctx c)
      ∧ { t with ctxs := [] } = { s with ctxs := [] } ∧ (∀ a, t.cohRead a 1 = s.cohRead a 1) :=
  ⟨s.gsr_setMe_regs g de pc, s.ctx_setMe_of_ne _, s.setMe_without_ctxs _, fun a => s.cohRead_setMe _ a 1⟩

/-- A register write that moves past the instruction replaces registers, dead marks and PC alone. -/
theorem Ctx.wr_adv_frame (x : Ctx) (d : BitVec 4) (v : W64) :
    ∃ g de, (x.wr d v).adv = { x with g := g, dead := de, pc := x.pc + 4 } := by
  obtain ⟨g, de, h⟩ := x.wr_frame d v
  exact ⟨g, de, by rw [h]; rfl⟩

/-! Dead marks (R27, R28). -/

/-- A write takes the dead mark of the register written and no other. g0 is left out, for a write to it is discarded. -/
theorem Ctx.dead_wr (x : Ctx) (d r : BitVec 4) (v : W64) (h0 : r ≠ 0) :
    (x.wr d v).dead.getLsbD r.toNat = (decide (r ≠ d) && x.dead.getLsbD r.toNat) := by
  by_cases h : r = d
  · subst h
    simp [Ctx.dead_wr_same x r v h0]
  · simp [Ctx.dead_wr_other x d r v h, h]

/-- A kill marks the registers of TMASK besides those that are dead. -/
theorem Ctx.dead_kill (x : Ctx) (r : BitVec 4) :
    x.kill.dead.getLsbD r.toNat = (x.dead.getLsbD r.toNat || x.tmask.getLsbD r.toNat) :=
  BitVec.getLsbD_or

/-- A register that a kill leaves live reads as before it. -/
theorem Ctx.rd_kill_of_live (x : Ctx) (r : BitVec 4) (h : x.kill.dead.getLsbD r.toNat = false) : x.kill.rd r = x.rd r := by
  have hx : x.dead.getLsbD r.toNat = false := (Bool.or_eq_false_iff.mp (x.dead_kill r ▸ h)).1
  simp only [Ctx.rd, h, hx]
  rfl

/-! Register writes. -/

/-- A register write that moves past the instruction changes that register, its dead mark and PC alone. -/
theorem State.put_onlyRegister (s : State) (d : BitVec 4) (v : W64) : onlyRegister s (s.put d v) d v := by
  obtain ⟨g, de, hw⟩ := s.me.wr_adv_frame d v
  have hput : s.put d v = s.setMe { s.me with g := g, dead := de, pc := s.me.pc + 4 } := by rw [State.put, hw]
  obtain ⟨hgsr, hctx, hrest, hmem⟩ := s.setMe_regs_frame g de (s.me.pc + 4)
  have hrd (r : BitVec 4) : (s.put d v).rd r = (s.me.wr d v).rd r := by rw [State.rd, State.me_put]; rfl
  have hdead : (s.put d v).me.dead = (s.me.wr d v).dead := by rw [State.me_put]; rfl
  refine ⟨?value, ?others, ?pc, ?marks, ?frame⟩
  case value => rw [hrd, Ctx.rd_wr_same]
  case others => exact fun r hr => by rw [hrd, Ctx.rd_wr_other _ _ _ _ hr, State.rd]
  case pc => rw [hput, State.me_setMe]
  case marks => exact fun r hr => by rw [hdead, Ctx.dead_wr_other _ _ _ _ hr]
  case frame =>
    rw [hput, State.me_setMe]
    exact ⟨hgsr, rfl, rfl, rfl, rfl, hctx, hrest, hmem⟩

/-- Settles O1: g0 reads zero by the register read's own first case, and a register write has the frame of
State.setMe_regs_frame. -/
theorem registerWriteFrame : Obligations.RegisterWriteFrame :=
  ⟨fun s => s.me.rd_zero, State.put_onlyRegister⟩

/-! Branches (R111). -/

/-- The conditions of the six branches, as the rule words them. -/
theorem branchTaken_iff (a b : W64) :
    (branchTaken 0 a b = true ↔ a = b) ∧ (branchTaken 1 a b = true ↔ a ≠ b)
      ∧ (branchTaken 2 a b = true ↔ a.toInt < b.toInt) ∧ (branchTaken 3 a b = true ↔ b.toInt ≤ a.toInt)
      ∧ (branchTaken 4 a b = true ↔ a.toNat < b.toNat) ∧ (branchTaken 5 a b = true ↔ b.toNat ≤ a.toNat) := by
  simp [branchTaken, BitVec.slt, BitVec.ult]

/-- An instruction with a row in branchResult is State.branch under the condition of that row. -/
theorem exec_of_branchResult (i : Instr) (s : State) (off : BitVec 15) (taken : Prop) (h : branchResult s i = some (off, taken)) :
    ∃ cond a b, exec i s = .next (s.branch i cond a b off) ∧ (branchTaken cond (s.rd a) (s.rd b) = true ↔ taken) := by
  unfold branchResult at h
  split at h
  case h_7 => cases h
  all_goals
    rename_i a b o
    cases h
    obtain ⟨heq, hne, hlt, hge, hltu, hgeu⟩ := branchTaken_iff (s.rd a) (s.rd b)
  · exact ⟨0, a, b, rfl, heq⟩
  · exact ⟨1, a, b, rfl, hne⟩
  · exact ⟨2, a, b, rfl, hlt⟩
  · exact ⟨3, a, b, rfl, hge⟩
  · exact ⟨4, a, b, rfl, hltu⟩
  · exact ⟨5, a, b, rfl, hgeu⟩

/-- A branch with GSR.PP clear goes to its target when its condition holds and past itself when not. -/
theorem State.branch_of_clear (s : State) (i : Instr) (cond : Nat) (a b : BitVec 4) (off : BitVec 15) (taken : Prop)
    (hp : s.me.pp = false) (hc : branchTaken cond (s.rd a) (s.rd b) = true ↔ taken) :
    (taken → s.branch i cond a b off = s.setMe { s.me with pc := s.me.pc + 4 * off.signExtend 64 }) ∧
    (¬ taken → s.branch i cond a b off = s.setMe { s.me with pc := s.me.pc + 4 }) := by
  rw [State.branch, State.plain_of_clear s i _ hp]
  exact ⟨fun h => if_pos (hc.mpr h), fun h => if_neg (mt hc.mp h)⟩

theorem branches : Branches := by
  intro i s off taken hp hi
  obtain ⟨cond, a, b, hexec, hcond⟩ := exec_of_branchResult i s off taken hi
  rw [hexec, Host.Outcome.next.injEq, Host.Outcome.next.injEq]
  exact s.branch_of_clear i cond a b off taken hp hcond

/-! Jumps, calls and returns with GSR.PP clear (R112 to R114). -/

theorem exec_jal_of_clear (s : State) (d : BitVec 4) (off : BitVec 22) (hp : s.me.pp = false) :
    exec (.jal d off) s
      = .next (s.setMe { s.me.kill.wr d (s.me.pc + 4) with pc := s.me.pc + 4 * off.signExtend 64 }) :=
  congrArg Host.Outcome.next (s.plain_of_clear (.jal d off) _ hp)

theorem exec_jalr_of_clear (s : State) (d a : BitVec 4) (hp : s.me.pp = false) :
    exec (.jalr d a) s = .next (if s.rd a &&& 3 ≠ 0 then s.trapMe causeMisfetch 0 (s.rd a)
      else s.setMe { s.me.wr d (s.me.pc + 4) with pc := s.rd a }) :=
  congrArg Host.Outcome.next (s.plain_of_clear (.jalr d a) _ hp)

theorem exec_ret_of_clear (s : State) (a : BitVec 4) (hp : s.me.pp = false) :
    exec (.ret a) s = .next (if s.rd a &&& 3 ≠ 0 then s.trapMe causeMisfetch 0 (s.rd a)
      else s.setMe { s.me.kill with pc := s.rd a }) :=
  congrArg Host.Outcome.next (s.plain_of_clear (.ret a) _ hp)

/-- The model's test of the two low bits is R21's. -/
theorem and_three_ne_zero_iff (a : W64) : a &&& 3 ≠ 0 ↔ ¬ wordAddress a := by
  have h : (a &&& 3).toNat = a.toNat % 4 := by
    rw [BitVec.toNat_and]
    exact Nat.and_two_pow_sub_one_eq_mod a.toNat 2
  rw [wordAddress, ← h]
  exact not_congr BitVec.toNat_inj.symm

/-- The registers die before the link is written, so a link register named in TMASK is live (R28). -/
theorem jumpAndLink : JumpAndLink := by
  intro s d off hp
  obtain ⟨g, de, hw⟩ := s.me.kill.wr_frame d (s.me.pc + 4)
  have hme : { s.me.kill.wr d (s.me.pc + 4) with pc := s.me.pc + 4 * off.signExtend 64 }
      = { s.me with pc := s.me.pc + 4 * off.signExtend 64, g := g, dead := de } := by
    rw [hw]
    rfl
  obtain ⟨hgsr, hctx, hrest, hmem⟩ := s.setMe_regs_frame g de (s.me.pc + 4 * off.signExtend 64)
  refine ⟨_, exec_jal_of_clear s d off hp, ?jumps, ?link, ?marks, ?others, ?frame⟩
  case jumps => exact ⟨g, de, by rw [State.me_setMe, hme]⟩
  case link =>
    rw [State.me_setMe]
    exact s.me.kill.rd_wr_same d (s.me.pc + 4)
  case marks =>
    intro r hr
    rw [State.me_setMe, ← Ctx.dead_kill]
    exact s.me.kill.dead_wr d r (s.me.pc + 4) hr
  case others =>
    intro r hr hlive
    rw [State.me_setMe] at hlive ⊢
    have hkill : s.me.kill.dead.getLsbD r.toNat = false := (Ctx.dead_wr_other _ d r _ hr).symm.trans hlive
    exact (Ctx.rd_wr_other _ d r _ hr).trans (s.me.rd_kill_of_live r hkill)
  case frame =>
    rw [hme, State.me_setMe]
    exact ⟨rfl, hgsr, hctx, hrest, hmem⟩

theorem jumpsThroughRegisters : JumpsThroughRegisters := by
  intro s d a hp hword
  have htest : ¬ (s.rd a &&& 3 ≠ 0) := fun h => (and_three_ne_zero_iff _).mp h hword
  rw [exec_jalr_of_clear s d a hp, exec_ret_of_clear s a hp, if_neg htest, if_neg htest]
  exact ⟨rfl, rfl⟩

theorem misalignedFetch : MisalignedFetch := by
  intro s d a hp hword
  have htest : s.rd a &&& 3 ≠ 0 := (and_three_ne_zero_iff _).mpr hword
  rw [exec_jalr_of_clear s d a hp, exec_ret_of_clear s a hp, if_pos htest, if_pos htest]
  exact ⟨rfl, rfl⟩

/-- Settles O4: the branches through the conditions of branchTaken_iff, the jumps through the meanings that they have with GSR.PP
clear. -/
theorem controlTransfers : Obligations.ControlTransfers :=
  ⟨branches, jumpAndLink, jumpsThroughRegisters, misalignedFetch⟩

end Sys2Proof.Machine
end

section
/-!
PROOF. The grain machine: register, shift, multiply and divide instructions (O2).
Each row of the spec's tables is State.alu2 under one function of the model; what that function computes is said once, in the
rule's own terms, and a row is then a use of exec_eq_put_of_alu2.
-/

namespace Sys2Proof.Machine

open Sys2Proof.Stated

/-! Low halves, sign extension and shift counts (R99, R100). -/

theorem lo32_eq_extractLsb' (a : W64) : lo32 a = a.extractLsb' 0 32 := BitVec.setWidth_eq_extractLsb' (by decide)

theorem sext32_eq_signExtend (a : W64) : sext32 a = (a.extractLsb' 0 32).signExtend 64 :=
  congrArg (BitVec.signExtend 64) (lo32_eq_extractLsb' a)

/-- The count of a 64-bit form is b[5:0]. -/
theorem sh6_eq_toNat (b : W64) : sh6 b = (b.extractLsb' 0 6).toNat := (BitVec.extractLsb'_toNat 0 6 b).symm

/-- The count of a W form is b[4:0]. -/
theorem sh5_eq_toNat (b : W64) : sh5 b = (b.extractLsb' 0 5).toNat := (BitVec.extractLsb'_toNat 0 5 b).symm

/-! Rotates (R99). The model's second shift has the count (64 - n) mod 64, so the count 0 stands apart. -/

theorem rotl_eq_rotateLeft (a : W64) (n : Nat) (h : n < 64) : rotl a n = a.rotateLeft n := by
  rw [BitVec.rotateLeft_def, rotl, Nat.mod_eq_of_lt h]
  rcases n.eq_zero_or_pos with rfl | hpos
  · simp [BitVec.ushiftRight_eq_zero]
  · rw [Nat.mod_eq_of_lt (by omega : 64 - n < 64)]

theorem rotr_eq_rotateRight (a : W64) (n : Nat) (h : n < 64) : rotr a n = a.rotateRight n := by
  rw [BitVec.rotateRight_def, rotr, Nat.mod_eq_of_lt h]
  rcases n.eq_zero_or_pos with rfl | hpos
  · simp [BitVec.shiftLeft_eq_zero]
  · rw [Nat.mod_eq_of_lt (by omega : 64 - n < 64)]

theorem rotl_sh6_eq_rotateLeft (a b : W64) : rotl a (sh6 b) = a.rotateLeft (b.extractLsb' 0 6).toNat := by
  rw [sh6_eq_toNat, rotl_eq_rotateLeft a _ (BitVec.isLt _)]

theorem rotr_sh6_eq_rotateRight (a b : W64) : rotr a (sh6 b) = a.rotateRight (b.extractLsb' 0 6).toNat := by
  rw [sh6_eq_toNat, rotr_eq_rotateRight a _ (BitVec.isLt _)]

/-! Upper halves of products (R101). -/

/-- Bits [127:64] of an integer held in 128 bits are its quotient by 2^64, rounded down, whatever its size and sign. -/
theorem extractLsb'_ofInt_high (n : Int) : (BitVec.ofInt 128 n).extractLsb' 64 64 = BitVec.ofInt 64 (n / 2 ^ 64) := by
  apply BitVec.eq_of_toNat_eq
  rw [BitVec.extractLsb'_toNat, BitVec.toNat_ofInt, BitVec.toNat_ofInt, Nat.shiftRight_eq_div_pow]
  omega

theorem mulHS_eq_extractLsb' (a b : W64) : mulHS a b = (a.signExtend 128 * b.signExtend 128).extractLsb' 64 64 :=
  calc mulHS a b = (BitVec.ofInt 128 (a.toInt * b.toInt)).extractLsb' 64 64 := (extractLsb'_ofInt_high _).symm
    _ = (a.signExtend 128 * b.signExtend 128).extractLsb' 64 64 := by rw [BitVec.ofInt_mul]; rfl

theorem mulHU_eq_extractLsb' (a b : W64) : mulHU a b = (a.setWidth 128 * b.setWidth 128).extractLsb' 64 64 := by
  have hprod : a.setWidth 128 * b.setWidth 128 = BitVec.ofInt 128 ((a.toNat * b.toNat : Nat) : Int) := by
    rw [Int.natCast_mul, BitVec.ofInt_mul, BitVec.ofInt_natCast, BitVec.ofInt_natCast, BitVec.ofNat_toNat, BitVec.ofNat_toNat]
  rw [hprod, extractLsb'_ofInt_high, mulHU, ← BitVec.ofInt_natCast]
  rfl

/-! Quotients and remainders (R101, R102). The quotient of -2^63 by -1 wraps in the model as it does in the word operation. -/

theorem divS_eq_sdiv (a b : W64) : divS a b = if b = 0 then 0xFFFFFFFFFFFFFFFF else a.sdiv b := by
  have hquot : BitVec.ofInt 64 (a.toInt.tdiv b.toInt) = a.sdiv b :=
    BitVec.eq_of_toInt_eq (by rw [BitVec.toInt_ofInt, BitVec.toInt_sdiv])
  rw [divS, hquot]
  rfl

theorem remS_eq_srem (a b : W64) : remS a b = if b = 0 then a else a.srem b := by
  rw [remS, ← BitVec.toInt_srem, BitVec.ofInt_toInt]

theorem divU_eq_udiv (a b : W64) : divU a b = if b = 0 then 0xFFFFFFFFFFFFFFFF else a / b := by
  rw [divU, ← BitVec.udiv_def]
  rfl

theorem remU_eq_umod (a b : W64) : remU a b = if b = 0 then a else a % b := by
  rw [remU, ← BitVec.umod_def]

/-! The rows. -/

/-- With GSR.PP clear, an instruction of two sources writes its function's value of them. -/
theorem exec_eq_put_of_alu2 {i : Instr} {s : State} {d a b : BitVec 4} {f : W64 → W64 → W64} {v : W64}
    (hexec : exec i s = .next (s.alu2 i d a b f)) (hp : s.me.pp = false) (hv : f (s.rd a) (s.rd b) = v) :
    exec i s = .next (s.put d v) := by
  rw [hexec, State.alu2, State.plain_of_clear s i _ hp, hv]

theorem registerOperations : RegisterOperations := by
  intro i s d v hp hi
  unfold registerResult at hi
  split at hi
  case h_19 => cases hi
  all_goals cases hi
  -- ADD, SUB and the logical operations.
  case h_1 | h_2 | h_5 | h_6 | h_7 | h_8 | h_9 | h_10 => exact exec_eq_put_of_alu2 rfl hp rfl
  -- ADDW and SUBW.
  case h_3 | h_4 => exact exec_eq_put_of_alu2 rfl hp (sext32_eq_signExtend _)
  -- SLL, SRL and SRA.
  case h_11 | h_12 | h_13 => exact exec_eq_put_of_alu2 rfl hp (by rw [sh6_eq_toNat])
  -- ROL and ROR.
  case h_14 => exact exec_eq_put_of_alu2 rfl hp (rotl_sh6_eq_rotateLeft _ _)
  case h_15 => exact exec_eq_put_of_alu2 rfl hp (rotr_sh6_eq_rotateRight _ _)
  -- SLLW, SRLW and SRAW.
  case h_16 | h_17 | h_18 => exact exec_eq_put_of_alu2 rfl hp (by rw [lo32_eq_extractLsb', sh5_eq_toNat, sx])

theorem multiplyDivide : MultiplyDivide := by
  intro i s d v hp hi
  unfold productResult at hi
  split at hi
  case h_9 => cases hi
  all_goals cases hi
  · exact exec_eq_put_of_alu2 rfl hp rfl
  · exact exec_eq_put_of_alu2 rfl hp (mulHS_eq_extractLsb' _ _)
  · exact exec_eq_put_of_alu2 rfl hp (mulHU_eq_extractLsb' _ _)
  · exact exec_eq_put_of_alu2 rfl hp (by rw [lo32_eq_extractLsb', lo32_eq_extractLsb', sx])
  · exact exec_eq_put_of_alu2 rfl hp (divS_eq_sdiv _ _)
  · exact exec_eq_put_of_alu2 rfl hp (divU_eq_udiv _ _)
  · exact exec_eq_put_of_alu2 rfl hp (remS_eq_srem _ _)
  · exact exec_eq_put_of_alu2 rfl hp (remU_eq_umod _ _)

/-- Settles O2: every row of the tables of R99 and R101 through what its function computes. -/
theorem arithmeticAndLogic : Obligations.ArithmeticAndLogic := ⟨registerOperations, multiplyDivide⟩

end Sys2Proof.Machine
end

section
/-!
PROOF. What a unit's write does to bolts and to held sets: nothing (for O42, SREL of an output bolt).
Sealing an output bolt writes its notify word, and that write may take a bank's turn, end reservations and serve parked requests,
whose own writes may serve more. None of it changes an entry of a bolt controller or the held set of a Loom, so each operation on
the way is shown to keep these two, State.boltsAndHolds.
-/

namespace Sys2Proof.Machine

/-- The bolts of every cluster, and the held set of every Loom. -/
def State.boltsAndHolds (s : State) : (ClusterId → Tab Bolt) × (ClusterId → List Held) :=
  (fun cl => (s.cluster cl).bolts, fun l => (s.lk l).held)

theorem State.bolt_of_boltsAndHolds_eq {s t : State} (h : s.boltsAndHolds = t.boltsAndHolds) (cl : ClusterId) (e : Nat) :
    (s.cluster cl).bolt e = (t.cluster cl).bolt e :=
  congrArg (fun x => Tab.get ({} : Bolt) x e) (congrFun (congrArg Prod.fst h) cl)

theorem State.held_of_boltsAndHolds_eq {s t : State} (h : s.boltsAndHolds = t.boltsAndHolds) (l : ClusterId) :
    (s.lk l).held = (t.lk l).held :=
  congrFun (congrArg Prod.snd h) l

/-! Updates of slices and of the work to come, and of clusters and Looms elsewhere than in these two. -/

@[simp] theorem State.boltsAndHolds_setSlice (s : State) (k : SliceId) (x : Slice) : (s.setSlice k x).boltsAndHolds = s.boltsAndHolds := rfl
@[simp] theorem State.boltsAndHolds_soon (s : State) (e : Ev) : (s.soon e).boltsAndHolds = s.boltsAndHolds := rfl
@[simp] theorem State.boltsAndHolds_later (s : State) (t o : Nat) (e : Ev) : (s.later t o e).boltsAndHolds = s.boltsAndHolds := rfl

theorem State.boltsAndHolds_setCluster (s : State) (cl : ClusterId) (x : Cluster) (h : x.bolts = (s.cluster cl).bolts) :
    (s.setCluster cl x).boltsAndHolds = s.boltsAndHolds := by
  refine Prod.ext (funext fun j => ?_) rfl
  by_cases hj : j = cl
  · subst hj
    exact (congrArg Cluster.bolts (s.cluster_setCluster j x)).trans h
  · exact congrArg Cluster.bolts (s.cluster_setCluster_ne cl j x hj)

theorem State.boltsAndHolds_setLk (s : State) (l : ClusterId) (k : LoomCore) (h : k.held = (s.lk l).held) :
    (s.setLk l k).boltsAndHolds = s.boltsAndHolds := by
  refine Prod.ext rfl (funext fun j => ?_)
  by_cases hj : j = l
  · subst hj
    exact (congrArg (fun x => x.k.held) (s.loom_setLoom j { s.loom j with k := k })).trans h
  · exact congrArg (fun x => x.k.held) (s.loom_setLoom_ne l j _ hj)

theorem State.boltsAndHolds_foldl {α : Type} (f : State → α → State) (h : ∀ s a, (f s a).boltsAndHolds = s.boltsAndHolds)
    (l : List α) (s : State) : (l.foldl f s).boltsAndHolds = s.boltsAndHolds :=
  foldl_keeps (fun u => u.boltsAndHolds = s.boltsAndHolds) f (fun b a hb => (h b a).trans hb) l s rfl

@[simp] theorem State.boltsAndHolds_count (s : State) (c : CtxId) (k : BitVec 16) : (s.count c k).boltsAndHolds = s.boltsAndHolds := by
  unfold State.count
  split <;> rfl

theorem State.boltsAndHolds_countLoom (s : State) (l : ClusterId) (cond n : Nat) :
    (s.countLoom l cond n).boltsAndHolds = s.boltsAndHolds := by
  unfold State.countLoom
  split
  · rfl
  · exact s.boltsAndHolds_setLk l _ rfl

/-! One write at a point: its bytes, its full-empty bit, its timestamps, its bank. -/

@[simp] theorem State.boltsAndHolds_pointWrite (s : State) (pa : Nat) (bs : List Byte) :
    (s.pointWrite pa bs).boltsAndHolds = s.boltsAndHolds := by
  unfold State.pointWrite
  split <;> rfl

@[simp] theorem State.boltsAndHolds_putPoint8 (s : State) (pa : Nat) (v : W64) : (s.putPoint8 pa v).boltsAndHolds = s.boltsAndHolds :=
  s.boltsAndHolds_pointWrite pa _

@[simp] theorem State.boltsAndHolds_pointSetFull (s : State) (pa : Nat) (full : Bool) :
    (s.pointSetFull pa full).boltsAndHolds = s.boltsAndHolds := by
  unfold State.pointSetFull
  split <;> rfl

@[simp] theorem State.boltsAndHolds_stamp (s : State) (pa : Nat) (ct : W64) : (s.stamp pa ct).1.boltsAndHolds = s.boltsAndHolds := by
  unfold State.stamp
  split <;> rfl

@[simp] theorem State.boltsAndHolds_useBank (s : State) (pa : Nat) : (s.useBank pa).boltsAndHolds = s.boltsAndHolds := by
  unfold State.useBank
  split
  · exact s.boltsAndHolds_setCluster _ _ rfl
  · rfl

@[simp] theorem State.boltsAndHolds_takeM (s : State) (line : Nat) : (s.takeM line).boltsAndHolds = s.boltsAndHolds := by
  unfold State.takeM
  extract_lets
  split <;> rfl

/-! Reservations lost to a write (R177). -/

@[simp] theorem State.boltsAndHolds_retryLr (s : State) (k : SliceId) : (s.retryLr k).boltsAndHolds = s.boltsAndHolds :=
  State.boltsAndHolds_foldl _ (fun u _ => u.boltsAndHolds_soon _) _ s

@[simp] theorem State.boltsAndHolds_endResv (s : State) (k : SliceId) (p : Resv → Bool) :
    (s.endResv k p).boltsAndHolds = s.boltsAndHolds := by
  unfold State.endResv
  extract_lets gone t u
  split
  · rfl
  · rw [State.boltsAndHolds_retryLr, State.boltsAndHolds_foldl]
    · rfl
    · intro v r
      dsimp only
      repeat' split
      all_goals rfl

@[simp] theorem State.boltsAndHolds_loseLine (s : State) (pa : Nat) (who : Option CtxId) :
    (s.loseLine pa who).boltsAndHolds = s.boltsAndHolds := s.boltsAndHolds_endResv _ _

/-! Parked requests that a write serves (R184). -/

theorem State.boltsAndHolds_effect (s : State) (r : Req) (pa len : Nat) (e : Effect) (h : s.effect r pa len = some e) :
    e.s.boltsAndHolds = s.boltsAndHolds := by
  unfold State.effect at h
  dsimp only at h
  split at h
  all_goals
    repeat' split at h
    all_goals cases h
  all_goals simp

@[simp] theorem State.boltsAndHolds_stampOp (s : State) (r : Req) (p : Piece) (e : Effect) :
    (s.stampOp r p e).s.boltsAndHolds = e.s.boltsAndHolds := by
  have hstamp := e.s.boltsAndHolds_stamp p.pa r.ct
  unfold State.stampOp
  generalize e.s.stamp p.pa r.ct = q at hstamp ⊢
  obtain ⟨t, w⟩ := q
  dsimp only
  repeat' split
  · rfl
  all_goals exact hstamp

@[simp] theorem State.boltsAndHolds_unpark (s : State) (pa id : Nat) : (s.unpark pa id).boltsAndHolds = s.boltsAndHolds := by
  unfold State.unpark
  split
  · exact s.boltsAndHolds_setCluster _ _ rfl
  · rfl

@[simp] theorem State.boltsAndHolds_refuse (s : State) (r : Req) (pa bad : Nat) : (s.refuse r pa bad).boltsAndHolds = s.boltsAndHolds := by
  unfold State.refuse
  extract_lets
  split <;> rfl

@[simp] theorem State.boltsAndHolds_keepResult (s : State) (r : Req) (pa : Nat) (v : W64) :
    (s.keepResult r pa v).boltsAndHolds = s.boltsAndHolds := by
  unfold State.keepResult
  extract_lets
  rw [apply_ite State.boltsAndHolds, State.boltsAndHolds_setSlice, ite_self]

@[simp] theorem State.boltsAndHolds_answer (s : State) (r : Req) (pa : Nat) (e : Effect) :
    (s.answer r pa e).boltsAndHolds = s.boltsAndHolds := by
  unfold State.answer
  split
  case h_4 => simp [State.acknowledge]
  case h_5 => split <;> rfl
  all_goals rfl

theorem State.boltsAndHolds_servePass (s : State) (l : List Req) : (s.servePass l).1.boltsAndHolds = s.boltsAndHolds := by
  induction l generalizing s with
  | nil => rfl
  | cons r t ih =>
    rw [State.servePass]
    split
    · exact ih s
    next e he =>
      have heff : e.s.boltsAndHolds = s.boltsAndHolds := by
        split at he
        · cases he
        · exact s.boltsAndHolds_effect r _ _ e he
      extract_lets bad done kept answered
      have hkept : kept.boltsAndHolds = s.boltsAndHolds := by simp [kept, done, heff, apply_ite State.boltsAndHolds]
      have hanswered : answered.boltsAndHolds = s.boltsAndHolds := by simp [answered, hkept]
      split
      · simp [ih]
      · exact (ih answered).trans hanswered

theorem State.boltsAndHolds_serveParked (s : State) (word n : Nat) : (s.serveParked word n).boltsAndHolds = s.boltsAndHolds := by
  induction n generalizing s with
  | zero => rfl
  | succ n ih =>
    have hpass := s.boltsAndHolds_servePass (s.parkedOn word)
    rw [State.serveParked]
    dsimp only
    split
    · rw [ih, hpass]
    · exact hpass

@[simp] theorem State.boltsAndHolds_settleWord (s : State) (word : Nat) : (s.settleWord word).boltsAndHolds = s.boltsAndHolds := by
  unfold State.settleWord
  extract_lets l u
  have hu : u.boltsAndHolds = s.boltsAndHolds := s.boltsAndHolds_serveParked word _
  repeat' split
  · rfl
  all_goals exact hu

@[simp] theorem State.boltsAndHolds_written (s : State) (pa len : Nat) (who : Option CtxId) :
    (s.written pa len who).boltsAndHolds = s.boltsAndHolds := by
  rw [State.written, State.boltsAndHolds_foldl _ State.boltsAndHolds_settleWord, State.boltsAndHolds_loseLine]

/-! A unit's write at device scope (R281, R291, R333). -/

theorem State.boltsAndHolds_cohWrite (s : State) (pa : Nat) (bs : List Byte) (ct : W64) (who : Option CtxId) :
    (s.cohWrite pa bs ct who).boltsAndHolds = s.boltsAndHolds := by
  refine State.boltsAndHolds_foldl _ (fun u p => ?_) _ s
  unfold State.cohWrite1
  split
  · rfl
  · simp [apply_ite State.boltsAndHolds]

theorem State.boltsAndHolds_cohSetFull (s : State) (pa : Nat) (full : Bool) : (s.cohSetFull pa full).boltsAndHolds = s.boltsAndHolds := by
  unfold State.cohSetFull
  split
  · rfl
  · simp [apply_ite State.boltsAndHolds]

theorem State.boltsAndHolds_cohPut (s : State) (pa : Nat) (bs : List Byte) : (s.cohPut pa bs).boltsAndHolds = s.boltsAndHolds := by
  rw [State.cohPut, State.cohPutAt, State.boltsAndHolds_foldl _ (fun u w => u.boltsAndHolds_cohSetFull _ _), State.boltsAndHolds_cohWrite]

theorem State.boltsAndHolds_linkOut (s : State) (core chip no : Nat) (b : LinkBody) (req : Option Req) :
    (s.linkOut core chip no b req).boltsAndHolds = s.boltsAndHolds := by
  unfold State.linkOut
  split
  · rfl
  · dsimp only
    split <;> rfl

theorem State.boltsAndHolds_unitStore (s : State) (full : Bool) (pa : Nat) (bs : List Byte) :
    (s.unitStore full pa bs).boltsAndHolds = s.boltsAndHolds := by
  unfold State.unitStore
  split
  · rfl
  · exact State.boltsAndHolds_linkOut _ _ _ _ _ _
  · rfl
  · extract_lets r
    repeat' split
    · exact s.boltsAndHolds_cohPut pa bs
    · exact s.boltsAndHolds_cohWrite pa bs 0 none
    all_goals rfl

/-- The notify word of an output bolt, or the count of its refusal, changes no bolt and no held set. -/
theorem State.boltsAndHolds_notify (s : State) (cl e : Nat) (b : Bolt) : (s.notify cl e b).boltsAndHolds = s.boltsAndHolds := by
  unfold State.notify
  extract_lets v
  split
  · exact s.boltsAndHolds_countLoom _ _ _
  · exact s.boltsAndHolds_unitStore _ _ _

end Sys2Proof.Machine
end

section
/-!
PROOF. The Loom: the S slot, and predicates that read false (O42).
Every predicated slot instruction is an if on its predicate; with the predicate read, most replace the running Loom's own part
alone (loomBecomes), SNEXT and SREL its bolts as well.
-/

namespace Sys2Proof.Machine

open Sys2Proof.Stated

/-! Predicates, registers and results of the running Loom, in the statement's terms. -/

/-- The model's predicate test is R204's. -/
theorem LoomCore.on_iff_predOn (k : LoomCore) (p : Pred) : k.on p = true ↔ predOn k p := by
  rw [LoomCore.on, Bool.or_eq_true, Bool.not_eq_true', bne_iff_ne]
  exact Iff.rfl

/-- A predicate that does not read true reads false. -/
theorem LoomCore.on_of_not_predOn {k : LoomCore} {p : Pred} (h : ¬ predOn k p) : k.on p = false :=
  Bool.eq_false_iff.mpr (mt (k.on_iff_predOn p).mp h)

/-- A result is put in flight as R205 to R207 word it. -/
theorem LoomCore.fly_eq_inFlight (k : LoomCore) (slot lat : Nat) (r : LResult) : k.fly slot lat r = Stated.inFlight k slot lat r := by
  simp only [LoomCore.fly, Stated.inFlight, Option.isSome_iff_ne_none]
  rfl

/-- The comparisons of SCMP are signed and unsigned comparisons of the registers' values (R235). -/
theorem scmpTaken_eq_intTest (cc : BitVec 3) (a b : W32) : scmpTaken cc a b = intTest cc a b := by
  have hge : (!a.slt b) = decide (b.toInt ≤ a.toInt) := by rw [BitVec.slt, ← decide_not, decide_eq_decide, Int.not_lt]
  have hgeu : (!a.ult b) = decide (b.toNat ≤ a.toNat) := by rw [BitVec.ult, ← decide_not, decide_eq_decide, Nat.not_lt]
  unfold scmpTaken intTest
  match cc.toNat with
  | 0 | 1 | 2 | 4 => rfl
  | 3 => exact hge
  | _ + 5 => exact hgeu

/-! The running Loom's registers, queues and array replaced: the rest of it, every other Loom and every other unit are as before. -/

theorem State.lk_setLk (s : State) (l : ClusterId) (k : LoomCore) : (s.setLk l k).lk l = k := by
  rw [State.lk, State.setLk, State.loom_setLoom]

theorem State.setLk_loomBecomes (s : State) (k : LoomCore) : loomBecomes s (s.setLk s.cur k) k :=
  ⟨s.loom_setLoom s.cur _, fun l h => s.loom_setLoom_ne s.cur l _ h, rfl⟩

theorem State.fly_eq_setLk_inFlight (s : State) (slot lat : Nat) (r : LResult) :
    s.fly slot lat r = s.setLk s.cur (Stated.inFlight (s.lk s.cur) slot lat r) := by
  rw [State.fly, LoomCore.fly_eq_inFlight]

theorem State.fly_loomBecomes (s : State) (slot lat : Nat) (r : LResult) :
    loomBecomes s (s.fly slot lat r) (Stated.inFlight (s.lk s.cur) slot lat r) := by
  rw [State.fly_eq_setLk_inFlight]
  exact s.setLk_loomBecomes _

/-! Predicates that read false (R204). -/

/-- Every slot instruction with a predicate acts under it alone. -/
theorem exec_of_not_on (s : State) (i : Instr) (p : Pred) (hi : predicated i = some p)
    (hoff : (s.lk s.cur).on p = false) : exec i s = .next s := by
  have hon : ¬ (s.lk s.cur).on p = true := by rw [hoff]; decide
  have hnot : (!(s.lk s.cur).on p) = true := by rw [hoff]; rfl
  unfold predicated at hi
  split at hi
  all_goals cases hi
  -- SCKPT, whose condition has checkpointing in it as well.
  case h_15 => exact congrArg Host.Outcome.next (if_neg fun h => hon h.1)
  -- MPUSH, MZPUSH, MDRAIN and XCPY, which ask for the predicate's negation.
  case h_18 | h_19 | h_20 | h_28 => exact congrArg Host.Outcome.next (if_pos hnot)
  all_goals exact congrArg Host.Outcome.next (if_neg hon)

/-! No-operations. -/

theorem exec_of_noOperation (s : State) (p : Pred) : ∀ i ∈ [Instr.snop p, .vnop p, .mbub p, .xnop p], exec i s = .next s := by
  simp only [List.forall_mem_cons]
  exact ⟨rfl, rfl, rfl, rfl, fun _ h => absurd h List.not_mem_nil⟩

/-! Results (R234 to R237, R242). -/

/-- An S instruction with a result puts it in flight under its predicate, and does nothing else. -/
theorem exec_of_scalarResult (s : State) (i : Instr) (p : Pred) (lat : Nat) (r : LResult)
    (hi : scalarResult s i = some (p, lat, r)) :
    exec i s = .next (if (s.lk s.cur).on p then s.fly 0 lat r else s) := by
  unfold scalarResult at hi
  split at hi
  case h_12 => cases hi
  all_goals cases hi
  -- SCMP, by its comparison.
  case h_8 =>
    rw [← scmpTaken_eq_intTest]
    rfl
  -- SRSR, whose low half is a field of LSR.
  case h_11 =>
    rw [← BitVec.setWidth_eq_extractLsb' (by decide)]
    rfl
  all_goals rfl

/-! Instructions with a predicate that reads true. -/

/-- What such an instruction does when its predicate reads true. -/
theorem next_ite_of_predOn {s : State} {p : Pred} (h : predOn (s.lk s.cur) p) (t : State) :
    (Host.Outcome.next (if (s.lk s.cur).on p then t else s) : Host.Outcome State Fault Refusal) = .next t :=
  congrArg Host.Outcome.next (if_pos ((LoomCore.on_iff_predOn _ p).mpr h))

theorem exec_of_scalarResult_of_predOn (s : State) (i : Instr) (p : Pred) (lat : Nat) (r : LResult)
    (hi : scalarResult s i = some (p, lat, r)) (hp : predOn (s.lk s.cur) p) :
    ∃ t, exec i s = .next t ∧ loomBecomes s t (Stated.inFlight (s.lk s.cur) 0 lat r) :=
  ⟨_, (exec_of_scalarResult s i p lat r hi).trans (next_ite_of_predOn hp _), s.fly_loomBecomes 0 lat r⟩

/-! Control transfers (R237). -/

theorem exec_sbr_of_predOn (s : State) (p : Pred) (c : BitVec 12) (hp : predOn (s.lk s.cur) p) :
    ∃ t, exec (.sbr p c) s = .next t ∧ loomBecomes s t { s.lk s.cur with xfer := some (c ++ 0#4) } :=
  ⟨_, next_ite_of_predOn hp _, s.setLk_loomBecomes _⟩

/-- The transfer of SLOOP, which a count of zero leaves out, as a Loom that is put in place of the running one. -/
theorem State.transfer_unless_zero (s : State) (n : W32) (c : BitVec 12) :
    loomBecomes s (if n ≠ 0 then s.transfer c else s) (if n = 0 then s.lk s.cur else { s.lk s.cur with xfer := some (c ++ 0#4) }) := by
  by_cases hn : n = 0
  · rw [if_neg (fun h => h hn), if_pos hn]
    exact ⟨rfl, fun _ _ => rfl, rfl⟩
  · rw [if_pos hn, if_neg hn]
    exact s.setLk_loomBecomes _

/-- A result put in flight after the running Loom has become another. -/
theorem State.fly_of_loomBecomes {s t : State} {k : LoomCore} (h : loomBecomes s t k) (slot lat : Nat) (r : LResult) :
    loomBecomes s (t.fly slot lat r) (Stated.inFlight k slot lat r) := by
  obtain ⟨hloom, hother, hrest⟩ := h
  have hcur : t.cur = s.cur := (congrArg State.cur hrest :)
  obtain ⟨hloom', hother', hrest'⟩ := t.fly_loomBecomes slot lat r
  rw [hcur] at hloom' hother'
  rw [State.lk, hloom] at hloom'
  exact ⟨hloom', fun l hl => (hother' l hl).trans (hother l hl), hrest'.trans hrest⟩

theorem exec_sloop_of_predOn (s : State) (p : Pred) (d : BitVec 5) (c : BitVec 12) (hp : predOn (s.lk s.cur) p) :
    let n := (s.lk s.cur).s.getD d.toNat 0 - 1
    ∃ t, exec (.sloop p d c) s = .next t ∧ loomBecomes s t
      (Stated.inFlight (if n = 0 then s.lk s.cur else { s.lk s.cur with xfer := some (c ++ 0#4) }) 0 1 (.s d.toNat n)) :=
  ⟨_, next_ite_of_predOn hp _, State.fly_of_loomBecomes (s.transfer_unless_zero _ c) 0 1 _⟩

/-! The weave's end and its rollback points (R241, R243). -/

theorem State.dueIn_eventAt_cycle (s : State) (ord : Nat) (e : Ev) : dueIn (s.eventAt s.cycle ord e) 0 e :=
  ⟨_, (mem_insertEntry _ _ _).mpr (Or.inl rfl), rfl, rfl⟩

theorem exec_shalt_of_predOn (s : State) (p : Pred) (hp : predOn (s.lk s.cur) p) :
    ∃ t, exec (.shalt p) s = .next t ∧ t.loom s.cur = { s.loom s.cur with k := { s.lk s.cur with halting := true } }
      ∧ (∀ m, m ≠ s.cur → t.loom m = s.loom m) ∧ dueIn t 0 (.boltPost s.cur) ∧ t.mem = s.mem := by
  obtain ⟨hloom, hother, -⟩ := s.setLk_loomBecomes { s.lk s.cur with halting := true }
  exact ⟨_, next_ite_of_predOn hp _, hloom, hother, State.dueIn_eventAt_cycle _ _ _, rfl⟩

theorem exec_sckpt_of_armed (s : State) (p : Pred) (hp : predOn (s.lk s.cur) p) (harmed : (s.loom s.cur).ck.armed = true) :
    let x := s.loom s.cur
    ∃ t, exec (.sckpt p) s = .next t ∧ t.loom s.cur = { x with ck := { x.ck with ask := if x.ck.ask = 2 then 2 else 3 } }
      ∧ dueIn t 0 (.boltPost s.cur) ∧ t.mem = s.mem :=
  ⟨_, congrArg Host.Outcome.next (if_pos ⟨(LoomCore.on_iff_predOn _ p).mpr hp, harmed⟩), s.loom_setLoom s.cur _,
    State.dueIn_eventAt_cycle _ _ _, rfl⟩

theorem exec_sckpt_of_unarmed (s : State) (p : Pred) (harmed : (s.loom s.cur).ck.armed = false) : exec (.sckpt p) s = .next s :=
  congrArg Host.Outcome.next (if_neg fun h => Bool.false_ne_true (harmed.symm.trans h.2))

/-! Bolts taken from the queue (R238, R280). -/

theorem State.bolt_setBolt (s : State) (cl e : Nat) (b : Bolt) : ((s.setBolt cl e b).cluster cl).bolt e = b := by
  rw [State.setBolt, State.cluster_setCluster]
  exact Tab.get_set_same _ _ _ _

/-- SNEXT without armed checkpointing, of a handle that names a bolt. -/
theorem State.snext_of_unarmed {s : State} {d : BitVec 5} {h : BitVec 32} {at_ cl e : Nat} {rest : List (BitVec 32 × Nat)} {b : Bolt}
    (hq : (s.loom s.cur).k.boltQ = (h, at_) :: rest) (harmed : (s.loom s.cur).ck.armed = false)
    (hh : s.handle (s.cur / 256) h = .cur cl e b) :
    let k := s.lk s.cur
    s.snext d = (((s.setLk s.cur { k with boltQ := rest, held := k.held ++ [{ h := h, out := b.out }] }).setBolt cl e
      { b with popped := true, st := if b.out then b.st else .held }).now (.boltPost s.cur)).fly 0 1 (.s d.toNat h) := by
  simp only [State.snext, hq, hh, harmed, Bool.false_eq_true, if_false]
  rfl

theorem State.lk_fly (s : State) (slot lat : Nat) (r : LResult) :
    (s.fly slot lat r).lk s.cur = Stated.inFlight (s.lk s.cur) slot lat r := by
  rw [State.fly_eq_setLk_inFlight, State.lk_setLk]

theorem exec_snext_of_unarmed (s : State) (p : Pred) (d : BitVec 5) (h : BitVec 32) (at_ : Nat)
    (rest : List (BitVec 32 × Nat)) (cl e : Nat) (b : Bolt) (hp : predOn (s.lk s.cur) p)
    (hq : (s.lk s.cur).boltQ = (h, at_) :: rest) (harmed : (s.loom s.cur).ck.armed = false)
    (hh : s.handle (s.cur / 256) h = .cur cl e b) :
    let k := s.lk s.cur
    ∃ t, exec (.snext p d) s = .next t
      ∧ t.lk s.cur = Stated.inFlight { k with boltQ := rest, held := k.held ++ [{ h := h, out := b.out }] } 0 1 (.s d.toNat h)
      ∧ (t.cluster cl).bolt e = { b with popped := true, st := if b.out then b.st else .held } ∧ dueNow t (.boltPost s.cur)
      ∧ t.mem = s.mem := by
  refine ⟨s.snext d, next_ite_of_predOn hp _, ?_⟩
  rw [State.snext_of_unarmed hq harmed hh]
  refine ⟨(State.lk_fly _ 0 1 _).trans ?held, State.bolt_setBolt _ cl e _, ⟨_, List.mem_cons_self, rfl⟩, rfl⟩
  case held => exact congrArg (fun k => Stated.inFlight k 0 1 _) (State.lk_setLk s s.cur _)

/-! Holds that SREL ends (R240). -/

/-- What a handle names is an entry of its controller's table (R272). -/
theorem State.bolt_of_handle {s : State} {die cl e : Nat} {h : BitVec 32} {b : Bolt} (hh : s.handle die h = .cur cl e b) :
    (s.cluster cl).bolt e = b := by
  unfold State.handle at hh
  dsimp only at hh
  split at hh
  · cases hh
  · split at hh
    · cases hh
    · cases hh
      rfl

/-- An output bolt that has been sealed with a cause (R278). -/
def Bolt.doneBy (b : Bolt) (cause : BitVec 2) : Bolt := { b with cause := cause, st := .done, later := 0 }

/-- The seal of an output bolt ends it at once, and its notify word is written (R278, R281). -/
theorem State.sealNow_of_out {s : State} {cl e : Nat} {b : Bolt} (hb : (s.cluster cl).bolt e = b) (hout : b.out = true)
    (cause : BitVec 2) : s.sealNow cl e cause = (s.tick1.setBolt cl e (b.doneBy cause)).notify cl e (b.doneBy cause) := by
  simp only [State.sealNow, Bolt.doneBy, hb, hout, if_true]

theorem State.dropHold_held (s : State) (l : ClusterId) (h : BitVec 32) :
    ((s.dropHold l h).lk l).held = (s.lk l).held.filter (fun y => y.h != h) := by
  rw [State.lk, State.dropHold, State.loom_setLoom]
  rfl

/-- An open output bolt is sealed at once where checkpointing is not armed. -/
theorem State.sealOutput_of_open {s : State} {l cl e : Nat} {h : BitVec 32} {b : Bolt} (hh : s.handle (l / 256) h = .cur cl e b)
    (hopen : b.isOpen = true) (harmed : (s.loom l).ck.armed = false) : s.sealOutput l h = (s.dropHold l h).sealNow cl e 3 := by
  have hdropped : (s.dropHold l h).handle (l / 256) h = .cur cl e b := hh
  have hunarmed : ((s.dropHold l h).loom l).ck.armed = false := by
    rw [State.dropHold, State.loom_setLoom]
    exact harmed
  simp only [State.sealOutput, hdropped, hopen, hunarmed, Bool.not_true, Bool.false_eq_true, if_false]

/-- Its seal leaves the bolt done and the hold dropped, whatever the notify word sets off. -/
theorem State.boltsAndHolds_sealOutput {s : State} {l cl e : Nat} {h : BitVec 32} {b : Bolt}
    (hh : s.handle (l / 256) h = .cur cl e b) (hopen : b.isOpen = true) (hout : b.out = true)
    (harmed : (s.loom l).ck.armed = false) :
    (s.sealOutput l h).boltsAndHolds = ((s.dropHold l h).tick1.setBolt cl e (b.doneBy 3)).boltsAndHolds := by
  have hb : ((s.dropHold l h).cluster cl).bolt e = b := State.bolt_of_handle hh
  rw [State.sealOutput_of_open hh hopen harmed, State.sealNow_of_out hb hout, State.boltsAndHolds_notify]

theorem exec_srel_of_input (s : State) (p : Pred) (a : BitVec 5) (y : Held) (hp : predOn (s.lk s.cur) p)
    (hy : (s.lk s.cur).holds ((s.lk s.cur).sReg a) = some y) (hin : y.out = false) :
    ∃ t, exec (.srel p a) s = .next t ∧ loomBecomes s t { s.lk s.cur with
      held := (s.lk s.cur).held.map (fun z => if z.h == (s.lk s.cur).sReg a then { z with srel := true } else z) } := by
  refine ⟨_, next_ite_of_predOn hp _, ?_⟩
  simp only [State.srel, hy, hin, Bool.false_eq_true, if_false]
  exact s.setLk_loomBecomes _

theorem exec_srel_of_output (s : State) (p : Pred) (a : BitVec 5) (y : Held) (cl e : Nat) (b : Bolt) (hp : predOn (s.lk s.cur) p)
    (hy : (s.lk s.cur).holds ((s.lk s.cur).sReg a) = some y) (hyout : y.out = true)
    (hh : s.handle (s.cur / 256) ((s.lk s.cur).sReg a) = .cur cl e b) (hopen : b.isOpen = true) (hout : b.out = true)
    (harmed : (s.loom s.cur).ck.armed = false) :
    ∃ t, exec (.srel p a) s = .next t ∧ ((t.cluster cl).bolt e).st = .done ∧ ((t.cluster cl).bolt e).cause = 3
      ∧ ∀ z ∈ (t.lk s.cur).held, z.h ≠ (s.lk s.cur).sReg a := by
  have hexec : exec (.srel p a) s = .next (s.srel ((s.lk s.cur).sReg a)) := next_ite_of_predOn hp _
  generalize (s.lk s.cur).sReg a = h at hy hh hexec ⊢
  have hsrel : s.srel h = s.sealOutput s.cur h := by simp only [State.srel, hy, hyout, if_true]
  have hframe := State.boltsAndHolds_sealOutput hh hopen hout harmed
  have hbolt : ((s.srel h).cluster cl).bolt e = b.doneBy 3 := by
    rw [hsrel, State.bolt_of_boltsAndHolds_eq hframe, State.bolt_setBolt]
  have hheld : ((s.srel h).lk s.cur).held = (s.lk s.cur).held.filter (fun z => z.h != h) := by
    rw [hsrel, State.held_of_boltsAndHolds_eq hframe]
    exact s.dropHold_held s.cur h
  refine ⟨s.srel h, hexec, by rw [hbolt]; rfl, by rw [hbolt]; rfl, fun z hz => ?gone⟩
  case gone =>
    rw [hheld] at hz
    exact bne_iff_ne.mp (List.mem_filter.mp hz).2

/-- Settles O42: a false predicate leaves the state (exec_of_not_on), a true one leaves what the instruction does; for SREL of an
output bolt, what its seal and notify word leave is State.boltsAndHolds_notify. -/
theorem loomScalarSlots : Obligations.LoomScalarSlots := fun s =>
  ⟨fun i p hi hp => exec_of_not_on s i p hi (LoomCore.on_of_not_predOn hp), exec_of_noOperation s, exec_of_scalarResult_of_predOn s,
    exec_sbr_of_predOn s, exec_sloop_of_predOn s, exec_shalt_of_predOn s, exec_sckpt_of_armed s,
    fun p _ harmed => exec_sckpt_of_unarmed s p harmed, exec_snext_of_unarmed s,
    fun p a y hp hy => ⟨exec_srel_of_input s p a y hp hy, fun cl e b => exec_srel_of_output s p a y cl e b hp hy⟩⟩

end Sys2Proof.Machine
end
